-- ==== Sys2Proof/Word.lean ====
section
/-! DEFINITION. The words of the machine: the 64-bit register word of the Sterok cores (R188), the byte of memory (R7), the 128-bit accumulator (R194), and the sparse finite map that every register file, table and memory of the model is held in. -/

namespace Sys2Proof

/-- A value or pointer register of a Sterok core: 64 bits (chapter 05, "Registers"). -/
abbrev Word := BitVec 64

/-- An accumulator register: 128 bits, two's complement (R194). -/
abbrev Acc := BitVec 128

/-- A byte of memory (R7). -/
abbrev Byte := BitVec 8

/-- A sparse map from keys to values, in one canonical form: keys strictly rising, and no entry equal to the
default an unlisted key reads as. The operations on it stand in `Machine/Map.lean`. -/
abbrev SMap (α : Type) := List (Nat × α)

end Sys2Proof
end

