-- ==== Sys2Proof/Syntax.lean ====
section
/-! DEFINITION. The commands of the block: one constructor per row of the opcode table, with the operands the environment supplies. -/

namespace Sys2Proof

/-- Who sends a register command or owns a resource: a host port, a Wayside core, the Steward, a stall, or a device
block by its activity code (R15, R244). -/
inductive Party
  | host (h : Fin 2)
  | wayside (w : Fin 24)
  | steward
  | stall (s : Fin 2048)
  | block (a : Fin 16)
deriving DecidableEq, Repr

/-- The core an instruction runs on: a Churn sequencer, a Wayside core or the Steward (R188). -/
inductive CoreId
  | churn (n : Fin 336)
  | wayside (w : Fin 24)
  | steward
deriving DecidableEq, Repr

/-- A fault that fences a Churn core (R180; the watchdog has its own row). -/
inductive CoreFaultKind
  | spadUncorr | imemParity | tileParity
deriving DecidableEq, Repr

/-- A DATA packet (R276): the header's fields, its 20 bytes of OP_FIELDS, the payload (ciphertext when protected) and the
authentication tag; the UDP source port; what the network layer found: the CE mark, an IP fragment or option, a failed
checksum or a nonzero reserved field. -/
structure Packet where
  version : Nat
  tail : Bool
  ackReq : Bool
  prot : Bool
  retx : Bool
  opcode : Nat
  path : Nat
  pad : Nat
  srcDev : Nat
  dstDev : Nat
  dstQp : Nat
  tag : Nat
  srcQp : Nat
  qpGen : Nat
  msgId : Nat
  msgLen : Nat
  streamInc : Nat
  offset : Nat
  tsn : Nat
  seq : Nat
  opf : List Nat
  payload : List Nat
  auth : List Nat
  udpPort : Nat
  ce : Bool
  frag : Bool
  flaw : Bool
deriving DecidableEq, Repr

/-- An entry of an ACK packet (R294). -/
structure AckEntry where
  tsn : Nat
  hold : Nat
  ce : Bool
  dup : Bool
  busy : Bool
deriving DecidableEq, Repr

/-- The key of a stream context (R279): local queue pair, remote device, remote queue pair, tag, and whether it sends. -/
structure StreamKey where
  qp : Nat
  dev : Nat
  rqp : Nat
  tag : Nat
  send : Bool
deriving DecidableEq, Repr

/-- An entry of the address table as a ROSTER carries it (R326): IP address, module serial, valid. -/
structure RosterEntry where
  ip : Nat
  serial : Nat
  valid : Bool
deriving DecidableEq, Repr

/-- A whole COLL segment (R404): the sending device, its `OP_FIELDS`, and the payload. -/
structure Segment where
  dev : Nat
  seq : Nat
  group : Nat
  phase : Nat
  step : Nat
  rank : Nat
  check : Nat
  start : Nat
  sat : Bool
  byStop : Bool
  payload : List Nat
deriving DecidableEq, Repr

/-- Where a request record comes from: intake queue `q`, or queue pair `FIRST_QP` + `k` (R416). -/
inductive Origin
  | intake (q : Nat)
  | ahnam (k : Nat)
deriving DecidableEq, Repr

/-- How a page move ends: its data has arrived, it was read poisoned, Pail failed, or it was aborted. -/
inductive MoveResult
  | ok | poison | pailFailed | aborted
deriving DecidableEq, Repr

/-- A tier that pages are demoted from (R481, R486). -/
inductive Tier
  | accel | hbm | cellar
deriving DecidableEq, Repr

/-- A control message of Layby (R503): the device and the rank it comes from, `JOB_ID`, `ARG0` to `ARG5`. -/
structure LbyMsg where
  dev : Nat
  rank : Nat
  jobId : Nat
  a0 : Nat
  a1 : Nat
  a2 : Nat
  a3 : Nat
  a4 : Nat
  a5 : Nat
deriving DecidableEq, Repr

/-- A run of a slice restored from a source that is not the member's own near copy (R532, R533): accelerator, offset in its
window, and the bytes that the source held. -/
structure LbyPlaced where
  acc : Nat
  addr : Nat
  bytes : List Nat
deriving DecidableEq, Repr

/-- Two intact copies of one record that disagree (R535): each source's device and digests. -/
structure LbyConflict where
  dev0 : Nat
  d00 : Nat
  d01 : Nat
  dev1 : Nat
  d10 : Nat
  d11 : Nat
deriving DecidableEq, Repr

/-- A received Ethernet frame (R567–R569, R595): its port, its bytes from the destination MAC address through the FCS, an FEC
codeword that could not be corrected, whether a MAC error was found only after placement had begun, whether the group's
receive buffer had no room for it, and its receive timestamp. -/
structure Frame where
  port : Nat
  bytes : List Nat
  fec : Bool
  begun : Bool
  full : Bool
  time : Nat
deriving DecidableEq, Repr

/-- How a segment of a Pail command ends (R637, R656): the segment, and the blocks that failed their check, as (SSD, byte
offset on it). -/
structure SegResult where
  seg : Nat
  bad : List (Nat × Nat)
deriving DecidableEq, Repr

/-- A source of a cipher alarm with a detector (R685). -/
inductive AlarmSource
  | volt | clk | temp | mesh
deriving DecidableEq, Repr

/-- A memory request of an accelerator (R701, R705): a read of `n` bytes, a write (poisoned or not), an AtomicOp of 4, 8 or 16
bytes with its operands. -/
inductive AccOp
  | read (n : Nat)
  | write (bytes : List Nat) (poisoned : Bool)
  | fetchAdd (n v : Nat)
  | swap (n v : Nat)
  | cas (n old new : Nat)
deriving DecidableEq, Repr

/-- What resets a host port (R720). -/
inductive HostResetKind
  | linkDown | hotReset | perst
deriving DecidableEq, Repr

/-- What a read of stored words meets (R898): an error that is corrected, or one that is not. -/
inductive MemErr
  | corrected | uncorrectable
deriving DecidableEq, Repr

/-- An unlock token (R869): module serial, nonce, scope, key slot; and the public key with the signature over it, 96 bytes
each, read big-endian. -/
structure Token where
  serial : Nat
  nonce : Nat
  scope : Nat
  slot : Nat
  pubkey : List Nat
  signature : List Nat
deriving DecidableEq, Repr


/-- The commands: one constructor per row of the opcode table (the mnemonic of each stands in its docstring). -/
inductive Instr
  /-- REGISTER_WRITE: Registers and guards. -/
  | registerWrite (p : Party) (page off bits value : Nat)
  /-- LOW_WORD_WRITE: Registers and guards. -/
  | lowWordWrite (p : Party) (page off value : Nat)
  /-- LOW_WORD_READ: Registers and guards. -/
  | lowWordRead (p : Party) (page off : Nat)
  /-- EN_WRITTEN_1: Registers and guards. -/
  | enWritten1 (p : Party) (page value : Nat)
  /-- CONSISTENCY_CHECK_END: Registers and guards. -/
  | consistencyCheckEnd (page : Nat)
  /-- EN_WRITTEN_0: Registers and guards. -/
  | enWritten0 (p : Party) (page value : Nat)
  /-- DRAIN_TO_OFF: Registers and guards. -/
  | drainToOff (page : Nat)
  /-- QUIESCE_WRITE: Registers and guards. -/
  | quiesceWrite (p : Party) (page : Nat) (on : Bool)
  /-- FENCE_WRITE: Registers and guards. -/
  | fenceWrite (p : Party) (page : Nat) (on : Bool)
  /-- ERR_COUNT_CLEAR: Registers and guards. -/
  | errCountClear (p : Party) (page : Nat)
  /-- ASLEEP_PAGE_ACCESS: Registers and guards. -/
  | asleepPageAccess (p : Party) (page off : Nat) (wr : Option Nat)
  /-- SEMAPHORE_READ: Registers and guards. -/
  | semaphoreRead (n : Fin 64) (readers : List Party) (wide : Bool)
  /-- SEMAPHORE_RELEASE: Registers and guards. -/
  | semaphoreRelease (p : Party) (n : Fin 64) (value : Nat) (wide : Bool)
  /-- CRS_BREAK: Registers and guards. -/
  | crsBreak (p : Party) (value : Nat)
  /-- CH_OWNER_WRITE: Registers and guards. -/
  | chOwnerWrite (p : Party) (m : Fin 7) (n : Fin 64) (value : Nat)
  /-- SCRUB_COMPLETE: Registers and guards. -/
  | scrubComplete (m : Fin 7) (n : Fin 64)
  /-- START: Churn cores. -/
  | start (p : Party) (core : Fin 336) (value : Nat)
  /-- STOP: Churn cores. -/
  | stop (p : Party) (core : Fin 336) (value : Nat)
  /-- IMEM_WRITE: Churn cores. -/
  | imemWrite (pool member off : Nat) (data : List Nat)
  /-- MEMBER_RESTART_CMD: Churn cores. -/
  | memberRestartCmd (p : Party) (value : Nat)
  /-- CORE_FAULT: Churn cores. -/
  | coreFault (core : Fin 336) (k : CoreFaultKind) (addr : Nat)
  /-- CORE_WATCHDOG: Churn cores. -/
  | coreWatchdog (core : Fin 336)
  /-- REPLACEMENT_READY: Churn cores. -/
  | replacementReady (core : Fin 336)
  /-- MEMBER_RESTART: Churn cores. -/
  | memberRestart (core : Fin 336)
  /-- TILE_OP_END: Churn cores. -/
  | tileOpEnd (core : Fin 336)
  /-- POISON_TRAP: Churn cores. -/
  | poisonTrap (core : Fin 336) (addr : Nat)
  /-- WAIT_END: Churn cores. -/
  | waitEnd (core : Fin 336)
  /-- WAIT_TIMEOUT: Churn cores. -/
  | waitTimeout (core : Fin 336)
  /-- ADD: Sterok ALU. -/
  | add (c : CoreId) (x y z : Fin 16)
  /-- SUB: Sterok ALU. -/
  | sub (c : CoreId) (x y z : Fin 16)
  /-- AND: Sterok ALU. -/
  | and (c : CoreId) (x y z : Fin 16)
  /-- OR: Sterok ALU. -/
  | or (c : CoreId) (x y z : Fin 16)
  /-- XOR: Sterok ALU. -/
  | xor (c : CoreId) (x y z : Fin 16)
  /-- ANDN: Sterok ALU. -/
  | andn (c : CoreId) (x y z : Fin 16)
  /-- SLL: Sterok ALU. -/
  | sll (c : CoreId) (x y z : Fin 16)
  /-- SRL: Sterok ALU. -/
  | srl (c : CoreId) (x y z : Fin 16)
  /-- SRA: Sterok ALU. -/
  | sra (c : CoreId) (x y z : Fin 16)
  /-- MUL: Sterok ALU. -/
  | mul (c : CoreId) (x y z : Fin 16)
  /-- MULHS: Sterok ALU. -/
  | mulhs (c : CoreId) (x y z : Fin 16)
  /-- MULHU: Sterok ALU. -/
  | mulhu (c : CoreId) (x y z : Fin 16)
  /-- DIVS: Sterok ALU. -/
  | divs (c : CoreId) (x y z : Fin 16)
  /-- DIVU: Sterok ALU. -/
  | divu (c : CoreId) (x y z : Fin 16)
  /-- REMS: Sterok ALU. -/
  | rems (c : CoreId) (x y z : Fin 16)
  /-- REMU: Sterok ALU. -/
  | remu (c : CoreId) (x y z : Fin 16)
  /-- MIN: Sterok ALU. -/
  | min (c : CoreId) (x y z : Fin 16)
  /-- MAX: Sterok ALU. -/
  | max (c : CoreId) (x y z : Fin 16)
  /-- MINU: Sterok ALU. -/
  | minu (c : CoreId) (x y z : Fin 16)
  /-- MAXU: Sterok ALU. -/
  | maxu (c : CoreId) (x y z : Fin 16)
  /-- CMPEQ: Sterok ALU. -/
  | cmpeq (c : CoreId) (x y z : Fin 16)
  /-- CMPNE: Sterok ALU. -/
  | cmpne (c : CoreId) (x y z : Fin 16)
  /-- CMPLT: Sterok ALU. -/
  | cmplt (c : CoreId) (x y z : Fin 16)
  /-- CMPLTU: Sterok ALU. -/
  | cmpltu (c : CoreId) (x y z : Fin 16)
  /-- CLZ: Sterok ALU. -/
  | clz (c : CoreId) (x y z : Fin 16)
  /-- POPC: Sterok ALU. -/
  | popc (c : CoreId) (x y z : Fin 16)
  /-- ADDI: Sterok ALU. -/
  | addi (c : CoreId) (x y : Fin 16) (imm : BitVec 18)
  /-- ANDI: Sterok ALU. -/
  | andi (c : CoreId) (x y : Fin 16) (imm : BitVec 18)
  /-- ORI: Sterok ALU. -/
  | ori (c : CoreId) (x y : Fin 16) (imm : BitVec 18)
  /-- XORI: Sterok ALU. -/
  | xori (c : CoreId) (x y : Fin 16) (imm : BitVec 18)
  /-- SHIFTI: Sterok ALU. -/
  | shifti (c : CoreId) (x y : Fin 16) (imm : BitVec 18)
  /-- LI: Sterok ALU. -/
  | li (c : CoreId) (x y : Fin 16) (imm : BitVec 18)
  /-- SHI: Sterok ALU. -/
  | shi (c : CoreId) (x y : Fin 16) (imm : BitVec 18)
  /-- CMPLTI: Sterok ALU. -/
  | cmplti (c : CoreId) (x y : Fin 16) (imm : BitVec 18)
  /-- CMPEQI: Sterok ALU. -/
  | cmpeqi (c : CoreId) (x y : Fin 16) (imm : BitVec 18)
  /-- ADDP: Sterok ALU. -/
  | addp (c : CoreId) (x y z : Fin 16)
  /-- SUBP: Sterok ALU. -/
  | subp (c : CoreId) (x y z : Fin 16)
  /-- ADDPV: Sterok ALU. -/
  | addpv (c : CoreId) (s : Fin 4) (x y z : Fin 16)
  /-- MOVPV: Sterok ALU. -/
  | movpv (c : CoreId) (x y z : Fin 16)
  /-- MOVVP: Sterok ALU. -/
  | movvp (c : CoreId) (x y z : Fin 16)
  /-- ADDPI: Sterok ALU. -/
  | addpi (c : CoreId) (x y : Fin 16) (imm : BitVec 18)
  /-- LEP: Sterok ALU. -/
  | lep (c : CoreId) (x y : Fin 16) (imm : BitVec 18)
  /-- LB: Sterok memory. -/
  | lb (c : CoreId) (x y : Fin 16) (mode : BitVec 2) (disp : BitVec 16)
  /-- LBU: Sterok memory. -/
  | lbu (c : CoreId) (x y : Fin 16) (mode : BitVec 2) (disp : BitVec 16)
  /-- LH: Sterok memory. -/
  | lh (c : CoreId) (x y : Fin 16) (mode : BitVec 2) (disp : BitVec 16)
  /-- LHU: Sterok memory. -/
  | lhu (c : CoreId) (x y : Fin 16) (mode : BitVec 2) (disp : BitVec 16)
  /-- LW: Sterok memory. -/
  | lw (c : CoreId) (x y : Fin 16) (mode : BitVec 2) (disp : BitVec 16)
  /-- LWU: Sterok memory. -/
  | lwu (c : CoreId) (x y : Fin 16) (mode : BitVec 2) (disp : BitVec 16)
  /-- LD: Sterok memory. -/
  | ld (c : CoreId) (x y : Fin 16) (mode : BitVec 2) (disp : BitVec 16)
  /-- LDP: Sterok memory. -/
  | ldp (c : CoreId) (x y : Fin 16) (mode : BitVec 2) (disp : BitVec 16)
  /-- SB: Sterok memory. -/
  | sb (c : CoreId) (x y : Fin 16) (mode : BitVec 2) (disp : BitVec 16)
  /-- SH: Sterok memory. -/
  | sh (c : CoreId) (x y : Fin 16) (mode : BitVec 2) (disp : BitVec 16)
  /-- SW: Sterok memory. -/
  | sw (c : CoreId) (x y : Fin 16) (mode : BitVec 2) (disp : BitVec 16)
  /-- SD: Sterok memory. -/
  | sd (c : CoreId) (x y : Fin 16) (mode : BitVec 2) (disp : BitVec 16)
  /-- STP: Sterok memory. -/
  | stp (c : CoreId) (x y : Fin 16) (mode : BitVec 2) (disp : BitVec 16)
  /-- BEQ: Sterok control flow. -/
  | beq (c : CoreId) (x y : Fin 16) (off : BitVec 18)
  /-- BNE: Sterok control flow. -/
  | bne (c : CoreId) (x y : Fin 16) (off : BitVec 18)
  /-- BLT: Sterok control flow. -/
  | blt (c : CoreId) (x y : Fin 16) (off : BitVec 18)
  /-- BGE: Sterok control flow. -/
  | bge (c : CoreId) (x y : Fin 16) (off : BitVec 18)
  /-- BLTU: Sterok control flow. -/
  | bltu (c : CoreId) (x y : Fin 16) (off : BitVec 18)
  /-- BGEU: Sterok control flow. -/
  | bgeu (c : CoreId) (x y : Fin 16) (off : BitVec 18)
  /-- DBNZ: Sterok control flow. -/
  | dbnz (c : CoreId) (x y : Fin 16) (off : BitVec 18)
  /-- J: Sterok control flow. -/
  | j (c : CoreId) (off : BitVec 26)
  /-- CALL: Sterok control flow. -/
  | call (c : CoreId) (off : BitVec 26)
  /-- JR: Sterok control flow. -/
  | jr (c : CoreId) (x y z : Fin 16)
  /-- CALLR: Sterok control flow. -/
  | callr (c : CoreId) (x y z : Fin 16)
  /-- NOP: Sterok system. -/
  | nop (c : CoreId) (x : Fin 16) (ct : BitVec 6) (imm : BitVec 10)
  /-- CTRD: Sterok system. -/
  | ctrd (c : CoreId) (x : Fin 16) (ct : BitVec 6) (imm : BitVec 10)
  /-- CTWR: Sterok system. -/
  | ctwr (c : CoreId) (x : Fin 16) (ct : BitVec 6) (imm : BitVec 10)
  /-- CTSET: Sterok system. -/
  | ctset (c : CoreId) (x : Fin 16) (ct : BitVec 6) (imm : BitVec 10)
  /-- CTCLR: Sterok system. -/
  | ctclr (c : CoreId) (x : Fin 16) (ct : BitVec 6) (imm : BitVec 10)
  /-- FENCE: Sterok system. -/
  | fence (c : CoreId) (x : Fin 16) (ct : BitVec 6) (imm : BitVec 10)
  /-- FENCE_I: Sterok system. -/
  | fenceI (c : CoreId) (x : Fin 16) (ct : BitVec 6) (imm : BitVec 10)
  /-- TRAPI: Sterok system. -/
  | trapi (c : CoreId) (x : Fin 16) (ct : BitVec 6) (imm : BitVec 10)
  /-- BREAK: Sterok system. -/
  | brk (c : CoreId) (x : Fin 16) (ct : BitVec 6) (imm : BitVec 10)
  /-- ERET: Sterok system. -/
  | eret (c : CoreId) (x : Fin 16) (ct : BitVec 6) (imm : BitVec 10)
  /-- WFI: Sterok system. -/
  | wfi (c : CoreId) (x : Fin 16) (ct : BitVec 6) (imm : BitVec 10)
  /-- INTERRUPT: Sterok system. -/
  | interrupt (c : CoreId) (line : Nat)
  /-- HALT: Sterok events and atomics. -/
  | halt (c : CoreId) (x : Fin 16) (slot : BitVec 3) (imm : BitVec 16)
  /-- WAIT: Sterok events and atomics. -/
  | wait (c : CoreId) (x : Fin 16) (slot : BitVec 3) (imm : BitVec 16)
  /-- WAIT_M: Sterok events and atomics. -/
  | waitM (c : CoreId) (x : Fin 16) (slot : BitVec 3) (imm : BitVec 16)
  /-- SIGNAL: Sterok events and atomics. -/
  | signal (c : CoreId) (x : Fin 16) (slot : BitVec 3) (imm : BitVec 16)
  /-- MARK: Sterok events and atomics. -/
  | mark (c : CoreId) (x : Fin 16) (slot : BitVec 3) (imm : BitVec 16)
  /-- AMOADD: Sterok events and atomics. -/
  | amoadd (c : CoreId) (x y z : Fin 16)
  /-- AMOSWAP: Sterok events and atomics. -/
  | amoswap (c : CoreId) (x y z : Fin 16)
  /-- AMOAND: Sterok events and atomics. -/
  | amoand (c : CoreId) (x y z : Fin 16)
  /-- AMOOR: Sterok events and atomics. -/
  | amoor (c : CoreId) (x y z : Fin 16)
  /-- CAS: Sterok events and atomics. -/
  | cas (c : CoreId) (x y z : Fin 16)
  /-- MAC: Sterok accumulators. -/
  | mac (c : CoreId) (x y z : Fin 16) (sh : BitVec 7)
  /-- MACU: Sterok accumulators. -/
  | macu (c : CoreId) (x y z : Fin 16) (sh : BitVec 7)
  /-- MSB: Sterok accumulators. -/
  | msb (c : CoreId) (x y z : Fin 16) (sh : BitVec 7)
  /-- ACCADDS: Sterok accumulators. -/
  | accadds (c : CoreId) (x y z : Fin 16) (sh : BitVec 7)
  /-- ACCADDU: Sterok accumulators. -/
  | accaddu (c : CoreId) (x y z : Fin 16) (sh : BitVec 7)
  /-- ACCSUBS: Sterok accumulators. -/
  | accsubs (c : CoreId) (x y z : Fin 16) (sh : BitVec 7)
  /-- ACCCLR: Sterok accumulators. -/
  | accclr (c : CoreId) (x y z : Fin 16) (sh : BitVec 7)
  /-- ACCADD: Sterok accumulators. -/
  | accadd (c : CoreId) (x y z : Fin 16) (sh : BitVec 7)
  /-- RNDS: Sterok accumulators. -/
  | rnds (c : CoreId) (x y z : Fin 16) (sh : BitVec 7)
  /-- RNDU: Sterok accumulators. -/
  | rndu (c : CoreId) (x y z : Fin 16) (sh : BitVec 7)
  /-- FLRS: Sterok accumulators. -/
  | flrs (c : CoreId) (x y z : Fin 16) (sh : BitVec 7)
  /-- FLRU: Sterok accumulators. -/
  | flru (c : CoreId) (x y z : Fin 16) (sh : BitVec 7)
  /-- GEMM_BLOCK: Coprocessor. -/
  | gemmBlock (c : CoreId) (sub : BitVec 6) (dn : Fin 16) (g : Bool)
  /-- ANCHOR: Coprocessor. -/
  | anchor (c : CoreId) (sub : BitVec 6) (dn : Fin 16) (g : Bool)
  /-- VREDUCE: Coprocessor. -/
  | vreduce (c : CoreId) (sub : BitVec 6) (dn : Fin 16) (g : Bool)
  /-- CONVERT: Coprocessor. -/
  | convert (c : CoreId) (sub : BitVec 6) (dn : Fin 16) (g : Bool)
  /-- DIGEST: Coprocessor. -/
  | digest (c : CoreId) (sub : BitVec 6) (dn : Fin 16) (g : Bool)
  /-- CIPHER_SUBMIT: Coprocessor. -/
  | cipherSubmit (c : CoreId) (sub : BitVec 6) (dn : Fin 16) (g : Bool)
  /-- MOVER_TAIL: Movers. -/
  | moverTail (p : Party) (e : Fin 12) (c : Fin 64) (tail : Nat)
  /-- CH_EN_WRITE: Movers. -/
  | chEnWrite (p : Party) (e : Fin 12) (c : Fin 64) (value : Nat)
  /-- CHANNEL_RESET: Movers. -/
  | channelReset (p : Party) (e : Fin 12) (c : Fin 64)
  /-- MOVER_ABORT: Movers. -/
  | moverAbort (p : Party) (e : Fin 12) (c : Fin 64) (written : Nat)
  /-- MOVER_RESUME: Movers. -/
  | moverResume (p : Party) (e : Fin 12) (c : Fin 64)
  /-- DESCRIPTOR_START: Movers. -/
  | descriptorStart (e : Fin 12) (c : Fin 64) (fetchBad : Bool)
  /-- DESCRIPTOR_FINISH: Movers. -/
  | descriptorFinish (e : Fin 12) (c : Fin 64)
  /-- MOVER_READ_ERROR: Movers. -/
  | moverReadError (e : Fin 12) (c : Fin 64) (written : Nat)
  /-- MOVER_WATCHDOG: Movers. -/
  | moverWatchdog (e : Fin 12) (c : Fin 64) (written : Nat)
  /-- STAGING_PARITY: Movers. -/
  | stagingParity (e : Fin 12) (c : Fin 64) (progress : List (Nat × Nat))
  /-- PACKET_SEND: Ahnam delivery. -/
  | packetSend (msgId : Nat)
  /-- PACKET_RECEIVE: Ahnam delivery. -/
  | packetReceive (pkt : Packet)
  /-- ACK_SEND: Ahnam delivery. -/
  | ackSend (dev : Nat)
  /-- ACK_RECEIVE: Ahnam delivery. -/
  | ackReceive (dev : Nat) (entries : List AckEntry)
  /-- RETRANSMIT_TIMEOUT: Ahnam delivery. -/
  | retransmitTimeout (tsn : Nat)
  /-- BUSY_RESEND: Ahnam delivery. -/
  | busyResend (msgId offset : Nat)
  /-- REASSEMBLY_EXPIRY: Ahnam delivery. -/
  | reassemblyExpiry (dev msgId : Nat)
  /-- RECENT_EXPIRY: Ahnam delivery. -/
  | recentExpiry (dev msgId : Nat)
  /-- STREAM_CONTEXT_RELEASE: Ahnam delivery. -/
  | streamContextRelease (key : StreamKey)
  /-- MSG_ID_QUIET_END: Ahnam delivery. -/
  | msgIdQuietEnd
  /-- MESSAGE_DELIVER: Ahnam delivery. -/
  | messageDeliver (dev msgId : Nat)
  /-- FLAG_WRITE: Ahnam delivery. -/
  | flagWrite (dev msgId : Nat)
  /-- HELLO: Ahnam delivery. -/
  | hello (dev verMin verMax serial : Nat)
  /-- HELLO_REPLY: Ahnam delivery. -/
  | helloReply (dev verMin verMax serial : Nat)
  /-- DOMAIN_START: Ahnam delivery. -/
  | domainStart (p : Party)
  /-- PROPOSE_SEND: Ahnam delivery. -/
  | proposeSend
  /-- PROPOSE: Ahnam delivery. -/
  | propose (tag serial ip : Nat)
  /-- WITHDRAW: Ahnam delivery. -/
  | withdraw (tag serial : Nat)
  /-- JOIN: Ahnam delivery. -/
  | join (tag serial ip : Nat)
  /-- PROPOSAL_WINDOW_CLOSE: Ahnam delivery. -/
  | proposalWindowClose
  /-- ROSTER: Ahnam delivery. -/
  | roster (tag serial first : Nat) (entries : List RosterEntry)
  /-- ROSTER_ACK: Ahnam delivery. -/
  | rosterAck (tag serial first : Nat)
  /-- ROSTER_RESEND: Ahnam delivery. -/
  | rosterResend (serial first : Nat)
  /-- QP_SQ_TAIL: Ahnam operations. -/
  | qpSqTail (p : Party) (qp : Fin 4096) (tail : Nat)
  /-- QP_RQ_TAIL: Ahnam operations. -/
  | qpRqTail (p : Party) (qp : Fin 4096) (tail : Nat)
  /-- QP_CQ_HEAD: Ahnam operations. -/
  | qpCqHead (p : Party) (qp : Fin 4096) (head : Nat)
  /-- SEND: Ahnam operations. -/
  | send (qp : Fin 4096)
  /-- WRITE: Ahnam operations. -/
  | write (qp : Fin 4096)
  /-- WRITE_FLAG: Ahnam operations. -/
  | writeFlag (qp : Fin 4096)
  /-- READ: Ahnam operations. -/
  | read (qp : Fin 4096)
  /-- FETCH_ADD64: Ahnam operations. -/
  | fetchAdd64 (qp : Fin 4096)
  /-- CMP_SWAP64: Ahnam operations. -/
  | cmpSwap64 (qp : Fin 4096)
  /-- NAK: Ahnam operations. -/
  | nak (pkt : Packet)
  /-- RESP_TIMEOUT: Ahnam operations. -/
  | respTimeout (msgId : Nat)
  /-- COMPLETION_WRITE: Ahnam operations. -/
  | completionWrite (qp : Fin 4096)
  /-- QP_RESET: Ahnam operations. -/
  | qpReset (p : Party) (qp : Fin 4096)
  /-- QP_READY: Ahnam operations. -/
  | qpReady (p : Party) (qp : Fin 4096)
  /-- QP_ACTIVE: Ahnam operations. -/
  | qpActive (p : Party) (qp : Fin 4096)
  /-- QP_ERROR: Ahnam operations. -/
  | qpError (p : Party) (qp : Fin 4096)
  /-- QP_RESET_DONE: Ahnam operations. -/
  | qpResetDone (qp : Fin 4096)
  /-- REGION_VALIDATE: Ahnam operations. -/
  | regionValidate (p : Party) (i : Nat)
  /-- REGION_INVALIDATE: Ahnam operations. -/
  | regionInvalidate (p : Party) (i : Nat)
  /-- COL_TAIL: Collectives. -/
  | colTail (p : Party) (q : Fin 16) (tail : Nat)
  /-- ALL_REDUCE: Collectives. -/
  | allReduce (q : Fin 16)
  /-- REDUCE_SCATTER: Collectives. -/
  | reduceScatter (q : Fin 16)
  /-- ALL_GATHER: Collectives. -/
  | allGather (q : Fin 16)
  /-- BROADCAST: Collectives. -/
  | broadcast (q : Fin 16)
  /-- ALL_TO_ALL: Collectives. -/
  | allToAll (q : Fin 16)
  /-- BARRIER: Collectives. -/
  | barrier (q : Fin 16)
  /-- COLLECTIVE_END: Collectives. -/
  | collectiveEnd (q : Fin 16)
  /-- COLL_SEGMENT: Collectives. -/
  | collSegment (seg : Segment)
  /-- COLL_ABORT: Collectives. -/
  | collAbort (group seq rank : Nat) (byStop : Bool)
  /-- COL_QP_RESTART: Collectives. -/
  | colQpRestart
  /-- GROUP_VALIDATE: Collectives. -/
  | groupValidate (p : Party) (g : Fin 4096)
  /-- GROUP_INVALIDATE: Collectives. -/
  | groupInvalidate (p : Party) (g : Fin 4096)
  /-- STOP_ARM: Collectives. -/
  | stopArm (p : Party) (on : Bool)
  /-- STOP_NOW: Collectives. -/
  | stopNow (p : Party)
  /-- COL_RESUME: Collectives. -/
  | colResume (p : Party)
  /-- REQUEST_NEW: Herd. -/
  | requestNew (o : Origin)
  /-- CANCEL: Herd. -/
  | cancel (o : Origin)
  /-- INTAKE_DOORBELL: Herd. -/
  | intakeDoorbell (p : Party) (q : Fin 4096) (reply : Bool) (value : Nat)
  /-- INTAKE_RESET: Herd. -/
  | intakeReset (p : Party) (q : Fin 4096)
  /-- INTAKE_ACTIVE: Herd. -/
  | intakeActive (p : Party) (q : Fin 4096)
  /-- INTAKE_DRAIN: Herd. -/
  | intakeDrain (p : Party) (q : Fin 4096)
  /-- POLICY_VALIDATE: Herd. -/
  | policyValidate (p : Party) (m : Fin 4096)
  /-- POLICY_INVALIDATE: Herd. -/
  | policyInvalidate (p : Party) (m : Fin 4096)
  /-- CONTEXT_FETCH: Herd. -/
  | contextFetch (ctx : Nat)
  /-- VERDICT: Herd. -/
  | verdict (pool : Fin 32) (req kind model info : Nat)
  /-- SIDE_TIMEOUT: Herd. -/
  | sideTimeout (ctx : Nat)
  /-- BATCH_TIMER: Herd. -/
  | batchTimer (m : Fin 4096)
  /-- DEADLINE_PASS: Herd. -/
  | deadlinePass (ctx : Nat)
  /-- TOKENS: Herd. -/
  | tokens (a : Fin 8)
  /-- FINISHED: Herd. -/
  | finished (a : Fin 8)
  /-- FAILED: Herd. -/
  | failed (a : Fin 8) (poisonTicket : Bool)
  /-- EVICTED: Herd. -/
  | evicted (a : Fin 8)
  /-- TICKET_DONE: Herd. -/
  | ticketDone (a : Fin 8)
  /-- DRAFT_REQ: Herd. -/
  | draftReq (a : Fin 8)
  /-- ACC_TIMEOUT: Herd. -/
  | accTimeout (a : Fin 8)
  /-- FLUSH_TIMER: Herd. -/
  | flushTimer (ctx : Nat)
  /-- ACC_EN: Herd. -/
  | accEn (p : Party) (a : Fin 8) (on : Bool)
  /-- DRAIN_FINISH: Herd. -/
  | drainFinish (p : Party) (a : Fin 8)
  /-- DRAIN_MOVE: Herd. -/
  | drainMove (p : Party) (a : Fin 8)
  /-- ACC_RESUME: Herd. -/
  | accResume (p : Party) (a : Fin 8)
  /-- IMAGE_VALIDATE: Vat and KV pager. -/
  | imageValidate (p : Party) (i : Fin 4096)
  /-- IMAGE_INVALIDATE: Vat and KV pager. -/
  | imageInvalidate (p : Party) (i : Fin 4096)
  /-- FILL: Vat and KV pager. -/
  | fill (p : Party) (i : Fin 4096)
  /-- FILL_COMPLETE: Vat and KV pager. -/
  | fillComplete (ok : Bool)
  /-- IMAGE_RELEASE: Vat and KV pager. -/
  | imageRelease (p : Party) (i : Fin 4096)
  /-- MODEL_RELEASE_ISSUE: Vat and KV pager. -/
  | modelReleaseIssue (i : Fin 4096) (a : Fin 8)
  /-- LOAD_START: Vat and KV pager. -/
  | loadStart (i : Fin 4096)
  /-- LOAD_COMPLETE: Vat and KV pager. -/
  | loadComplete (i : Fin 4096)
  /-- SEQ_CREATE: Vat and KV pager. -/
  | seqCreate (p : Party) (model : Nat)
  /-- SEQ_FREE: Vat and KV pager. -/
  | seqFree (p : Party)
  /-- PAGE_MOVE_DONE: Vat and KV pager. -/
  | pageMoveDone (d : Nat) (res : MoveResult)
  /-- TIER_DEMOTE: Vat and KV pager. -/
  | tierDemote (t : Tier) (a : Fin 8)
  /-- LBY_START: Layby. -/
  | lbyStart (p : Party)
  /-- LBY_RESTORE: Layby. -/
  | lbyRestore (p : Party)
  /-- RESTORE_COMPLETE: Layby. -/
  | restoreComplete (epoch : Option Nat) (placed : List LbyPlaced) (conflicts : List LbyConflict) (failed : Bool)
  /-- END_JOB: Layby. -/
  | endJob (p : Party)
  /-- RECLAIM_GO: Layby. -/
  | reclaimGo (p : Party)
  /-- RECLAIM: Layby. -/
  | reclaim (m : LbyMsg)
  /-- START_REPORT: Layby. -/
  | startReport (m : LbyMsg)
  /-- PARTNER: Layby. -/
  | partner (m : LbyMsg)
  /-- HALT_QUERY: Layby. -/
  | haltQuery (m : LbyMsg)
  /-- HALT_REPORT: Layby. -/
  | haltReport (m : LbyMsg)
  /-- HALT_AT: Layby. -/
  | haltAt (m : LbyMsg)
  /-- HALT_NOW: Layby. -/
  | haltNow (m : LbyMsg)
  /-- DIGEST_MSG: Layby. -/
  | digestMsg (m : LbyMsg)
  /-- WRITE_TOO: Layby. -/
  | writeToo (m : LbyMsg)
  /-- HELD_OK: Layby. -/
  | heldOk (m : LbyMsg)
  /-- PREPARED: Layby. -/
  | prepared (m : LbyMsg)
  /-- COMMIT: Layby. -/
  | commit (m : LbyMsg)
  /-- ABORT_EPOCH: Layby. -/
  | abortEpoch (m : LbyMsg)
  /-- DRAINED: Layby. -/
  | drained (m : LbyMsg)
  /-- DEPART: Layby. -/
  | depart (m : LbyMsg)
  /-- DECISION_QUERY: Layby. -/
  | decisionQuery (m : LbyMsg)
  /-- STEP_MARK: Layby. -/
  | stepMark (a : Fin 8) (step : Nat) (ckpt : Bool)
  /-- CAPTURE_END: Layby. -/
  | captureEnd (poisoned : Bool) (missed : List Nat)
  /-- EPOCH_TIMEOUT: Layby. -/
  | epochTimeout
  /-- DECISION_TIMEOUT: Layby. -/
  | decisionTimeout
  /-- STOP_WAIT_EXPIRY: Layby. -/
  | stopWaitExpiry
  /-- HALT_QUERY_TIMEOUT: Layby. -/
  | haltQueryTimeout
  /-- DRAIN_DURABLE: Layby. -/
  | drainDurable
  /-- DRAIN_RETRY: Layby. -/
  | drainRetry
  /-- HANDBACK_ABANDON: Layby. -/
  | handbackAbandon
  /-- CLAIM: Waymark. -/
  | claim (p : Party)
  /-- CLEAR: Waymark. -/
  | clear (p : Party)
  /-- RELEASE: Waymark. -/
  | release (p : Party)
  /-- CTX_CMD_RESERVED: Waymark. -/
  | ctxCmdReserved (p : Party)
  /-- FRAME_RECEIVE: Separator. -/
  | frameReceive (f : Frame)
  /-- RECIRCULATE_PASS: Separator. -/
  | recirculatePass (id : Nat)
  /-- RX_RING_EMPTY_DISCARD: Separator. -/
  | rxRingEmptyDiscard (id : Nat)
  /-- RX_WRITEBACK: Separator. -/
  | rxWriteback (q : Fin 8192)
  /-- RX_TAIL: Separator. -/
  | rxTail (p : Party) (q : Fin 8192) (tail : Nat)
  /-- RXQ_RESET: Separator. -/
  | rxqReset (p : Party) (q : Fin 8192)
  /-- RXQ_ACTIVE: Separator. -/
  | rxqActive (p : Party) (q : Fin 8192)
  /-- STG_COMMIT: Separator. -/
  | stgCommit (p : Party) (value : Nat)
  /-- STG_INVALIDATE: Separator. -/
  | stgInvalidate (p : Party) (value : Nat)
  /-- SWAP: Separator. -/
  | swap (p : Party)
  /-- SWAP_DONE: Separator. -/
  | swapDone
  /-- COPY: Separator. -/
  | copy (p : Party)
  /-- TABLE_ENTRY_WRITE: Separator. -/
  | tableEntryWrite (p : Party) (t : Fin 256) (j : Fin 512) (value : Nat)
  /-- RULE_PARITY: Separator. -/
  | ruleParity (r : Fin 8192)
  /-- PFC_FRAME: Separator. -/
  | pfcFrame (port : Fin 16) (prios : Nat) (xoff : Nat)
  /-- ETH_LINK_DOWN: Separator. -/
  | ethLinkDown (port : Fin 16)
  /-- Q_LOAD: Toll. -/
  | qLoad (p : Party)
  /-- Q_COMMIT: Toll. -/
  | qCommit (p : Party)
  /-- SHP_LOAD: Toll. -/
  | shpLoad (p : Party)
  /-- SHP_COMMIT: Toll. -/
  | shpCommit (p : Party)
  /-- FRAME_TRANSMIT_START: Toll. -/
  | frameTransmitStart (port : Fin 16)
  /-- SHAPER_ADMIT: Toll. -/
  | shaperAdmit (port : Fin 16) (q : Fin 64)
  /-- TX_WRITEBACK: Toll. -/
  | txWriteback (port : Fin 16) (poisoned : Bool)
  /-- TX_TAIL: Toll. -/
  | txTail (p : Party) (q : Fin 8192) (tail : Nat)
  /-- TXQ_RESET: Toll. -/
  | txqReset (p : Party) (q : Fin 8192)
  /-- TXQ_ACTIVE: Toll. -/
  | txqActive (p : Party) (q : Fin 8192)
  /-- PAIL_SQ_TAIL: Pail. -/
  | pailSqTail (p : Party) (q : Fin 4096) (tail : Nat)
  /-- PAIL_CQ_HEAD: Pail. -/
  | pailCqHead (p : Party) (q : Fin 4096) (head : Nat)
  /-- PAIL_READ: Pail. -/
  | pailRead (q : Fin 4096)
  /-- PAIL_WRITE: Pail. -/
  | pailWrite (q : Fin 4096)
  /-- FLUSH: Pail. -/
  | flush (q : Fin 4096)
  /-- TRIM: Pail. -/
  | trim (q : Fin 4096)
  /-- VERIFY: Pail. -/
  | verify (q : Fin 4096)
  /-- IDENTIFY: Pail. -/
  | identify (q : Fin 4096)
  /-- SELFTEST_SHORT: Pail. -/
  | selftestShort (q : Fin 4096)
  /-- SELFTEST_EXTENDED: Pail. -/
  | selftestExtended (q : Fin 4096)
  /-- SET_POWER: Pail. -/
  | setPower (q : Fin 4096)
  /-- SEGMENT_DONE: Pail. -/
  | segmentDone (q : Fin 4096) (tag : Fin 32) (res : SegResult)
  /-- SELFTEST_RESUME: Pail. -/
  | selftestResume (v : Fin 64)
  /-- PS_ENTRY: Pail. -/
  | psEntry
  /-- SSD_FAILED: Pail. -/
  | ssdFailed (n : Fin 8)
  /-- REBUILD_GO: Pail. -/
  | rebuildGo (p : Party) (n : Fin 8)
  /-- REBUILD_DONE: Pail. -/
  | rebuildDone
  /-- PQ_RESET: Pail. -/
  | pqReset (p : Party) (q : Fin 4096)
  /-- PQ_ACTIVE: Pail. -/
  | pqActive (p : Party) (q : Fin 4096)
  /-- VOLUME_VALIDATE: Pail. -/
  | volumeValidate (p : Party) (v : Fin 64)
  /-- KEY_LOAD: Cipher. -/
  | keyLoad (p : Party) (n : Fin 256) (value : Nat)
  /-- KEY_ERASE: Cipher. -/
  | keyErase (p : Party) (n : Fin 256) (value : Nat)
  /-- KEY_OWNER_WRITE: Cipher. -/
  | keyOwnerWrite (p : Party) (n : Fin 256) (owner : Nat)
  /-- CIPHER_ALARM: Cipher. -/
  | cipherAlarm (src : AlarmSource)
  /-- ERASE_ALL: Cipher. -/
  | eraseAll (p : Party)
  /-- ALARM_CLEAR: Cipher. -/
  | alarmClear (p : Party) (quiet : Bool)
  /-- APERTURE_ACCESS: PCI Express ports. -/
  | apertureAccess (h : Fin 2) (off : Nat) (wr : Option (List Nat)) (len : Nat) (poisoned : Bool)
  /-- ACCEL_REQUEST: PCI Express ports. -/
  | accelRequest (a : Fin 8) (op : AccOp) (addr : Nat)
  /-- COMPLETION_TIMEOUT: PCI Express ports. -/
  | completionTimeout (page : Nat) (chan : Option (Fin 12 × Fin 64)) (written : Nat)
  /-- FLR: PCI Express ports. -/
  | flr (h : Fin 2) (f : Fin 4)
  /-- FLR_COMPLETE: PCI Express ports. -/
  | flrComplete (h : Fin 2) (f : Fin 4)
  /-- HOST_RESET: PCI Express ports. -/
  | hostReset (h : Fin 2) (k : HostResetKind)
  /-- LINK_UP: PCI Express ports. -/
  | linkUp (page : Nat) (speed width : Nat)
  /-- SPUR_LINK_DOWN: PCI Express ports. -/
  | spurLinkDown (page : Nat)
  /-- BIND_HOST_WRITE: PCI Express ports. -/
  | bindHostWrite (p : Party) (a : Fin 8) (value : Nat)
  /-- D_STATE_CHANGE: PCI Express ports. -/
  | dStateChange (h : Fin 2) (f : Fin 4) (d : Fin 3)
  /-- LINK_WAKE: PCI Express ports. -/
  | linkWake (page : Nat)
  /-- STALL_CREATE: Stalls. -/
  | stallCreate (p : Party) (s : Fin 2048)
  /-- STALL_REMOVE: Stalls. -/
  | stallRemove (p : Party) (s : Fin 2048)
  /-- STALL_RESET: Stalls. -/
  | stallReset (p : Party) (s : Fin 2048)
  /-- LOG_START: Stalls. -/
  | logStart (p : Party) (s : Fin 2048)
  /-- LOG_STOP: Stalls. -/
  | logStop (p : Party) (s : Fin 2048)
  /-- FREEZE: Stalls. -/
  | freeze (p : Party) (s : Fin 2048)
  /-- FREEZE_COMPLETE: Stalls. -/
  | freezeComplete (s : Fin 2048)
  /-- FREEZE_TIMEOUT: Stalls. -/
  | freezeTimeout (s : Fin 2048)
  /-- SAVE: Stalls. -/
  | save (p : Party) (s : Fin 2048)
  /-- STALL_RESTORE: Stalls. -/
  | stallRestore (p : Party) (s : Fin 2048)
  /-- THAW: Stalls. -/
  | thaw (p : Party) (s : Fin 2048)
  /-- SET_LIMITS: Stalls. -/
  | setLimits (p : Party) (s : Fin 2048)
  /-- LOAD_SERVICE: Stalls. -/
  | loadService (p : Party) (s : Nat)
  /-- STOP_SERVICE: Stalls. -/
  | stopService (p : Party) (s : Nat)
  /-- STALL_DOORBELL: Stalls. -/
  | stallDoorbell (h : Fin 2) (s : Fin 2048) (f off value : Nat)
  /-- WRITE_CONTEXT: Stalls. -/
  | writeContext (s : Fin 2048)
  /-- QUEUE_CMD: Stalls. -/
  | queueCmd (s : Fin 2048)
  /-- CTL_REGION: Stalls. -/
  | ctlRegion (s : Fin 2048)
  /-- CTL_RULE: Stalls. -/
  | ctlRule (s : Fin 2048)
  /-- CTL_TABLE: Stalls. -/
  | ctlTable (s : Fin 2048)
  /-- CTL_KEY: Stalls. -/
  | ctlKey (s : Fin 2048)
  /-- CTL_WMK: Stalls. -/
  | ctlWmk (s : Fin 2048)
  /-- CTL_POOL: Stalls. -/
  | ctlPool (s : Fin 2048)
  /-- POWER_ON: Boot and firmware. -/
  | powerOn
  /-- BOOT_READY: Boot and firmware. -/
  | bootReady
  /-- LOADER_IMAGE: Boot and firmware. -/
  | loaderImage (img : List Nat)
  /-- STEWARD_WDOG: Boot and firmware. -/
  | stewardWdog
  /-- STAGE: Boot and firmware. -/
  | stage (p : Party) (readErr : Bool)
  /-- STAGE_DONE: Boot and firmware. -/
  | stageDone (flashErr : Bool)
  /-- ACTIVATE_LIVE: Boot and firmware. -/
  | activateLive (p : Party)
  /-- HANDOVER_TAKEOVER: Boot and firmware. -/
  | handoverTakeover (us : Nat)
  /-- HANDOVER_ROLLBACK: Boot and firmware. -/
  | handoverRollback (us : Nat)
  /-- ACTIVATE_RESET: Boot and firmware. -/
  | activateReset (p : Party)
  /-- CONFIRM: Boot and firmware. -/
  | confirm (p : Party)
  /-- COMMIT_SVN: Boot and firmware. -/
  | commitSvn (p : Party)
  /-- REVOKE_KEY: Boot and firmware. -/
  | revokeKey (p : Party) (slot : Fin 4)
  /-- PLL_LOCK: Power and thermal. -/
  | pllLock (i : Fin 4)
  /-- PLL_LOCK_TIMEOUT: Power and thermal. -/
  | pllLockTimeout (i : Fin 4)
  /-- PLL_STOP: Power and thermal. -/
  | pllStop (i : Fin 4)
  /-- WAKE_GRANT: Power and thermal. -/
  | wakeGrant
  /-- WAKE_COMPLETE: Power and thermal. -/
  | wakeComplete (d : Fin 431)
  /-- WAKE_TIMEOUT: Power and thermal. -/
  | wakeTimeout (d : Fin 431)
  /-- SLEEP_ENTRY: Power and thermal. -/
  | sleepEntry (page : Nat)
  /-- CLUSTER_SLEEP: Power and thermal. -/
  | clusterSleep (c : Fin 21)
  /-- WAYSIDE_SLEEP: Power and thermal. -/
  | waysideSleep (w : Fin 24)
  /-- THROTTLE_TEMP_CHECK: Power and thermal. -/
  | throttleTempCheck
  /-- THROTTLE_POWER_CHECK: Power and thermal. -/
  | throttlePowerCheck (avg50 : Nat)
  /-- STEP_CHANGE: Power and thermal. -/
  | stepChange
  /-- SENSOR_FAIL: Power and thermal. -/
  | sensorFail (i : Fin 76)
  /-- THERMAL_TRIP: Power and thermal. -/
  | thermalTrip (i : Fin 64)
  /-- EDGE_FAULT: Power and thermal. -/
  | edgeFault (i : Fin 4)
  /-- THERMAL_LOOP: Power and thermal. -/
  | thermalLoop (n so w f : Nat)
  /-- POWER_LOOP: Power and thermal. -/
  | powerLoop (n so w : Nat)
  /-- VOLTAGE_LOOP: Power and thermal. -/
  | voltageLoop (setpoints : List Nat)
  /-- FABRIC_PARITY: Faults and resets. -/
  | fabricParity
  /-- D2D_FAIL: Faults and resets. -/
  | d2dFail
  /-- FAULT_PULSE_END: Faults and resets. -/
  | faultPulseEnd
  /-- FAULT_HOLD_WRITE: Faults and resets. -/
  | faultHoldWrite (p : Party) (on : Bool)
  /-- RST_CHANNEL: Faults and resets. -/
  | rstChannel (p : Party) (target written : Nat)
  /-- RST_STALL: Faults and resets. -/
  | rstStall (p : Party) (target : Nat)
  /-- RST_CORE: Faults and resets. -/
  | rstCore (p : Party) (target : Nat)
  /-- RST_ENGINE: Faults and resets. -/
  | rstEngine (p : Party) (target : Nat)
  /-- RST_CLUSTER: Faults and resets. -/
  | rstCluster (p : Party) (target : Nat)
  /-- RST_PORT: Faults and resets. -/
  | rstPort (p : Party) (target : Nat)
  /-- RST_CHIP: Faults and resets. -/
  | rstChip (p : Party)
  /-- CLUSTER_PARITY: Faults and resets. -/
  | clusterParity (c : Fin 21)
  /-- ENG_WDOG: Faults and resets. -/
  | engWdog (page : Nat)
  /-- AUTO_RECOVERY_END: Faults and resets. -/
  | autoRecoveryEnd (page : Nat)
  /-- MEMORY_READ_ERROR: Faults and resets. -/
  | memoryReadError (addr : Nat) (k : MemErr)
  /-- STEP_NS_WRITE: Management. -/
  | stepNsWrite (p : Party) (value : Nat)
  /-- TIME_STEP_APPLY: Management. -/
  | timeStepApply
  /-- PTP_SYNC: Management. -/
  | ptpSync (trim : Nat) (err : Nat) (locked : Bool)
  /-- PPS_EDGE: Management. -/
  | ppsEdge (time : Nat) (trim : Nat) (locked : Bool)
  /-- TIME_SOURCE_LOST: Management. -/
  | timeSourceLost
  /-- EXPORT_DATAGRAM: Management. -/
  | exportDatagram
  /-- SENSORS_SAMPLE: Management. -/
  | sensorsSample
  /-- COUNTERS_SAMPLE: Management. -/
  | countersSample
  /-- PUB_POLL: Management. -/
  | pubPoll (bad : List Nat)
  /-- SET_ENDPOINT_ID: Management. -/
  | setEndpointId (ep : Fin 3) (eid : Nat)
  /-- GET_TID: Management. -/
  | getTid (ep : Fin 3)
  /-- SET_TID: Management. -/
  | setTid (ep : Fin 3) (tid : Nat)
  /-- GET_PLDM_VERSION: Management. -/
  | getPldmVersion (ep : Fin 3) (typ : Nat)
  /-- GET_PLDM_TYPES: Management. -/
  | getPldmTypes (ep : Fin 3)
  /-- GET_PLDM_COMMANDS: Management. -/
  | getPldmCommands (ep : Fin 3) (typ : Nat)
  /-- GET_PDR: Management. -/
  | getPdr (ep : Fin 3) (handle : Nat)
  /-- GET_SENSOR_READING: Management. -/
  | getSensorReading (ep : Fin 3) (sensor : Nat)
  /-- GET_STATE_SENSOR_READINGS: Management. -/
  | getStateSensorReadings (ep : Fin 3) (sensor : Nat)
  /-- SET_EVENT_RECEIVER: Management. -/
  | setEventReceiver (ep : Fin 3) (eid : Nat)
  /-- MGMT_DATAGRAM: Management. -/
  | mgmtDatagram (src : Nat) (m : Option LbyMsg)
  /-- ICMP_ECHO: Management. -/
  | icmpEcho (src : Nat) (data : List Nat)
  /-- UART_RX_CHAR: Management. -/
  | uartRxChar (data : Nat) (stopLow lineLow parityBad : Bool)
  /-- UART_RX_POP: Management. -/
  | uartRxPop (p : Party)
  /-- UART_TX: Management. -/
  | uartTx (p : Party) (value : Nat)
  /-- UNLOCK_CHALLENGE: Management. -/
  | unlockChallenge
  /-- UNLOCK_RESPONSE: Management. -/
  | unlockResponse (tok : Token)
  /-- EXTEST: Management. -/
  | extest
  /-- BYPASS: Management. -/
  | bypass
  /-- IDCODE: Management. -/
  | idcode
  /-- SAMPLE_PRELOAD: Management. -/
  | samplePreload
  /-- PWR_EN_RISE: Module. -/
  | pwrEnRise
  /-- POWER_OFF: Module. -/
  | powerOff
  /-- COOLANT_LOST: Module. -/
  | coolantLost
  /-- COOLANT_RESTORE: Module. -/
  | coolantRestore
  /-- INPUT_V_LOW: Module. -/
  | inputVLow (mv : Nat)
  /-- MILESTONE_EDGE: Late rows. -/
  | milestoneEdge
  /-- SENSOR_SAMPLE: Late rows. -/
  | sensorSample (temps : List (Nat × Int × Bool)) (volts amps avg10 : Nat)
  /-- SELFTEST_COMPLETE: Late rows. -/
  | selftestComplete (v : Fin 64) (checked : Nat) (bad : List (Nat × Nat))
  /-- SSD_FLUSH_COMPLETE: Late rows. -/
  | ssdFlushComplete (v : Fin 64) (n : Fin 8)
  /-- ETH_LINK_UP: Late rows. -/
  | ethLinkUp (port : Fin 16)
  /-- HOST_LINK_UP: Late rows. -/
  | hostLinkUp (h : Fin 2) (speed width : Nat)
  /-- MGMT_LINK_DOWN: Late rows. -/
  | mgmtLinkDown
  /-- COOLANT_OK_RISE: Late rows. -/
  | coolantOkRise
  /-- PWR_EN_HOLD_END: Late rows. -/
  | pwrEnHoldEnd
  /-- INPUT_POWER_UP: Late rows. -/
  | inputPowerUp
deriving DecidableEq, Repr

end Sys2Proof
end

