-- ==== Sys2Proof/Decode.lean ====
section
/-! DEFINITION. The command that a word spells. The opcode table gives none of its rows bits: the block takes register accesses and events, not encoded commands, so no word spells one. (The instruction words of the Sterok cores are decoded by R199's fields; the table lists those instructions as commands of their own.) -/

namespace Sys2Proof

/-- The command that a word of `nbits` bits spells by the table's bits: the table gives no row bits, so none. -/
def decodeTableWord (_nbits _w : Nat) : Option Instr := none

end Sys2Proof
end

