-- ==== Sys2Proof/Machine/Map.lean ====
section
/-! DEFINITION. Operations on the sparse maps: read, write (which keeps the canonical form), and whole-range copies and clears. Their laws hold of every list, canonical or not. -/

namespace Sys2Proof.Machine

/-- The value at key `k`: of its first entry; an unlisted key reads `d`. -/
def mapGet {α : Type} (d : α) : SMap α → Nat → α
  | [], _ => d
  | (a, v) :: t, k => if a = k then v else mapGet d t k

/-- The map without key `k`. -/
def mapDrop {α : Type} (m : SMap α) (k : Nat) : SMap α := m.filter fun e => decide (e.1 ≠ k)

/-- An entry put before the first of a greater key. -/
def mapInsert {α : Type} : SMap α → Nat → α → SMap α
  | [], k, v => [(k, v)]
  | (a, w) :: t, k, v => if k < a then (k, v) :: (a, w) :: t else (a, w) :: mapInsert t k v

/-- The map with value `v` at key `k`; writing the default removes the entry. -/
def mapPut {α : Type} [DecidableEq α] (d : α) (m : SMap α) (k : Nat) (v : α) : SMap α :=
  if v = d then mapDrop m k else mapInsert (mapDrop m k) k v

/-- Every listed key lies at or above `lo`, the keys rise strictly, and no entry equals the default. -/
def mapWfFrom {α : Type} [DecidableEq α] (d : α) : Nat → SMap α → Bool
  | _, [] => true
  | lo, (a, v) :: t => decide (lo ≤ a) && !decide (v = d) && mapWfFrom d (a + 1) t

/-- The canonical form of a sparse map. -/
def mapWf {α : Type} [DecidableEq α] (d : α) (m : SMap α) : Bool := mapWfFrom d 0 m

/-- The keys rise strictly from `lo` up. -/
def mapRises {α : Type} : Nat → SMap α → Bool
  | _, [] => true
  | lo, (a, _) :: t => decide (lo ≤ a) && mapRises (a + 1) t

/-- The entries whose keys lie in `[lo, hi)`. -/
def mapSlice {α : Type} (lo hi : Nat) (m : SMap α) : SMap α :=
  m.filter fun e => decide (lo ≤ e.1) && decide (e.1 < hi)

/-- The entries whose keys lie below `lo`. -/
def mapBelow {α : Type} (lo : Nat) (m : SMap α) : SMap α := m.filter fun e => decide (e.1 < lo)

/-- The entries whose keys lie at or above `hi`. -/
def mapAbove {α : Type} (hi : Nat) (m : SMap α) : SMap α := m.filter fun e => decide (hi ≤ e.1)

/-- Every key in `[lo, hi)` set back to the default. -/
def mapClear {α : Type} (lo hi : Nat) (m : SMap α) : SMap α := mapBelow lo m ++ mapAbove (max lo hi) m

/-- The entries of `[lo, hi)`, moved so that `lo` comes to lie at `dst`. -/
def mapShift {α : Type} (lo hi dst : Nat) (m : SMap α) : SMap α :=
  (mapSlice lo hi m).map fun e => (e.1 - lo + dst, e.2)

/-- `n` keys from `src` copied to `dst` (a key the source does not list is cleared at the destination). -/
def mapCopy {α : Type} (src dst n : Nat) (m : SMap α) : SMap α :=
  mapBelow dst m ++ mapShift src (src + n) dst m ++ mapAbove (dst + n) m

/-- The run of values `vs` from key `k` up, without the entries that equal the default. -/
def mapRun {α : Type} [DecidableEq α] (d : α) : Nat → List α → SMap α
  | _, [] => []
  | k, v :: r => if v = d then mapRun d (k + 1) r else (k, v) :: mapRun d (k + 1) r

/-- The map with the run of values `vs` written from key `k` up. -/
def mapPutRun {α : Type} [DecidableEq α] (d : α) (m : SMap α) (k : Nat) (vs : List α) : SMap α :=
  mapBelow k m ++ mapRun d k vs ++ mapAbove (k + vs.length) m

/-- The values of `n` keys from `k` up, read off rising entries at or above `k` in one pass. -/
def mapWalk {α : Type} (d : α) : Nat → Nat → SMap α → List α
  | _, 0, _ => []
  | k, n + 1, (a, v) :: t => if a = k then v :: mapWalk d (k + 1) n t else d :: mapWalk d (k + 1) n ((a, v) :: t)
  | k, n + 1, [] => d :: mapWalk d (k + 1) n []

/-- The values of `n` keys from `k` up. -/
def mapRead {α : Type} (d : α) (m : SMap α) (k n : Nat) : List α :=
  let s := mapSlice k (k + n) m
  if mapRises k s then mapWalk d k n s else (List.range n).map fun i => mapGet d s (k + i)

/-- A rising list of keys held as a set: membership. -/
def setHas (s : List Nat) (k : Nat) : Bool := s.elem k

/-- The set with `k` in it, keys rising. -/
def setAdd : List Nat → Nat → List Nat
  | [], k => [k]
  | a :: t, k => if k < a then k :: a :: t else if k = a then a :: t else a :: setAdd t k

/-- The set without `k`. -/
def setDel (s : List Nat) (k : Nat) : List Nat := s.filter fun a => decide (a ≠ k)

/-- The set without the keys in `[lo, hi)`. -/
def setClear (lo hi : Nat) (s : List Nat) : List Nat := s.filter fun a => decide (a < lo ∨ hi ≤ a)

end Sys2Proof.Machine
end

