-- ==== Sys2Proof/Config.lean ====
section
/-! DEFINITION. What one part fixes, and the free values: opaque constants that no proof can see into. -/

namespace Sys2Proof.Machine

/-- The part modelled is the QV960-LC320 (R2): 320 Churn cores enabled at shipment. DESIGN CHOICE, log entry 3. -/
def Config.enabledCores : Nat := 320

/-- The spare cores at shipment (R184: 16 cores are marked, and every marked core is a spare). Which cores they are the
spec leaves to the part. DESIGN CHOICE, log entry 3: the cores of cluster 20. -/
def Config.spareAtReset (core : Nat) : Bool := decide (320 ≤ core) && decide (core < 336)

/-- A value the spec leaves open. The `n`-th use reads `freeValue n`; `Chip.free` counts the uses. Log entry 1. -/
opaque Config.freeValue : Nat → Word

/-- The set of the destination cache that a device ID hashes to (R279); the hash is not stated. Log entry 24. -/
opaque Config.deviceHash : Nat → Nat

/-- The capacity in bytes of the SSD in slot `n`, and whether it has the LBA format of 4,096 + 8 bytes (R634, R665); the
SSDs lie outside the device. Log entry 28. -/
opaque Config.ssdBytes : Nat → Nat
opaque Config.ssdFormatOk : Nat → Bool

/-- The SHA-384 hash that OTP key slot `n` holds (R763). Log entry 4. -/
opaque Config.keyHash : Nat → Nat

/-- The bytes of an unlock token that its signature covers, from serial, nonce, scope and key slot (R869); the layout of
"those fields" is not stated. Log entry 38. -/
opaque Config.tokenBytes : Nat → Nat → Nat → Nat → List Nat

/-- What the management standards leave to the part: platform descriptor record `n`, the version of a PLDM type, the JTAG
identification code (R858, R868). Log entry 39. -/
opaque Config.pdr : Nat → List Nat
opaque Config.pldmVersion : Nat → Nat
opaque Config.idcode : Nat

/-- The handover record version of the firmware of a version (R778, R782). Log entry 41. -/
opaque Config.handoverVersion : Nat → Nat

end Sys2Proof.Machine
end

