-- ==== Sys2Proof/Machine/Bits.lean ====
section
/-! DEFINITION. Bit fields, sign extension and byte order: the helpers every meaning reads fields of registers and of memory words with. -/

namespace Sys2Proof.Machine

/-- Bits `[hi:lo]` of `v` (chapter 00, bit numbering). -/
def bits (v hi lo : Nat) : Nat := (v / 2 ^ lo) % 2 ^ (hi + 1 - lo)

/-- Bit `n` of `v`. -/
def bit (v n : Nat) : Bool := v.testBit n

/-- 1 for true, 0 for false. -/
def b2n (b : Bool) : Nat := if b then 1 else 0

/-- `v` with bits `[lo + w - 1 : lo]` replaced by the low `w` bits of `x`. -/
def setBits (v lo w x : Nat) : Nat :=
  v % 2 ^ lo + (x % 2 ^ w) * 2 ^ lo + (v / 2 ^ (lo + w)) * 2 ^ (lo + w)

/-- The signed value of the low `w` bits of `v`. -/
def toSigned (w v : Nat) : Int :=
  let u := v % 2 ^ w
  if u < 2 ^ (w - 1) then (u : Int) else (u : Int) - (2 ^ w : Nat)

/-- The low `w` bits of a signed value. -/
def ofSigned (w : Nat) (v : Int) : Nat := (v % ((2 ^ w : Nat) : Int)).toNat

/-- The `n` bytes of `v`, least significant first (R7). -/
def leBytes : Nat → Nat → List Nat
  | 0, _ => []
  | n + 1, v => v % 256 :: leBytes n (v / 256)

/-- The number whose bytes, least significant first, are the list (R7). -/
def leNat : List Nat → Nat
  | [] => 0
  | b :: t => b % 256 + 256 * leNat t

/-- The largest multiple of `a` not above `v`. -/
def alignDown (v a : Nat) : Nat := v / a * a

/-- The smallest multiple of `a` not below `v`. -/
def alignUp (v a : Nat) : Nat := (v + a - 1) / a * a

/-- Division rounded up. -/
def ceilDiv (v a : Nat) : Nat := (v + a - 1) / a

/-- `[lo, lo + n)` meets `[lo', lo' + n')`. -/
def overlaps (lo n lo' n' : Nat) : Bool := decide (lo < lo' + n') && decide (lo' < lo + n)

/-- Saturating increment of a counter whose greatest value is `top`. -/
def satInc (top v n : Nat) : Nat := min top (v + n)

/-- The number of one-bits among the low `n` bits. -/
def popCount : Nat → Nat → Nat
  | 0, _ => 0
  | n + 1, v => v % 2 + popCount n (v / 2)

/-- The bit positions set among the low `n` bits, ascending. -/
def bitList (n v : Nat) : List Nat := (List.range n).filter fun i => v.testBit i

end Sys2Proof.Machine
end

