-- ==== Sys2Proof/Machine/Regs.lean ====
section
/-! DEFINITION. The register fields of the spec's register tables, one descriptor each: the page, the offset and bit at which the field stands, its width, its reset value and its access code (R9). A field of an indexed register takes the index (and the instance of its page) as arguments. `pageFields` answers which fields a dword of a page holds. -/

namespace Sys2Proof.Machine

/-- The access codes of R9. -/
inductive Access
  | rw | ro | wo | w1c | rwe | rwg
deriving DecidableEq, Repr

/-- One field of a register: the page, the byte offset of its register, its lowest bit, its width, its reset value
and its access code. -/
structure Fld where
  page : Nat
  off : Nat
  lo : Nat
  width : Nat
  rst : Nat
  acc : Access
deriving DecidableEq, Repr

/-- Word `w` of the disabled-unit map at shipment (R184). -/
def dumWord (w : Nat) : Nat :=
  (List.range 32).foldl (fun a b => a + b2n (Config.spareAtReset (32 * w + b)) * 2 ^ b) 0

/-- The pages that are RUNNING after boot (R58): GLB, CRS, PWR, THM, RST, BOOT, MST, HEP0-1, MEM0-6, SBI. -/
def bootPage (p : Nat) : Bool :=
  decide (p ≤ 6) || p == 8 || p == 9 || (decide (0xA0 ≤ p) && decide (p ≤ 0xA6)) || p == 0xB0

/-- The pages whose guard is semaphore 0, fixed (R56). -/
def fixedGuard (p : Nat) : Bool :=
  p == 0 || p == 2 || p == 4 || (decide (0xA0 ≤ p) && decide (p ≤ 0xA6))

/-- The first page index of the block that page `p` belongs to, when the page map (R56) has `p`. -/
def blockType (p : Nat) : Option Nat :=
  if p ≤ 6 then some p
  else if p = 8 ∨ p = 9 then some 0x8
  else if 0x10 ≤ p ∧ p ≤ 0x17 then some 0x10
  else if 0x18 ≤ p ∧ p ≤ 0x1F then some 0x18
  else if 0x20 ≤ p ∧ p ≤ 0x23 then some 0x20
  else if p = 0x28 ∨ p = 0x30 ∨ p = 0x40 then some p
  else if 0x50 ≤ p ∧ p ≤ 0x5B then some 0x50
  else if p = 0x60 ∨ p = 0x61 ∨ p = 0x70 ∨ p = 0x71 ∨ p = 0x72 ∨ p = 0x78 ∨ p = 0x79 ∨ p = 0x80 ∨ p = 0x88 ∨ p = 0x90 then some p
  else if 0xA0 ≤ p ∧ p ≤ 0xA6 then some 0xA0
  else if p = 0xB0 then some 0xB0
  else if 0x1000 ≤ p ∧ p ≤ 0x10FF then some 0x1000
  else if 0x2000 ≤ p ∧ p ≤ 0x214F then some 0x2000
  else none

/-- The page lies in the Separator rule window (R57). -/
def inRuleWindow (p : Nat) : Bool := decide (0x400 ≤ p) && decide (p ≤ 0x7FF)

/-- The power domain of a page (R790). -/
def pageDomain (p : Nat) : Nat :=
  if p ≤ 1 then (if p = 0 ∨ p = 1 then 430 else 0x1FF)
  else if p ≤ 6 then 0x1FF
  else if p = 8 ∨ p = 9 then 430
  else if 0x10 ≤ p ∧ p ≤ 0x17 then 393 + (p - 0x10)
  else if 0x18 ≤ p ∧ p ≤ 0x1F then 401 + (p - 0x18)
  else if 0x20 ≤ p ∧ p ≤ 0x23 then 409 + (p - 0x20)
  else if p = 0x28 then 420 else if p = 0x30 then 421 else if p = 0x40 then 422
  else if 0x50 ≤ p ∧ p ≤ 0x5B then 381 + (p - 0x50)
  else if p = 0x60 then 430
  else if p = 0x61 then 423 else if p = 0x70 then 424 else if p = 0x71 then 425 else if p = 0x72 then 426
  else if p = 0x78 then 427 else if p = 0x79 then 430 else if p = 0x80 then 428 else if p = 0x88 then 429
  else if p = 0x90 then 430
  else if 0xA0 ≤ p ∧ p ≤ 0xA6 then 413 + (p - 0xA0)
  else if 0x2000 ≤ p ∧ p ≤ 0x214F then p - 0x2000
  else 0x1FF

/-- The page carries the common header (R56, R59). -/
def hasHeader (p : Nat) : Bool := (blockType p).isSome

/-- BLK_INSTANCE of page `p` (R59). -/
def Hdr.INSTANCE (p : Nat) : Fld := ⟨p, 0x0, 0, 16, (p - (blockType p).getD p), .ro⟩

/-- BLK_BLOCK_TYPE of page `p` (R59). -/
def Hdr.BLOCK_TYPE (p : Nat) : Fld := ⟨p, 0x0, 16, 16, ((blockType p).getD 0), .ro⟩

/-- BLK_MINOR of page `p` (R59). -/
def Hdr.MINOR (p : Nat) : Fld := ⟨p, 0x4, 0, 16, 0, .ro⟩

/-- BLK_MAJOR of page `p` (R59). -/
def Hdr.MAJOR (p : Nat) : Fld := ⟨p, 0x4, 16, 16, 1, .ro⟩

/-- BLK_EN of page `p` (R59). -/
def Hdr.EN (p : Nat) : Fld := ⟨p, 0x8, 0, 1, (b2n (bootPage p)), .rw⟩

/-- BLK_QUIESCE of page `p` (R59). -/
def Hdr.QUIESCE (p : Nat) : Fld := ⟨p, 0x8, 1, 1, 0, .rw⟩

/-- BLK_FENCE of page `p` (R59). -/
def Hdr.FENCE (p : Nat) : Fld := ⟨p, 0x8, 2, 1, 0, .rw⟩

/-- BLK_SLEEP_OK of page `p` (R59). -/
def Hdr.SLEEP_OK (p : Nat) : Fld := ⟨p, 0x8, 3, 1, 0, .rw⟩

/-- BLK_DRV_MAJOR of page `p` (R59). -/
def Hdr.DRV_MAJOR (p : Nat) : Fld := ⟨p, 0x8, 16, 16, 0, .rwe⟩

/-- BLK_STATE of page `p` (R59). -/
def Hdr.STATE (p : Nat) : Fld := ⟨p, 0xc, 0, 3, (if bootPage p then 2 else 0), .ro⟩

/-- BLK_IDLE of page `p` (R59). -/
def Hdr.IDLE (p : Nat) : Fld := ⟨p, 0xc, 8, 1, 1, .ro⟩

/-- BLK_REFUSAL_CODE of page `p` (R59). -/
def Hdr.REFUSAL_CODE (p : Nat) : Fld := ⟨p, 0x10, 0, 8, 0, .ro⟩

/-- BLK_REFUSAL_OFFSET of page `p` (R59). -/
def Hdr.REFUSAL_OFFSET (p : Nat) : Fld := ⟨p, 0x10, 8, 24, 0, .ro⟩

/-- BLK_ERR_STATUS of page `p`, with `DEP_LOST` at bit 31 (R59). -/
def Hdr.ERR_STATUS (p : Nat) : Fld := ⟨p, 0x14, 0, 32, 0, .w1c⟩

/-- BLK_ERR_ENABLE of page `p`, with `DEP_LOST` at bit 31 (R59). -/
def Hdr.ERR_ENABLE (p : Nat) : Fld := ⟨p, 0x18, 0, 32, 0, .rw⟩

/-- BLK_FIRST_CODE of page `p` (R59). -/
def Hdr.FIRST_CODE (p : Nat) : Fld := ⟨p, 0x1c, 0, 16, 0, .ro⟩

/-- BLK_FIRST_SEVERITY of page `p` (R59). -/
def Hdr.FIRST_SEVERITY (p : Nat) : Fld := ⟨p, 0x1c, 16, 2, 0, .ro⟩

/-- BLK_FIRST_VALID of page `p` (R59). -/
def Hdr.FIRST_VALID (p : Nat) : Fld := ⟨p, 0x1c, 31, 1, 0, .w1c⟩

/-- BLK_FIRST_TIME of page `p` (R59). -/
def Hdr.FIRST_TIME (p : Nat) : Fld := ⟨p, 0x20, 0, 64, 0, .ro⟩

/-- BLK_ERR_COUNT of page `p` (R59). -/
def Hdr.ERR_COUNT (p : Nat) : Fld := ⟨p, 0x28, 0, 31, 0, .ro⟩

/-- BLK_COUNT_CLEAR of page `p` (R59). -/
def Hdr.COUNT_CLEAR (p : Nat) : Fld := ⟨p, 0x28, 31, 1, 0, .wo⟩

/-- BLK_VEC_HOST0 of page `p` (R59). -/
def Hdr.VEC_HOST0 (p : Nat) : Fld := ⟨p, 0x2c, 0, 11, 0, .rw⟩

/-- BLK_EN_HOST0 of page `p` (R59). -/
def Hdr.EN_HOST0 (p : Nat) : Fld := ⟨p, 0x2c, 15, 1, 0, .rw⟩

/-- BLK_VEC_HOST1 of page `p` (R59). -/
def Hdr.VEC_HOST1 (p : Nat) : Fld := ⟨p, 0x2c, 16, 11, 0, .rw⟩

/-- BLK_EN_HOST1 of page `p` (R59). -/
def Hdr.EN_HOST1 (p : Nat) : Fld := ⟨p, 0x2c, 31, 1, 0, .rw⟩

/-- BLK_SEM of page `p` (R59). -/
def Hdr.SEM (p : Nat) : Fld := ⟨p, 0x30, 0, 6, 0, .rwg⟩

/-- BLK_GUARDED of page `p` (R59). -/
def Hdr.GUARDED (p : Nat) : Fld := ⟨p, 0x30, 31, 1, (b2n (fixedGuard p)), .rwg⟩

/-- BLK_DOMAIN of page `p` (R59). -/
def Hdr.DOMAIN (p : Nat) : Fld := ⟨p, 0x34, 0, 9, (pageDomain p), .ro⟩

/-- BLK_IDLE_US of page `p` (R59). -/
def Hdr.IDLE_US (p : Nat) : Fld := ⟨p, 0x34, 16, 16, 0, .rw⟩

/-! ### Page MEM -/

/-- R34. -/
def Reg.MEM_ACTIVITY (i k : Nat) : Fld := ⟨0xa0 + i, 0x100 + 0x4 * k, 0, 4, 0, .rwg⟩

/-- R34. -/
def Reg.MEM_SCRUBBING (i k : Nat) : Fld := ⟨0xa0 + i, 0x100 + 0x4 * k, 4, 1, 0, .ro⟩

/-! ### Page CRS -/

/-- R83. -/
def Reg.CRS_GRANTED (k : Nat) : Fld := ⟨0x1, 0x100 + 0x8 * k, 0, 1, 0, .ro⟩

/-- R83. -/
def Reg.CRS_ABANDONED (k : Nat) : Fld := ⟨0x1, 0x100 + 0x8 * k, 1, 1, 0, .ro⟩

/-- R83. -/
def Reg.CRS_OWNER (k : Nat) : Fld := ⟨0x1, 0x100 + 0x8 * k, 2, 2, 0, .ro⟩

/-- R83. -/
def Reg.CRS_SEQUENCE (k : Nat) : Fld := ⟨0x1, 0x100 + 0x8 * k, 16, 16, 0, .ro⟩

/-! ### Page CHN -/

/-- R165. -/
def Reg.CHN_ENABLED : Fld := ⟨0x60, 0x100, 0, 9, Config.enabledCores, .ro⟩

/-- R165. -/
def Reg.CHN_GRADE : Fld := ⟨0x60, 0x100, 16, 9, Config.enabledCores, .ro⟩

/-- R165. -/
def Reg.CHN_FLOOR : Fld := ⟨0x60, 0x104, 0, 9, Config.enabledCores, .rw⟩

/-- R165. -/
def Reg.CHN_SPARES : Fld := ⟨0x60, 0x108, 0, 9, (336 - Config.enabledCores), .ro⟩

/-- R165. -/
def Reg.CHN_RESTART_POOL : Fld := ⟨0x60, 0x10c, 0, 5, 0, .wo⟩

/-- R165. -/
def Reg.CHN_RESTART_MEMBER : Fld := ⟨0x60, 0x10c, 8, 9, 0, .wo⟩

/-- R165. -/
def Reg.CHN_FAILED_CORE : Fld := ⟨0x60, 0x110, 0, 9, 511, .ro⟩

/-- R165. -/
def Reg.CHN_REPLACEMENT : Fld := ⟨0x60, 0x110, 16, 9, 511, .ro⟩

/-- R165. -/
def Reg.CHN_REISSUE_POOL : Fld := ⟨0x60, 0x110, 32, 5, 0, .ro⟩

/-- R165. -/
def Reg.CHN_REISSUE_MEMBER : Fld := ⟨0x60, 0x110, 48, 9, 0, .ro⟩

/-- R165. -/
def Reg.CHN_DUM (w : Nat) : Fld := ⟨0x60, 0x120 + 0x4 * w, 0, 32, (dumWord w), .ro⟩

/-- R165. -/
def Reg.CHN_FAILED (w : Nat) : Fld := ⟨0x60, 0x160 + 0x4 * w, 0, 32, 0, .ro⟩

/-- R165. -/
def Reg.CHN_POOL_OF (k : Nat) : Fld := ⟨0x60, 0x200 + k, 0, 8, 255, .rw⟩

/-- R165. -/
def Reg.CHN_KIND (k : Nat) : Fld := ⟨0x60, 0x400 + 0x20 * k, 0, 2, 0, .rw⟩

/-- R165. -/
def Reg.CHN_AUTO_RESTART (k : Nat) : Fld := ⟨0x60, 0x400 + 0x20 * k, 2, 1, 1, .rw⟩

/-- R165. -/
def Reg.CHN_STALL (k : Nat) : Fld := ⟨0x60, 0x400 + 0x20 * k, 4, 11, 0, .rw⟩

/-- R165. -/
def Reg.CHN_CORE_COUNT (k : Nat) : Fld := ⟨0x60, 0x400 + 0x20 * k, 16, 9, 0, .ro⟩

/-- R165. -/
def Reg.CHN_IMAGE (k : Nat) : Fld := ⟨0x60, 0x408 + 0x20 * k, 0, 64, 0, .rw⟩

/-- R165. -/
def Reg.CHN_RESTART (k : Nat) : Fld := ⟨0x60, 0x410 + 0x20 * k, 0, 64, 0, .rw⟩

/-! ### Page CC -/

/-- R168. -/
def Reg.CC_POOL (i : Nat) : Fld := ⟨0x2000 + i, 0x100, 0, 5, 0, .ro⟩

/-- R168. -/
def Reg.CC_MEMBER (i : Nat) : Fld := ⟨0x2000 + i, 0x100, 8, 9, 0, .ro⟩

/-- R168. -/
def Reg.CC_SPARE (i : Nat) : Fld := ⟨0x2000 + i, 0x100, 31, 1, (b2n (Config.spareAtReset i)), .ro⟩

/-- R168. -/
def Reg.CC_RUN_STATE (i : Nat) : Fld := ⟨0x2000 + i, 0x104, 0, 3, 0, .ro⟩

/-- R168. -/
def Reg.CC_START (i : Nat) : Fld := ⟨0x2000 + i, 0x104, 8, 1, 0, .wo⟩

/-- R168. -/
def Reg.CC_STOP (i : Nat) : Fld := ⟨0x2000 + i, 0x104, 9, 1, 0, .wo⟩

/-- R168. -/
def Reg.CC_HALT_CODE (i : Nat) : Fld := ⟨0x2000 + i, 0x104, 16, 16, 0, .ro⟩

/-- R168. -/
def Reg.CC_ENTRY (i : Nat) : Fld := ⟨0x2000 + i, 0x108, 2, 14, 0, .rwe⟩

/-- R168. -/
def Reg.CC_TRAP_CAUSE (i : Nat) : Fld := ⟨0x2000 + i, 0x10c, 0, 8, 0, .ro⟩

/-- R168. -/
def Reg.CC_TRAP_PC (i : Nat) : Fld := ⟨0x2000 + i, 0x10c, 16, 16, 0, .ro⟩

/-- R168. -/
def Reg.CC_WDOG_LIMIT (i : Nat) : Fld := ⟨0x2000 + i, 0x110, 0, 32, 1048576, .rwe⟩

/-- R168. -/
def Reg.CC_CYCLES (i : Nat) : Fld := ⟨0x2000 + i, 0x118, 0, 64, 0, .ro⟩

/-- R168. -/
def Reg.CC_RETIRED (i : Nat) : Fld := ⟨0x2000 + i, 0x120, 0, 64, 0, .ro⟩

/-- R168. -/
def Reg.CC_MARK_PC (i : Nat) : Fld := ⟨0x2000 + i, 0x128, 0, 16, 0, .ro⟩

/-- R168. -/
def Reg.CC_MARK_COUNT (i : Nat) : Fld := ⟨0x2000 + i, 0x128, 16, 16, 0, .ro⟩

/-- R168. -/
def Reg.CC_IN_LINE (i k : Nat) : Fld := ⟨0x2000 + i, 0x140 + 0x4 * k, 0, 12, 0, .rwe⟩

/-- R168. -/
def Reg.CC_IN_BOUND (i k : Nat) : Fld := ⟨0x2000 + i, 0x140 + 0x4 * k, 15, 1, 0, .rwe⟩

/-- R168. -/
def Reg.CC_IN_COUNT (i k : Nat) : Fld := ⟨0x2000 + i, 0x140 + 0x4 * k, 16, 16, 0, .ro⟩

/-- R168. -/
def Reg.CC_OUT_LINE (i k : Nat) : Fld := ⟨0x2000 + i, 0x160 + 0x4 * k, 0, 12, 0, .rwe⟩

/-- R168. -/
def Reg.CC_OUT_BOUND (i k : Nat) : Fld := ⟨0x2000 + i, 0x160 + 0x4 * k, 15, 1, 0, .rwe⟩

/-! ### Page MOV -/

/-- R244. -/
def Reg.MOV_KIND (i : Nat) : Fld := ⟨0x50 + i, 0x100, 0, 2, (if i < 8 then 0 else if i < 10 then 1 else i - 8), .ro⟩

/-- R244. -/
def Reg.MOV_PORT (i : Nat) : Fld := ⟨0x50 + i, 0x100, 4, 3, (if i < 8 then i else 0), .ro⟩

/-- R244. -/
def Reg.MOV_ACTIVE (i : Nat) : Fld := ⟨0x50 + i, 0x108, 0, 64, 0, .ro⟩

/-- R244. -/
def Reg.MOV_ABORTED (i : Nat) : Fld := ⟨0x50 + i, 0x110, 0, 64, 0, .ro⟩

/-- R244. -/
def Reg.MOV_WDOG_LIMIT (i : Nat) : Fld := ⟨0x50 + i, 0x118, 0, 32, 1048576, .rwe⟩

/-- R244. -/
def Reg.MOV_RESET_CH (i : Nat) : Fld := ⟨0x50 + i, 0x11c, 0, 6, 0, .wo⟩

/-- R244. -/
def Reg.MOV_RESET_GO (i : Nat) : Fld := ⟨0x50 + i, 0x11c, 31, 1, 0, .wo⟩

/-- R244. -/
def Reg.MOV_LOG2_N (i k : Nat) : Fld := ⟨0x50 + i, 0x400 + 0x20 * k, 0, 4, 0, .rw⟩

/-- R244. -/
def Reg.MOV_BASE (i k : Nat) : Fld := ⟨0x50 + i, 0x400 + 0x20 * k, 12, 52, 0, .rw⟩

/-- R244. -/
def Reg.MOV_CH_EN (i k : Nat) : Fld := ⟨0x50 + i, 0x408 + 0x20 * k, 0, 1, 0, .rw⟩

/-- R244. -/
def Reg.MOV_ABORT (i k : Nat) : Fld := ⟨0x50 + i, 0x408 + 0x20 * k, 1, 1, 0, .wo⟩

/-- R244. -/
def Reg.MOV_RESUME (i k : Nat) : Fld := ⟨0x50 + i, 0x408 + 0x20 * k, 2, 1, 0, .wo⟩

/-- R244. -/
def Reg.MOV_PRIO_CAP (i k : Nat) : Fld := ⟨0x50 + i, 0x408 + 0x20 * k, 3, 2, 3, .rw⟩

/-- R244. -/
def Reg.MOV_OWNER (i k : Nat) : Fld := ⟨0x50 + i, 0x40c + 0x20 * k, 0, 16, 65535, .rw⟩

/-- R244. -/
def Reg.MOV_GEN (i k : Nat) : Fld := ⟨0x50 + i, 0x40c + 0x20 * k, 16, 16, 0, .rw⟩

/-- R244. -/
def Reg.MOV_TAIL (i k : Nat) : Fld := ⟨0x50 + i, 0x410 + 0x20 * k, 0, 15, 0, .rw⟩

/-- R244. -/
def Reg.MOV_HEAD (i k : Nat) : Fld := ⟨0x50 + i, 0x414 + 0x20 * k, 0, 15, 0, .ro⟩

/-- R244. -/
def Reg.MOV_CH_STATE (i k : Nat) : Fld := ⟨0x50 + i, 0x414 + 0x20 * k, 16, 3, 0, .ro⟩

/-- R244. -/
def Reg.MOV_DONE (i k : Nat) : Fld := ⟨0x50 + i, 0x418 + 0x20 * k, 0, 32, 0, .ro⟩

/-- R244. -/
def Reg.MOV_LINE0 (i k : Nat) : Fld := ⟨0x50 + i, 0x41c + 0x20 * k, 0, 12, 0, .rw⟩

/-- R244. -/
def Reg.MOV_BOUND0 (i k : Nat) : Fld := ⟨0x50 + i, 0x41c + 0x20 * k, 12, 1, 0, .rw⟩

/-- R244. -/
def Reg.MOV_LINE1 (i k : Nat) : Fld := ⟨0x50 + i, 0x41c + 0x20 * k, 16, 12, 0, .rw⟩

/-- R244. -/
def Reg.MOV_BOUND1 (i k : Nat) : Fld := ⟨0x50 + i, 0x41c + 0x20 * k, 28, 1, 0, .rw⟩

/-! ### Page AHN -/

/-- R330. -/
def Reg.AHN_UDP_PORT : Fld := ⟨0x40, 0x100, 0, 16, 47265, .rwe⟩

/-- R330. -/
def Reg.AHN_IPV4 : Fld := ⟨0x40, 0x100, 16, 1, 0, .rwe⟩

/-- R330. -/
def Reg.AHN_PAYLOAD_MAX : Fld := ⟨0x40, 0x100, 17, 2, 3, .rwe⟩

/-- R330. -/
def Reg.AHN_PORT_MASK : Fld := ⟨0x40, 0x104, 0, 16, 1, .rwe⟩

/-- R330. -/
def Reg.AHN_DEVICE_ID : Fld := ⟨0x40, 0x108, 0, 16, 0, .rwe⟩

/-- R330. -/
def Reg.AHN_DOMAIN_MODE : Fld := ⟨0x40, 0x108, 16, 1, 0, .rwe⟩

/-- R330. -/
def Reg.AHN_DOMAIN_STATE : Fld := ⟨0x40, 0x108, 17, 2, 0, .ro⟩

/-- R330. -/
def Reg.AHN_DOMAIN_START : Fld := ⟨0x40, 0x108, 31, 1, 0, .wo⟩

/-- R330. -/
def Reg.AHN_DOMAIN_TAG : Fld := ⟨0x40, 0x10c, 0, 32, 0, .rwe⟩

/-- R330. -/
def Reg.AHN_SERIAL : Fld := ⟨0x40, 0x110, 0, 64, 0, .ro⟩

/-- R330. -/
def Reg.AHN_ADDR_TABLE : Fld := ⟨0x40, 0x118, 0, 64, 0, .rwe⟩

/-- R330. -/
def Reg.AHN_DISC_ADDR (k : Nat) : Fld := ⟨0x40, if k < 4 then 0x120 + 16 * k else 0x130 + 16 * k, 0, 128, 0, .rwe⟩

/-- R330. -/
def Reg.AHN_DISC_COUNT : Fld := ⟨0x40, 0x160, 0, 5, 0, .rwe⟩

/-- R330. -/
def Reg.AHN_DISC_MCAST : Fld := ⟨0x40, 0x160, 5, 1, 0, .rwe⟩

/-- R330. -/
def Reg.AHN_RTO_BASE : Fld := ⟨0x40, 0x164, 0, 16, 16000, .rwe⟩

/-- R330. -/
def Reg.AHN_MPL : Fld := ⟨0x40, 0x168, 0, 24, 4000000, .rwe⟩

/-- R330. -/
def Reg.AHN_NET_LIFETIME : Fld := ⟨0x40, 0x16c, 0, 24, 1000000, .rwe⟩

/-- R330. -/
def Reg.AHN_ACK_DELAY : Fld := ⟨0x40, 0x270, 0, 16, 2000, .rwe⟩

/-- R330. -/
def Reg.AHN_TARGET_DELAY : Fld := ⟨0x40, 0x274, 0, 16, 12000, .rwe⟩

/-- R330. -/
def Reg.AHN_FLIGHT_WINDOW : Fld := ⟨0x40, 0x278, 0, 15, 1024, .rwe⟩

/-- R330. -/
def Reg.AHN_CWND_INIT : Fld := ⟨0x40, 0x27c, 0, 15, 128, .rwe⟩

/-- R330. -/
def Reg.AHN_CTR (k : Nat) : Fld := ⟨0x40, 0x280 + 0x8 * k, 0, 64, 0, .ro⟩

/-- R370. -/
def Reg.AHN_QP_TABLE : Fld := ⟨0x40, 0x300, 0, 64, 0, .rwe⟩

/-- R370. -/
def Reg.AHN_REGION_TABLE : Fld := ⟨0x40, 0x308, 0, 64, 0, .rwe⟩

/-- R370. -/
def Reg.AHN_QP_CMD : Fld := ⟨0x40, 0x310, 0, 32, 0, .wo⟩

/-- R370. -/
def Reg.AHN_REGION_INDEX : Fld := ⟨0x40, 0x314, 0, 16, 0, .wo⟩

/-- R370. -/
def Reg.AHN_REGION_CMD : Fld := ⟨0x40, 0x314, 16, 2, 0, .wo⟩

/-- R370. -/
def Reg.AHN_REGION_GO : Fld := ⟨0x40, 0x314, 31, 1, 0, .wo⟩

/-- R370. -/
def Reg.AHN_RESP_TIMEOUT : Fld := ⟨0x40, 0x320, 0, 24, 10000000, .rwe⟩

/-- R370. -/
def Reg.AHN_STALE_COUNT : Fld := ⟨0x40, 0x330, 0, 64, 0, .ro⟩

/-! ### Page COL -/

/-- R376. -/
def Reg.COL_POOL : Fld := ⟨0x61, 0x100, 0, 5, 0, .rwe⟩

/-- R376. -/
def Reg.COL_CLUSTERS : Fld := ⟨0x61, 0x100, 8, 3, 0, .ro⟩

/-- R376. -/
def Reg.COL_CORES : Fld := ⟨0x61, 0x100, 16, 9, 0, .ro⟩

/-- R376. -/
def Reg.COL_GROUP_TABLE : Fld := ⟨0x61, 0x108, 0, 64, 0, .rwe⟩

/-- R376. -/
def Reg.COL_COL_QP : Fld := ⟨0x61, 0x110, 0, 12, 0, .rwe⟩

/-- R376. -/
def Reg.COL_STAGING : Fld := ⟨0x61, 0x118, 0, 64, 0, .rwe⟩

/-- R376. -/
def Reg.COL_STAGING_LOG2 : Fld := ⟨0x61, 0x120, 0, 8, 26, .rwe⟩

/-- R376. -/
def Reg.COL_GROUP_INDEX : Fld := ⟨0x61, 0x124, 0, 12, 0, .wo⟩

/-- R376. -/
def Reg.COL_GROUP_CMD : Fld := ⟨0x61, 0x124, 12, 2, 0, .wo⟩

/-- R376. -/
def Reg.COL_GROUP_GO : Fld := ⟨0x61, 0x124, 31, 1, 0, .wo⟩

/-- R376. -/
def Reg.COL_GROUP_RESULT : Fld := ⟨0x61, 0x128, 0, 8, 0, .ro⟩

/-- R376. -/
def Reg.COL_GROUP_BUSY : Fld := ⟨0x61, 0x128, 8, 1, 0, .ro⟩

/-- R376. -/
def Reg.COL_STOP_ARM : Fld := ⟨0x61, 0x12c, 0, 1, 0, .rw⟩

/-- R376. -/
def Reg.COL_STOP_NOW : Fld := ⟨0x61, 0x12c, 1, 1, 0, .wo⟩

/-- R376. -/
def Reg.COL_RESUME : Fld := ⟨0x61, 0x12c, 2, 1, 0, .wo⟩

/-- R376. -/
def Reg.COL_STOPPED : Fld := ⟨0x61, 0x12c, 3, 1, 0, .ro⟩

/-- R376. -/
def Reg.COL_CTR (k : Nat) : Fld := ⟨0x61, 0x200 + 0x8 * k, 0, 64, 0, .ro⟩

/-- R376. -/
def Reg.COL_LOG2_N (k : Nat) : Fld := ⟨0x61, 0x400 + 0x20 * k, 0, 4, 0, .rw⟩

/-- R376. -/
def Reg.COL_BASE (k : Nat) : Fld := ⟨0x61, 0x400 + 0x20 * k, 12, 52, 0, .rw⟩

/-- R376. -/
def Reg.COL_Q_EN (k : Nat) : Fld := ⟨0x61, 0x408 + 0x20 * k, 0, 1, 0, .rw⟩

/-- R376. -/
def Reg.COL_GEN (k : Nat) : Fld := ⟨0x61, 0x408 + 0x20 * k, 16, 16, 0, .rw⟩

/-- R376. -/
def Reg.COL_OWNER (k : Nat) : Fld := ⟨0x61, 0x40c + 0x20 * k, 0, 16, 65535, .rw⟩

/-- R376. -/
def Reg.COL_TAIL (k : Nat) : Fld := ⟨0x61, 0x410 + 0x20 * k, 0, 13, 0, .rw⟩

/-- R376. -/
def Reg.COL_HEAD (k : Nat) : Fld := ⟨0x61, 0x414 + 0x20 * k, 0, 13, 0, .ro⟩

/-- R376. -/
def Reg.COL_Q_STATE (k : Nat) : Fld := ⟨0x61, 0x414 + 0x20 * k, 16, 3, 0, .ro⟩

/-- R376. -/
def Reg.COL_DONE (k : Nat) : Fld := ⟨0x61, 0x418 + 0x20 * k, 0, 32, 0, .ro⟩

/-- R376. -/
def Reg.COL_LINE (k : Nat) : Fld := ⟨0x61, 0x41c + 0x20 * k, 0, 12, 0, .rw⟩

/-- R376. -/
def Reg.COL_BOUND (k : Nat) : Fld := ⟨0x61, 0x41c + 0x20 * k, 12, 1, 0, .rw⟩

/-! ### Page HRD -/

/-- R453. -/
def Reg.HRD_CTX_TABLE : Fld := ⟨0x70, 0x100, 0, 64, 0, .rwe⟩

/-- R453. -/
def Reg.HRD_POLICY_TABLE : Fld := ⟨0x70, 0x108, 0, 64, 0, .rwe⟩

/-- R453. -/
def Reg.HRD_INTAKE_TABLE : Fld := ⟨0x70, 0x110, 0, 64, 0, .rwe⟩

/-- R453. -/
def Reg.HRD_LIST_AREA : Fld := ⟨0x70, 0x118, 0, 64, 0, .rwe⟩

/-- R453. -/
def Reg.HRD_LIST_LOG2 : Fld := ⟨0x70, 0x120, 0, 8, 24, .rwe⟩

/-- R453. -/
def Reg.HRD_RECV_LOG2 : Fld := ⟨0x70, 0x120, 8, 8, 16, .rwe⟩

/-- R453. -/
def Reg.HRD_PROMPT_LOG2 : Fld := ⟨0x70, 0x120, 16, 8, 30, .rwe⟩

/-- R453. -/
def Reg.HRD_FIRST_QP : Fld := ⟨0x70, 0x124, 0, 12, 0, .rwe⟩

/-- R453. -/
def Reg.HRD_QP_COUNT : Fld := ⟨0x70, 0x124, 16, 5, 0, .rwe⟩

/-- R453. -/
def Reg.HRD_PROMPT_AREA : Fld := ⟨0x70, 0x128, 0, 64, 0, .rwe⟩

/-- R453. -/
def Reg.HRD_CRING_AREA : Fld := ⟨0x70, 0x130, 0, 64, 0, .rwe⟩

/-- R453. -/
def Reg.HRD_DCLASS_BUDGET (k : Nat) : Fld := ⟨0x70, 0x140 + 0x4 * k, 0, 32, 0, .rw⟩

/-- R453. -/
def Reg.HRD_INTAKE_Q : Fld := ⟨0x70, 0x160, 0, 12, 0, .wo⟩

/-- R453. -/
def Reg.HRD_INTAKE_CMD : Fld := ⟨0x70, 0x160, 12, 2, 0, .wo⟩

/-- R453. -/
def Reg.HRD_INTAKE_GO : Fld := ⟨0x70, 0x160, 31, 1, 0, .wo⟩

/-- R453. -/
def Reg.HRD_POLICY_MODEL : Fld := ⟨0x70, 0x164, 0, 12, 0, .wo⟩

/-- R453. -/
def Reg.HRD_POLICY_CMD : Fld := ⟨0x70, 0x164, 12, 2, 0, .wo⟩

/-- R453. -/
def Reg.HRD_POLICY_GO : Fld := ⟨0x70, 0x164, 31, 1, 0, .wo⟩

/-- R453. -/
def Reg.HRD_INTAKE_RESULT : Fld := ⟨0x70, 0x168, 0, 8, 0, .ro⟩

/-- R453. -/
def Reg.HRD_POLICY_RESULT : Fld := ⟨0x70, 0x168, 8, 8, 0, .ro⟩

/-- R453. -/
def Reg.HRD_SIDE_TIMEOUT_US : Fld := ⟨0x70, 0x16c, 0, 32, 1000, .rw⟩

/-- R453. -/
def Reg.HRD_CTR (k : Nat) : Fld := ⟨0x70, 0x180 + 0x8 * k, 0, 64, 0, .ro⟩

/-- R453. -/
def Reg.HRD_SB_ACTIVE : Fld := ⟨0x70, 0x1c0, 0, 17, 0, .ro⟩

/-- R453. -/
def Reg.HRD_CTX_USED : Fld := ⟨0x70, 0x1c4, 0, 21, 0, .ro⟩

/-- R453. -/
def Reg.HRD_CALL_LOG2 (k : Nat) : Fld := ⟨0x70, 0x400 + 0x10 * k, 0, 4, 0, .rwe⟩

/-- R453. -/
def Reg.HRD_CALL_RING (k : Nat) : Fld := ⟨0x70, 0x400 + 0x10 * k, 12, 52, 0, .rwe⟩

/-- R453. -/
def Reg.HRD_CALL_LINE (k : Nat) : Fld := ⟨0x70, 0x408 + 0x10 * k, 0, 12, 0, .rwe⟩

/-- R453. -/
def Reg.HRD_CALL_BOUND (k : Nat) : Fld := ⟨0x70, 0x408 + 0x10 * k, 12, 1, 0, .rwe⟩

/-- R453. -/
def Reg.HRD_VERDICT_LINE (k : Nat) : Fld := ⟨0x70, 0x408 + 0x10 * k, 16, 12, 0, .rwe⟩

/-- R453. -/
def Reg.HRD_VERDICT_BOUND (k : Nat) : Fld := ⟨0x70, 0x408 + 0x10 * k, 28, 1, 0, .rwe⟩

/-- R453. -/
def Reg.HRD_ABI_MIN (k : Nat) : Fld := ⟨0x70, 0x800 + 0x80 * k, 0, 4, 0, .rw⟩

/-- R453. -/
def Reg.HRD_ABI_MAX (k : Nat) : Fld := ⟨0x70, 0x800 + 0x80 * k, 4, 4, 0, .rw⟩

/-- R453. -/
def Reg.HRD_TRING_LOG2 (k : Nat) : Fld := ⟨0x70, 0x800 + 0x80 * k, 8, 4, 0, .rw⟩

/-- R453. -/
def Reg.HRD_CRING_LOG2 (k : Nat) : Fld := ⟨0x70, 0x800 + 0x80 * k, 12, 4, 0, .rw⟩

/-- R453. -/
def Reg.HRD_MAX_RUNNING (k : Nat) : Fld := ⟨0x70, 0x800 + 0x80 * k, 16, 11, 0, .rw⟩

/-- R453. -/
def Reg.HRD_TRING_ADDR (k : Nat) : Fld := ⟨0x70, 0x808 + 0x80 * k, 0, 64, 0, .rw⟩

/-- R453. -/
def Reg.HRD_DOORBELL_ADDR (k : Nat) : Fld := ⟨0x70, 0x810 + 0x80 * k, 0, 64, 0, .rw⟩

/-- R453. -/
def Reg.HRD_CHEAD_ADDR (k : Nat) : Fld := ⟨0x70, 0x818 + 0x80 * k, 0, 64, 0, .rw⟩

/-- R453. -/
def Reg.HRD_ACC_EN (k : Nat) : Fld := ⟨0x70, 0x820 + 0x80 * k, 0, 1, 0, .rw⟩

/-- R453. -/
def Reg.HRD_ACC_CMD (k : Nat) : Fld := ⟨0x70, 0x820 + 0x80 * k, 1, 3, 0, .wo⟩

/-- R453. -/
def Reg.HRD_ACC_STATE (k : Nat) : Fld := ⟨0x70, 0x820 + 0x80 * k, 4, 3, 0, .ro⟩

/-- R453. -/
def Reg.HRD_ABI_AGREED (k : Nat) : Fld := ⟨0x70, 0x820 + 0x80 * k, 8, 4, 0, .ro⟩

/-- R453. -/
def Reg.HRD_DB_LINE (k : Nat) : Fld := ⟨0x70, 0x820 + 0x80 * k, 16, 12, 0, .rw⟩

/-- R453. -/
def Reg.HRD_DB_BOUND (k : Nat) : Fld := ⟨0x70, 0x820 + 0x80 * k, 28, 1, 0, .rw⟩

/-- R453. -/
def Reg.HRD_ACC_TIMEOUT_US (k : Nat) : Fld := ⟨0x70, 0x824 + 0x80 * k, 0, 32, 100000, .rw⟩

/-- R453. -/
def Reg.HRD_CRING_WINDOW (k : Nat) : Fld := ⟨0x70, 0x828 + 0x80 * k, 0, 64, 0, .ro⟩

/-- R453. -/
def Reg.HRD_TICKET_SEQ (k : Nat) : Fld := ⟨0x70, 0x830 + 0x80 * k, 0, 64, 0, .ro⟩

/-- R453. -/
def Reg.HRD_TICKET_DONE (k : Nat) : Fld := ⟨0x70, 0x838 + 0x80 * k, 0, 64, 0, .ro⟩

/-- R453. -/
def Reg.HRD_RUNNING (k : Nat) : Fld := ⟨0x70, 0x840 + 0x80 * k, 0, 16, 0, .ro⟩

/-! ### Page VAT -/

/-- R490. -/
def Reg.VAT_IMAGE_TABLE : Fld := ⟨0x71, 0x100, 0, 64, 0, .rwe⟩

/-- R490. -/
def Reg.VAT_AREA_SIZE : Fld := ⟨0x71, 0x108, 0, 48, 0, .rwe⟩

/-- R490. -/
def Reg.VAT_VAT_CH : Fld := ⟨0x71, 0x110, 0, 6, 0, .rwe⟩

/-- R490. -/
def Reg.VAT_VAT_PRIO : Fld := ⟨0x71, 0x110, 8, 2, 2, .rwe⟩

/-- R490. -/
def Reg.VAT_IMG_INDEX : Fld := ⟨0x71, 0x114, 0, 12, 0, .wo⟩

/-- R490. -/
def Reg.VAT_IMG_CMD : Fld := ⟨0x71, 0x114, 12, 3, 0, .wo⟩

/-- R490. -/
def Reg.VAT_IMG_GO : Fld := ⟨0x71, 0x114, 31, 1, 0, .wo⟩

/-- R490. -/
def Reg.VAT_IMG_RESULT : Fld := ⟨0x71, 0x118, 0, 8, 0, .ro⟩

/-- R490. -/
def Reg.VAT_IMG_BUSY : Fld := ⟨0x71, 0x118, 8, 1, 0, .ro⟩

/-- R490. -/
def Reg.VAT_FILL_VOLUME : Fld := ⟨0x71, 0x120, 0, 6, 0, .rw⟩

/-- R490. -/
def Reg.VAT_FILL_OFFSET : Fld := ⟨0x71, 0x128, 0, 64, 0, .rw⟩

/-- R490. -/
def Reg.VAT_CTR (k : Nat) : Fld := ⟨0x71, 0x180 + 0x8 * k, 0, 64, 0, .ro⟩

/-- R490. -/
def Reg.VAT_AREA_OFFSET (k : Nat) : Fld := ⟨0x71, 0x200 + 0x8 * k, 0, 64, 0, .rwe⟩

/-! ### Page KVP -/

/-- R492. -/
def Reg.KVP_SEQ_TABLE : Fld := ⟨0x72, 0x100, 0, 64, 0, .rwe⟩

/-- R492. -/
def Reg.KVP_DESC_TABLE : Fld := ⟨0x72, 0x108, 0, 64, 0, .rwe⟩

/-- R492. -/
def Reg.KVP_FMT_TABLE : Fld := ⟨0x72, 0x110, 0, 64, 0, .rwe⟩

/-- R492. -/
def Reg.KVP_PT_AREA : Fld := ⟨0x72, 0x118, 0, 64, 0, .rwe⟩

/-- R492. -/
def Reg.KVP_PT_LOG2 : Fld := ⟨0x72, 0x120, 0, 8, 30, .rwe⟩

/-- R492. -/
def Reg.KVP_HBM_AREA : Fld := ⟨0x72, 0x128, 0, 64, 0, .rwe⟩

/-- R492. -/
def Reg.KVP_HBM_SIZE : Fld := ⟨0x72, 0x130, 0, 48, 0, .rwe⟩

/-- R492. -/
def Reg.KVP_CELLAR_AREA : Fld := ⟨0x72, 0x138, 0, 64, 0, .rwe⟩

/-- R492. -/
def Reg.KVP_CELLAR_SIZE : Fld := ⟨0x72, 0x140, 0, 48, 0, .rwe⟩

/-- R492. -/
def Reg.KVP_PAIL_VOLUME : Fld := ⟨0x72, 0x148, 0, 6, 0, .rwe⟩

/-- R492. -/
def Reg.KVP_PAIL_OFFSET : Fld := ⟨0x72, 0x150, 0, 64, 0, .rwe⟩

/-- R492. -/
def Reg.KVP_PAIL_SIZE : Fld := ⟨0x72, 0x158, 0, 48, 0, .rwe⟩

/-- R492. -/
def Reg.KVP_DEVWIN_LOCAL : Fld := ⟨0x72, 0x160, 0, 64, 0, .rwe⟩

/-- R492. -/
def Reg.KVP_KVP_CH : Fld := ⟨0x72, 0x168, 0, 6, 0, .rwe⟩

/-- R492. -/
def Reg.KVP_KVP_PRIO : Fld := ⟨0x72, 0x168, 8, 2, 1, .rwe⟩

/-- R492. -/
def Reg.KVP_GROW_PAGES : Fld := ⟨0x72, 0x168, 16, 8, 4, .rwe⟩

/-- R492. -/
def Reg.KVP_FREE_MIN : Fld := ⟨0x72, 0x168, 24, 6, 4, .rwe⟩

/-- R492. -/
def Reg.KVP_SEQ_CMD : Fld := ⟨0x72, 0x170, 12, 2, 0, .wo⟩

/-- R492. -/
def Reg.KVP_SEQ_GO : Fld := ⟨0x72, 0x170, 31, 1, 0, .wo⟩

/-- R492. -/
def Reg.KVP_SEQ_MODEL : Fld := ⟨0x72, 0x170, 0, 12, 0, .wo⟩

/-- R492. -/
def Reg.KVP_SEQ_HANDLE : Fld := ⟨0x72, 0x174, 0, 32, 0, .rw⟩

/-- R492. -/
def Reg.KVP_SEQ_RESULT : Fld := ⟨0x72, 0x178, 0, 8, 0, .ro⟩

/-- R492. -/
def Reg.KVP_SEQ_BUSY : Fld := ⟨0x72, 0x178, 8, 1, 0, .ro⟩

/-- R492. -/
def Reg.KVP_SEQ_OWNER : Fld := ⟨0x72, 0x17c, 0, 16, 65535, .rw⟩

/-- R492. -/
def Reg.KVP_HBM_FREE : Fld := ⟨0x72, 0x180, 0, 48, 0, .ro⟩

/-- R492. -/
def Reg.KVP_CELLAR_FREE : Fld := ⟨0x72, 0x188, 0, 48, 0, .ro⟩

/-- R492. -/
def Reg.KVP_PAIL_FREE : Fld := ⟨0x72, 0x190, 0, 48, 0, .ro⟩

/-- R492. -/
def Reg.KVP_DESC_FREE : Fld := ⟨0x72, 0x198, 0, 48, 0, .ro⟩

/-- R492. -/
def Reg.KVP_CTR (k : Nat) : Fld := ⟨0x72, 0x1c0 + 0x8 * k, 0, 64, 0, .ro⟩

/-- R492. -/
def Reg.KVP_KV_OFFSET (k : Nat) : Fld := ⟨0x72, 0x400 + 0x20 * k, 0, 64, 0, .rwe⟩

/-- R492. -/
def Reg.KVP_KV_LOCAL (k : Nat) : Fld := ⟨0x72, 0x408 + 0x20 * k, 0, 64, 0, .rwe⟩

/-- R492. -/
def Reg.KVP_KV_SIZE (k : Nat) : Fld := ⟨0x72, 0x410 + 0x20 * k, 0, 48, 0, .rwe⟩

/-- R492. -/
def Reg.KVP_KV_FREE (k : Nat) : Fld := ⟨0x72, 0x418 + 0x20 * k, 0, 48, 0, .ro⟩

/-! ### Page LBY -/

/-- R537. -/
def Reg.LBY_JOB_ID : Fld := ⟨0x78, 0x100, 0, 32, 0, .rwe⟩

/-- R537. -/
def Reg.LBY_MEMBERS : Fld := ⟨0x78, 0x104, 0, 17, 0, .rwe⟩

/-- R537. -/
def Reg.LBY_MY_RANK : Fld := ⟨0x78, 0x108, 0, 16, 0, .rwe⟩

/-- R537. -/
def Reg.LBY_MEMBER_TABLE : Fld := ⟨0x78, 0x110, 0, 64, 0, .rwe⟩

/-- R537. -/
def Reg.LBY_MANIFEST : Fld := ⟨0x78, 0x118, 0, 64, 0, .rwe⟩

/-- R537. -/
def Reg.LBY_MANIFEST_COUNT : Fld := ⟨0x78, 0x120, 0, 24, 0, .rwe⟩

/-- R537. -/
def Reg.LBY_NEAR_AREA : Fld := ⟨0x78, 0x128, 0, 64, 0, .rwe⟩

/-- R537. -/
def Reg.LBY_NEAR_SLOT : Fld := ⟨0x78, 0x130, 0, 48, 0, .rwe⟩

/-- R537. -/
def Reg.LBY_HELD_AREA : Fld := ⟨0x78, 0x138, 0, 64, 0, .rwe⟩

/-- R537. -/
def Reg.LBY_HELD_SIZE : Fld := ⟨0x78, 0x140, 0, 48, 0, .rwe⟩

/-- R537. -/
def Reg.LBY_LBY_QP : Fld := ⟨0x78, 0x148, 0, 12, 0, .rwe⟩

/-- R537. -/
def Reg.LBY_LBY_TAG : Fld := ⟨0x78, 0x148, 16, 16, 0, .rwe⟩

/-- R537. -/
def Reg.LBY_KEY_PAGE : Fld := ⟨0x78, 0x14c, 0, 8, 0, .rwe⟩

/-- R537. -/
def Reg.LBY_PROT : Fld := ⟨0x78, 0x14c, 8, 1, 0, .rwe⟩

/-- R537. -/
def Reg.LBY_ACC_MASK : Fld := ⟨0x78, 0x150, 0, 8, 0, .rwe⟩

/-- R537. -/
def Reg.LBY_LBY_CH : Fld := ⟨0x78, 0x150, 8, 6, 0, .rwe⟩

/-- R537. -/
def Reg.LBY_MARK_AREA : Fld := ⟨0x78, 0x158, 0, 64, 0, .rwe⟩

/-- R537. -/
def Reg.LBY_PEER_RATE : Fld := ⟨0x78, 0x160, 0, 16, 50, .rwe⟩

/-- R537. -/
def Reg.LBY_DUR_RATE : Fld := ⟨0x78, 0x160, 16, 16, 25, .rwe⟩

/-- R537. -/
def Reg.LBY_STOP_WAIT_MS : Fld := ⟨0x78, 0x164, 0, 16, 30000, .rwe⟩

/-- R537. -/
def Reg.LBY_EPOCH_TIMEOUT_MS : Fld := ⟨0x78, 0x164, 16, 16, 10000, .rwe⟩

/-- R537. -/
def Reg.LBY_DUR_KIND : Fld := ⟨0x78, 0x168, 0, 2, 0, .rwe⟩

/-- R537. -/
def Reg.LBY_DUR_MODE : Fld := ⟨0x78, 0x168, 2, 1, 0, .rwe⟩

/-- R537. -/
def Reg.LBY_DUR_VOLUME : Fld := ⟨0x78, 0x168, 8, 6, 0, .rwe⟩

/-- R537. -/
def Reg.LBY_DUR_DEV : Fld := ⟨0x78, 0x168, 16, 16, 0, .rwe⟩

/-- R537. -/
def Reg.LBY_DUR_QP : Fld := ⟨0x78, 0x16c, 0, 12, 0, .rwe⟩

/-- R537. -/
def Reg.LBY_DUR_ADDR : Fld := ⟨0x78, 0x170, 0, 64, 0, .rwe⟩

/-- R537. -/
def Reg.LBY_DUR_KEY : Fld := ⟨0x78, 0x178, 0, 32, 0, .rwe⟩

/-- R537. -/
def Reg.LBY_DUR_SIZE : Fld := ⟨0x78, 0x180, 0, 48, 0, .rwe⟩

/-- R537. -/
def Reg.LBY_GO_ADDR (k : Nat) : Fld := ⟨0x78, 0x188 + 0x8 * k, 0, 64, 0, .rwe⟩

/-- R537. -/
def Reg.LBY_JOB_STATE : Fld := ⟨0x78, 0x200, 0, 3, 0, .ro⟩

/-- R537. -/
def Reg.LBY_LEADER : Fld := ⟨0x78, 0x204, 0, 16, 0, .ro⟩

/-- R537. -/
def Reg.LBY_PARTNER : Fld := ⟨0x78, 0x204, 16, 16, 0, .ro⟩

/-- R537. -/
def Reg.LBY_STEP : Fld := ⟨0x78, 0x208, 0, 40, 0, .ro⟩

/-- R537. -/
def Reg.LBY_CEILING : Fld := ⟨0x78, 0x210, 0, 40, 1099511627775, .ro⟩

/-- R537. -/
def Reg.LBY_COMMITTED : Fld := ⟨0x78, 0x218, 0, 64, 0, .ro⟩

/-- R537. -/
def Reg.LBY_DURABLE : Fld := ⟨0x78, 0x220, 0, 64, 0, .ro⟩

/-- R537. -/
def Reg.LBY_RECLAIM_DEADLINE : Fld := ⟨0x78, 0x228, 0, 64, 0, .rw⟩

/-- R537. -/
def Reg.LBY_RECLAIM_GO : Fld := ⟨0x78, 0x230, 31, 1, 0, .wo⟩

/-- R537. -/
def Reg.LBY_LBY_CMD : Fld := ⟨0x78, 0x234, 0, 3, 0, .wo⟩

/-- R537. -/
def Reg.LBY_LBY_GO : Fld := ⟨0x78, 0x234, 31, 1, 0, .wo⟩

/-- R537. -/
def Reg.LBY_CMD_RESULT : Fld := ⟨0x78, 0x238, 0, 8, 0, .ro⟩

/-- R537. -/
def Reg.LBY_CMD_BUSY : Fld := ⟨0x78, 0x238, 8, 1, 0, .ro⟩

/-- R537. -/
def Reg.LBY_SOURCE_TABLE : Fld := ⟨0x78, 0x240, 0, 64, 0, .rw⟩

/-- R537. -/
def Reg.LBY_SOURCE_COUNT : Fld := ⟨0x78, 0x248, 0, 16, 0, .rw⟩

/-- R537. -/
def Reg.LBY_DIVERGE_PICK : Fld := ⟨0x78, 0x248, 16, 16, 65535, .rw⟩

/-- R537. -/
def Reg.LBY_REPORT_ADDR : Fld := ⟨0x78, 0x250, 0, 64, 0, .rw⟩

/-- R537. -/
def Reg.LBY_CTR (k : Nat) : Fld := ⟨0x78, 0x280 + 0x8 * k, 0, 64, 0, .ro⟩

/-! ### Page WMK -/

/-- R560. -/
def Reg.WMK_CTX_SEL : Fld := ⟨0x79, 0x100, 0, 16, 0, .rw⟩

/-- R560. -/
def Reg.WMK_CTX_CMD : Fld := ⟨0x79, 0x104, 0, 2, 0, .wo⟩

/-- R560. -/
def Reg.WMK_CTX_GO : Fld := ⟨0x79, 0x104, 31, 1, 0, .wo⟩

/-- R560. -/
def Reg.WMK_OWNER : Fld := ⟨0x79, 0x108, 0, 16, 65535, .ro⟩

/-- R560. -/
def Reg.WMK_SPOILED : Fld := ⟨0x79, 0x108, 16, 1, 0, .ro⟩

/-- R560. -/
def Reg.WMK_CTX_RESULT : Fld := ⟨0x79, 0x108, 24, 8, 0, .ro⟩

/-- R560. -/
def Reg.WMK_SEED0 : Fld := ⟨0x79, 0x110, 0, 64, 0, .rw⟩

/-- R560. -/
def Reg.WMK_SEED1 : Fld := ⟨0x79, 0x118, 0, 64, 1, .rw⟩

/-- R560. -/
def Reg.WMK_SUM0 : Fld := ⟨0x79, 0x120, 0, 64, 0, .ro⟩

/-- R560. -/
def Reg.WMK_SUM1 : Fld := ⟨0x79, 0x128, 0, 64, 0, .ro⟩

/-- R560. -/
def Reg.WMK_ADDS : Fld := ⟨0x79, 0x130, 0, 64, 0, .ro⟩

/-! ### Page ETH -/

/-- R602. -/
def Reg.ETH_MODE (i : Nat) : Fld := ⟨0x20 + i, 0x100, 0, 2, 2, .rwe⟩

/-- R602. -/
def Reg.ETH_XOFF_KIB (i : Nat) : Fld := ⟨0x20 + i, 0x104, 0, 13, 4096, .rwe⟩

/-- R602. -/
def Reg.ETH_XON_KIB (i : Nat) : Fld := ⟨0x20 + i, 0x104, 16, 13, 2048, .rwe⟩

/-- R602. -/
def Reg.ETH_PORT_EN (i k : Nat) : Fld := ⟨0x20 + i, 0x200 + 0x80 * k, 0, 1, 0, .rwe⟩

/-- R602. -/
def Reg.ETH_LINK_UP (i k : Nat) : Fld := ⟨0x20 + i, 0x200 + 0x80 * k, 1, 1, 0, .ro⟩

/-- R602. -/
def Reg.ETH_PROMISC (i k : Nat) : Fld := ⟨0x20 + i, 0x200 + 0x80 * k, 2, 1, 0, .rw⟩

/-- R602. -/
def Reg.ETH_PFC_EN (i k : Nat) : Fld := ⟨0x20 + i, 0x200 + 0x80 * k, 8, 8, 0, .rwe⟩

/-- R602. -/
def Reg.ETH_MAX_FRAME (i k : Nat) : Fld := ⟨0x20 + i, 0x204 + 0x80 * k, 0, 14, 9216, .rwe⟩

/-- R602. -/
def Reg.ETH_MAC_ADDR (i k : Nat) : Fld := ⟨0x20 + i, 0x208 + 0x80 * k, 0, 48, 0, .rwe⟩

/-- R602. -/
def Reg.ETH_NEXTHOP_MAC (i k : Nat) : Fld := ⟨0x20 + i, 0x210 + 0x80 * k, 0, 48, 0, .rwe⟩

/-- R602. -/
def Reg.ETH_SRC_IP (i k : Nat) : Fld := ⟨0x20 + i, 0x218 + 0x80 * k, 0, 128, 0, .rwe⟩

/-- R602. -/
def Reg.ETH_CTR (i p k : Nat) : Fld := ⟨0x20 + i, 0x240 + 0x80 * p + 8 * k, 0, 64, 0, .ro⟩

/-! ### Page SEP -/

/-- R603. -/
def Reg.SEP_ACTIVE_BANK : Fld := ⟨0x28, 0x100, 0, 1, 0, .ro⟩

/-- R603. -/
def Reg.SEP_WIN_BANK : Fld := ⟨0x28, 0x100, 1, 1, 1, .rw⟩

/-- R603. -/
def Reg.SEP_SWAP : Fld := ⟨0x28, 0x104, 0, 1, 0, .wo⟩

/-- R603. -/
def Reg.SEP_COPY : Fld := ⟨0x28, 0x104, 1, 1, 0, .wo⟩

/-- R603. -/
def Reg.SEP_SWAP_BUSY : Fld := ⟨0x28, 0x104, 8, 1, 0, .ro⟩

/-- R603. -/
def Reg.SEP_SWAP_RESULT : Fld := ⟨0x28, 0x104, 16, 8, 0, .ro⟩

/-- R603. -/
def Reg.SEP_STALL_BASE : Fld := ⟨0x28, 0x108, 0, 13, 4096, .rwe⟩

/-- R603. -/
def Reg.SEP_FIRST_BAD_RULE : Fld := ⟨0x28, 0x10c, 0, 13, 0, .ro⟩

/-- R603. -/
def Reg.SEP_RXQ_TABLE : Fld := ⟨0x28, 0x110, 0, 64, 0, .rwe⟩

/-- R603. -/
def Reg.SEP_SLOW_QUEUE : Fld := ⟨0x28, 0x118, 0, 13, 0, .rwe⟩

/-- R603. -/
def Reg.SEP_HASH_KEY (k : Nat) : Fld := ⟨0x28, 0x120 + k, 0, 8, 0, .rw⟩

/-- R603. -/
def Reg.SEP_RXQ_INDEX : Fld := ⟨0x28, 0x160, 0, 13, 0, .wo⟩

/-- R603. -/
def Reg.SEP_RXQ_CMD : Fld := ⟨0x28, 0x160, 13, 1, 0, .wo⟩

/-- R603. -/
def Reg.SEP_RXQ_GO : Fld := ⟨0x28, 0x160, 31, 1, 0, .wo⟩

/-- R603. -/
def Reg.SEP_RXQ_RESULT : Fld := ⟨0x28, 0x164, 0, 8, 0, .ro⟩

/-- R603. -/
def Reg.SEP_RXQ_BUSY : Fld := ⟨0x28, 0x164, 8, 1, 0, .ro⟩

/-- R603. -/
def Reg.SEP_STG_VALUE (k : Nat) : Fld := ⟨0x28, 0x200 + k, 0, 8, 0, .rw⟩

/-- R603. -/
def Reg.SEP_STG_MASK (k : Nat) : Fld := ⟨0x28, 0x240 + k, 0, 8, 0, .rw⟩

/-- R603. -/
def Reg.SEP_STG_ACTION (k : Nat) : Fld := ⟨0x28, 0x280 + k, 0, 8, 0, .rw⟩

/-- R603. -/
def Reg.SEP_STG_OWNER : Fld := ⟨0x28, 0x290, 0, 16, 65535, .rw⟩

/-- R603. -/
def Reg.SEP_STG_RULE : Fld := ⟨0x28, 0x294, 0, 13, 0, .wo⟩

/-- R603. -/
def Reg.SEP_STG_CMD : Fld := ⟨0x28, 0x294, 16, 1, 0, .wo⟩

/-- R603. -/
def Reg.SEP_STG_GO : Fld := ⟨0x28, 0x294, 31, 1, 0, .wo⟩

/-- R603. -/
def Reg.SEP_STG_RESULT : Fld := ⟨0x28, 0x298, 0, 8, 0, .ro⟩

/-- R603. -/
def Reg.SEP_STG_BUSY : Fld := ⟨0x28, 0x298, 8, 1, 0, .ro⟩

/-- R603. -/
def Reg.SEP_DEF_KIND (k : Nat) : Fld := ⟨0x28, 0x300 + 0x4 * k, 0, 3, 0, .rw⟩

/-- R603. -/
def Reg.SEP_DEF_QUEUE (k : Nat) : Fld := ⟨0x28, 0x300 + 0x4 * k, 8, 13, 0, .rw⟩

/-- R603. -/
def Reg.SEP_TABLE_OWNER (k : Nat) : Fld := ⟨0x28, 0x340 + 0x2 * k, 0, 16, 65535, .rw⟩

/-- R603. -/
def Reg.SEP_CTR (k : Nat) : Fld := ⟨0x28, 0x540 + 0x8 * k, 0, 64, 0, .ro⟩

/-! ### Page TOL -/

/-- R627. -/
def Reg.TOL_Q_PORT : Fld := ⟨0x30, 0x100, 0, 4, 0, .rw⟩

/-- R627. -/
def Reg.TOL_Q_INDEX : Fld := ⟨0x30, 0x100, 8, 6, 0, .rw⟩

/-- R627. -/
def Reg.TOL_Q_CMD : Fld := ⟨0x30, 0x104, 0, 1, 0, .wo⟩

/-- R627. -/
def Reg.TOL_Q_GO : Fld := ⟨0x30, 0x104, 31, 1, 0, .wo⟩

/-- R627. -/
def Reg.TOL_Q_RESULT : Fld := ⟨0x30, 0x108, 0, 8, 0, .ro⟩

/-- R627. -/
def Reg.TOL_Q_BUSY : Fld := ⟨0x30, 0x108, 8, 1, 0, .ro⟩

/-- R627. -/
def Reg.TOL_CIR : Fld := ⟨0x30, 0x110, 0, 32, 0, .rw⟩

/-- R627. -/
def Reg.TOL_PIR : Fld := ⟨0x30, 0x114, 0, 32, 0, .rw⟩

/-- R627. -/
def Reg.TOL_CBS : Fld := ⟨0x30, 0x118, 0, 24, 0, .rw⟩

/-- R627. -/
def Reg.TOL_PBS : Fld := ⟨0x30, 0x11c, 0, 24, 0, .rw⟩

/-- R627. -/
def Reg.TOL_WEIGHT : Fld := ⟨0x30, 0x120, 0, 8, 0, .rw⟩

/-- R627. -/
def Reg.TOL_ROLE : Fld := ⟨0x30, 0x120, 8, 2, 0, .rw⟩

/-- R627. -/
def Reg.TOL_RESET_MODE : Fld := ⟨0x30, 0x120, 10, 1, 0, .rw⟩

/-- R627. -/
def Reg.TOL_METER_EN : Fld := ⟨0x30, 0x120, 11, 1, 0, .rw⟩

/-- R627. -/
def Reg.TOL_COLOUR_AWARE : Fld := ⟨0x30, 0x120, 12, 1, 0, .rw⟩

/-- R627. -/
def Reg.TOL_RED_DROP : Fld := ⟨0x30, 0x120, 13, 1, 0, .rw⟩

/-- R627. -/
def Reg.TOL_PFC_PRIO : Fld := ⟨0x30, 0x120, 16, 3, 0, .rw⟩

/-- R627. -/
def Reg.TOL_PFC_BOUND : Fld := ⟨0x30, 0x120, 19, 1, 0, .rw⟩

/-- R627. -/
def Reg.TOL_C_TOKENS : Fld := ⟨0x30, 0x128, 0, 64, 0, .ro⟩

/-- R627. -/
def Reg.TOL_P_TOKENS : Fld := ⟨0x30, 0x130, 0, 64, 0, .ro⟩

/-- R627. -/
def Reg.TOL_CTR (k : Nat) : Fld := ⟨0x30, 0x138 + 0x8 * k, 0, 64, 0, .ro⟩

/-- R627. -/
def Reg.TOL_SHP_SEL : Fld := ⟨0x30, 0x180, 0, 11, 0, .rw⟩

/-- R627. -/
def Reg.TOL_SHP_CMD : Fld := ⟨0x30, 0x184, 0, 1, 0, .wo⟩

/-- R627. -/
def Reg.TOL_SHP_GO : Fld := ⟨0x30, 0x184, 31, 1, 0, .wo⟩

/-- R627. -/
def Reg.TOL_SHP_RESULT : Fld := ⟨0x30, 0x188, 0, 8, 0, .ro⟩

/-- R627. -/
def Reg.TOL_SHP_BUSY : Fld := ⟨0x30, 0x188, 8, 1, 0, .ro⟩

/-- R627. -/
def Reg.TOL_SHP_RATE : Fld := ⟨0x30, 0x190, 0, 32, 0, .rw⟩

/-- R627. -/
def Reg.TOL_SHP_BURST : Fld := ⟨0x30, 0x194, 0, 24, 0, .rw⟩

/-- R627. -/
def Reg.TOL_SHP_WEIGHT : Fld := ⟨0x30, 0x198, 0, 8, 1, .rw⟩

/-- R627. -/
def Reg.TOL_SHP_EN : Fld := ⟨0x30, 0x198, 8, 1, 0, .rw⟩

/-- R627. -/
def Reg.TOL_SHP_RESET_MODE : Fld := ⟨0x30, 0x198, 9, 1, 0, .rw⟩

/-- R627. -/
def Reg.TOL_SHP_TOKENS : Fld := ⟨0x30, 0x1a0, 0, 64, 0, .ro⟩

/-- R627. -/
def Reg.TOL_CLASS_MAP (k : Nat) : Fld := ⟨0x30, 0x200 + 0x8 * k, 0, 48, 0, .rw⟩

/-- R627. -/
def Reg.TOL_QUANTUM : Fld := ⟨0x30, 0x280, 0, 16, 1024, .rwe⟩

/-- R627. -/
def Reg.TOL_NONSTALL_WEIGHT : Fld := ⟨0x30, 0x280, 16, 8, 16, .rwe⟩

/-- R627. -/
def Reg.TOL_AHN_CLASS : Fld := ⟨0x30, 0x284, 0, 3, 4, .rwe⟩

/-- R627. -/
def Reg.TOL_AHN_ACK_CLASS : Fld := ⟨0x30, 0x284, 4, 3, 0, .rwe⟩

/-- R627. -/
def Reg.TOL_RX_PRIO_MAP : Fld := ⟨0x30, 0x288, 0, 16, 43690, .rw⟩

/-- R627. -/
def Reg.TOL_TXQ_TABLE : Fld := ⟨0x30, 0x290, 0, 64, 0, .rwe⟩

/-- R627. -/
def Reg.TOL_TXQ_INDEX : Fld := ⟨0x30, 0x298, 0, 13, 0, .wo⟩

/-- R627. -/
def Reg.TOL_TXQ_CMD : Fld := ⟨0x30, 0x298, 13, 1, 0, .wo⟩

/-- R627. -/
def Reg.TOL_TXQ_GO : Fld := ⟨0x30, 0x298, 31, 1, 0, .wo⟩

/-- R627. -/
def Reg.TOL_TXQ_RESULT : Fld := ⟨0x30, 0x29c, 0, 8, 0, .ro⟩

/-- R627. -/
def Reg.TOL_TXQ_BUSY : Fld := ⟨0x30, 0x29c, 8, 1, 0, .ro⟩

/-! ### Page PAL -/

/-- R663. -/
def Reg.PAL_QUEUE_TABLE : Fld := ⟨0x80, 0x100, 0, 64, 0, .rwe⟩

/-- R663. -/
def Reg.PAL_STAGING : Fld := ⟨0x80, 0x108, 0, 64, 0, .rwe⟩

/-- R663. -/
def Reg.PAL_STAGING_LOG2 : Fld := ⟨0x80, 0x110, 0, 8, 22, .rwe⟩

/-- R663. -/
def Reg.PAL_ARRAY_STRIPES : Fld := ⟨0x80, 0x118, 0, 40, 0, .ro⟩

/-- R663. -/
def Reg.PAL_ARRAY_STATE : Fld := ⟨0x80, 0x120, 0, 3, 0, .ro⟩

/-- R663. -/
def Reg.PAL_MISSING : Fld := ⟨0x80, 0x120, 8, 8, 0, .ro⟩

/-- R663. -/
def Reg.PAL_REBUILD_SLOT : Fld := ⟨0x80, 0x124, 0, 3, 0, .wo⟩

/-- R663. -/
def Reg.PAL_REBUILD_GO : Fld := ⟨0x80, 0x124, 31, 1, 0, .wo⟩

/-- R663. -/
def Reg.PAL_REBUILD_RATE : Fld := ⟨0x80, 0x124, 16, 8, 4, .rw⟩

/-- R663. -/
def Reg.PAL_REBUILD_DONE : Fld := ⟨0x80, 0x128, 0, 40, 0, .ro⟩

/-- R663. -/
def Reg.PAL_LAST_REPAIR_STRIPE : Fld := ⟨0x80, 0x130, 0, 40, 0, .ro⟩

/-- R663. -/
def Reg.PAL_PS_CUR : Fld := ⟨0x80, 0x140, 0, 2, 0, .ro⟩

/-- R663. -/
def Reg.PAL_PS_MAX : Fld := ⟨0x80, 0x140, 4, 2, 3, .rw⟩

/-- R663. -/
def Reg.PAL_IDLE_PS1_US : Fld := ⟨0x80, 0x144, 0, 16, 1000, .rw⟩

/-- R663. -/
def Reg.PAL_IDLE_PS2_MS : Fld := ⟨0x80, 0x148, 0, 16, 100, .rw⟩

/-- R663. -/
def Reg.PAL_IDLE_PS3_MS : Fld := ⟨0x80, 0x148, 16, 16, 10000, .rw⟩

/-- R663. -/
def Reg.PAL_NVME_PS_MAP : Fld := ⟨0x80, 0x14c, 0, 32, 0, .rwe⟩

/-- R663. -/
def Reg.PAL_PQ_INDEX : Fld := ⟨0x80, 0x150, 0, 12, 0, .wo⟩

/-- R663. -/
def Reg.PAL_PQ_CMD : Fld := ⟨0x80, 0x150, 12, 1, 0, .wo⟩

/-- R663. -/
def Reg.PAL_PQ_GO : Fld := ⟨0x80, 0x150, 31, 1, 0, .wo⟩

/-- R663. -/
def Reg.PAL_PQ_RESULT : Fld := ⟨0x80, 0x154, 0, 8, 0, .ro⟩

/-- R663. -/
def Reg.PAL_PQ_BUSY : Fld := ⟨0x80, 0x154, 8, 1, 0, .ro⟩

/-- R663. -/
def Reg.PAL_CTR (k : Nat) : Fld := ⟨0x80, 0x180 + 0x8 * k, 0, 64, 0, .ro⟩

/-- R663. -/
def Reg.PAL_BASE_STRIPE (k : Nat) : Fld := ⟨0x80, 0x800 + 0x20 * k, 0, 40, 0, .rw⟩

/-- R663. -/
def Reg.PAL_STRIPES (k : Nat) : Fld := ⟨0x80, 0x808 + 0x20 * k, 0, 40, 0, .rw⟩

/-- R663. -/
def Reg.PAL_OWNER (k : Nat) : Fld := ⟨0x80, 0x810 + 0x20 * k, 0, 16, 65535, .rw⟩

/-- R663. -/
def Reg.PAL_GRANT (k : Nat) : Fld := ⟨0x80, 0x810 + 0x20 * k, 16, 12, 0, .rw⟩

/-- R663. -/
def Reg.PAL_VALID (k : Nat) : Fld := ⟨0x80, 0x810 + 0x20 * k, 31, 1, 0, .rw⟩

/-- R663. -/
def Reg.PAL_TEST_STATE (k : Nat) : Fld := ⟨0x80, 0x814 + 0x20 * k, 0, 2, 0, .ro⟩

/-- R663. -/
def Reg.PAL_TEST_DONE (k : Nat) : Fld := ⟨0x80, 0x818 + 0x20 * k, 0, 40, 0, .ro⟩

/-! ### Page KEY -/

/-- R672. -/
def Reg.KEY_OWNER (i : Nat) : Fld := ⟨0x1000 + i, 0x100, 0, 16, 65535, .rwe⟩

/-- R672. -/
def Reg.KEY_TX_SLOT (i : Nat) : Fld := ⟨0x1000 + i, 0x104, 0, 3, 0, .rw⟩

/-- R672. -/
def Reg.KEY_RX_SLOT_A (i : Nat) : Fld := ⟨0x1000 + i, 0x104, 4, 3, 0, .rw⟩

/-- R672. -/
def Reg.KEY_RX_SLOT_B (i : Nat) : Fld := ⟨0x1000 + i, 0x104, 8, 3, 0, .rw⟩

/-- R672. -/
def Reg.KEY_RX_B_EN (i : Nat) : Fld := ⟨0x1000 + i, 0x104, 11, 1, 0, .rw⟩

/-- R672. -/
def Reg.KEY_RX_QP (i : Nat) : Fld := ⟨0x1000 + i, 0x104, 16, 12, 0, .rwe⟩

/-- R672. -/
def Reg.KEY_RX_EN (i : Nat) : Fld := ⟨0x1000 + i, 0x104, 31, 1, 0, .rwe⟩

/-- R672. -/
def Reg.KEY_SLOT_STATE (i : Nat) : Fld := ⟨0x1000 + i, 0x108, 0, 32, 0, .ro⟩

/-- R672. -/
def Reg.KEY_KEY_GEN (i : Nat) : Fld := ⟨0x1000 + i, 0x10c, 0, 64, 0, .ro⟩

/-- R672. -/
def Reg.KEY_LD_SLOT (i : Nat) : Fld := ⟨0x1000 + i, 0x110, 0, 3, 0, .wo⟩

/-- R672. -/
def Reg.KEY_LD_TYPE (i : Nat) : Fld := ⟨0x1000 + i, 0x110, 4, 2, 0, .wo⟩

/-- R672. -/
def Reg.KEY_LD_GO (i : Nat) : Fld := ⟨0x1000 + i, 0x110, 31, 1, 0, .wo⟩

/-- R672. -/
def Reg.KEY_LD_RESULT (i : Nat) : Fld := ⟨0x1000 + i, 0x114, 0, 8, 0, .ro⟩

/-- R672. -/
def Reg.KEY_LD_BUSY (i : Nat) : Fld := ⟨0x1000 + i, 0x114, 8, 1, 0, .ro⟩

/-- R672. -/
def Reg.KEY_USE_LIMIT (i : Nat) : Fld := ⟨0x1000 + i, 0x118, 0, 64, (2 ^ 48), .rw⟩

/-- R672. -/
def Reg.KEY_KEY_DATA (i k : Nat) : Fld := ⟨0x1000 + i, 0x140 + k, 0, 8, 0, .wo⟩

/-- R672. -/
def Reg.KEY_USES (i k : Nat) : Fld := ⟨0x1000 + i, 0x180 + 0x8 * k, 0, 64, 0, .ro⟩

/-! ### Page CPH -/

/-- R688. -/
def Reg.CPH_ALARM_LATCH : Fld := ⟨0x88, 0x100, 0, 1, 0, .ro⟩

/-- R688. -/
def Reg.CPH_ALARM_CAUSE : Fld := ⟨0x88, 0x100, 4, 5, 0, .ro⟩

/-- R688. -/
def Reg.CPH_ALARM_CLEAR : Fld := ⟨0x88, 0x104, 0, 1, 0, .wo⟩

/-- R688. -/
def Reg.CPH_ERASE_ALL : Fld := ⟨0x88, 0x104, 1, 1, 0, .wo⟩

/-- R688. -/
def Reg.CPH_ALARM_TIME : Fld := ⟨0x88, 0x108, 0, 64, 0, .ro⟩

/-- R688. -/
def Reg.CPH_CTR (k : Nat) : Fld := ⟨0x88, 0x180 + 0x8 * k, 0, 64, 0, .ro⟩

/-! ### Page HEP -/

/-- R725. -/
def Reg.HEP_LINK_UP (i : Nat) : Fld := ⟨0x8 + i, 0x100, 0, 1, 0, .ro⟩

/-- R725. -/
def Reg.HEP_SPEED (i : Nat) : Fld := ⟨0x8 + i, 0x100, 1, 3, 0, .ro⟩

/-- R725. -/
def Reg.HEP_WIDTH (i : Nat) : Fld := ⟨0x8 + i, 0x100, 4, 5, 0, .ro⟩

/-- R725. -/
def Reg.HEP_LINK_STATE (i : Nat) : Fld := ⟨0x8 + i, 0x100, 9, 3, 0, .ro⟩

/-- R725. -/
def Reg.HEP_FLR_BUSY (i : Nat) : Fld := ⟨0x8 + i, 0x104, 0, 4, 0, .ro⟩

/-- R725. -/
def Reg.HEP_DSTATE (i : Nat) : Fld := ⟨0x8 + i, 0x108, 0, 8, 0, .ro⟩

/-- R725. -/
def Reg.HEP_PROPAGATE (i : Nat) : Fld := ⟨0x8 + i, 0x10c, 0, 1, 1, .rw⟩

/-- R725. -/
def Reg.HEP_WAKE_MASK (i : Nat) : Fld := ⟨0x8 + i, 0x110, 0, 4, 0, .rw⟩

/-- R725. -/
def Reg.HEP_APERTURE_BASE (i : Nat) : Fld := ⟨0x8 + i, 0x118, 0, 64, 0, .rw⟩

/-- R725. -/
def Reg.HEP_CTR (i k : Nat) : Fld := ⟨0x8 + i, 0x180 + 0x8 * k, 0, 64, 0, .ro⟩

/-! ### Page SPR -/

/-- R726. -/
def Reg.SPR_BIND_HOST (i : Nat) : Fld := ⟨0x10 + i, 0x100, 0, 1, (i / 4), .rwg⟩

/-- R726. -/
def Reg.SPR_P2P_EN (i : Nat) : Fld := ⟨0x10 + i, 0x100, 1, 1, 1, .rwe⟩

/-- R726. -/
def Reg.SPR_LINK_FIELDS (i : Nat) : Fld := ⟨0x10 + i, 0x104, 0, 12, 0, .ro⟩

/-- R726. -/
def Reg.SPR_ACC_BAR_ADDR (i : Nat) : Fld := ⟨0x10 + i, 0x108, 0, 64, 0, .rw⟩

/-- R726. -/
def Reg.SPR_ACC_WIN_SIZE (i : Nat) : Fld := ⟨0x10 + i, 0x110, 0, 48, 0, .rw⟩

/-- R726. -/
def Reg.SPR_IW_BASE (i k : Nat) : Fld := ⟨0x10 + i, 0x200 + 0x20 * k, 0, 64, 0, .rwe⟩

/-- R726. -/
def Reg.SPR_IW_SIZE (i k : Nat) : Fld := ⟨0x10 + i, 0x208 + 0x20 * k, 0, 48, 0, .rwe⟩

/-- R726. -/
def Reg.SPR_IW_TARGET (i k : Nat) : Fld := ⟨0x10 + i, 0x210 + 0x20 * k, 0, 64, 0, .rwe⟩

/-- R726. -/
def Reg.SPR_IW_READ (i k : Nat) : Fld := ⟨0x10 + i, 0x218 + 0x20 * k, 0, 1, 0, .rwe⟩

/-- R726. -/
def Reg.SPR_IW_WRITE (i k : Nat) : Fld := ⟨0x10 + i, 0x218 + 0x20 * k, 1, 1, 0, .rwe⟩

/-- R726. -/
def Reg.SPR_CTR (i k : Nat) : Fld := ⟨0x10 + i, 0x180 + 0x8 * k, 0, 64, 0, .ro⟩

/-! ### Page SSD -/

/-- R728. -/
def Reg.SSD_LINK_FIELDS (i : Nat) : Fld := ⟨0x18 + i, 0x100, 0, 12, 0, .ro⟩

/-- R728. -/
def Reg.SSD_PRESENT (i : Nat) : Fld := ⟨0x18 + i, 0x100, 12, 1, 0, .ro⟩

/-- R728. -/
def Reg.SSD_CTR (i k : Nat) : Fld := ⟨0x18 + i, 0x180 + 0x8 * k, 0, 64, 0, .ro⟩

/-! ### Page STL -/

/-- R754. -/
def Reg.STL_STALLS_USED : Fld := ⟨0x90, 0x100, 0, 12, 0, .ro⟩

/-- R754. -/
def Reg.STL_STALL_TABLE : Fld := ⟨0x90, 0x108, 0, 64, 0, .rwe⟩

/-- R754. -/
def Reg.STL_SERVICE_AREA : Fld := ⟨0x90, 0x110, 0, 64, 0, .rwe⟩

/-- R754. -/
def Reg.STL_CMD : Fld := ⟨0x90, 0x200, 0, 4, 0, .wo⟩

/-- R754. -/
def Reg.STL_CMD_STALL : Fld := ⟨0x90, 0x200, 4, 11, 0, .wo⟩

/-- R754. -/
def Reg.STL_CMD_GO : Fld := ⟨0x90, 0x200, 31, 1, 0, .wo⟩

/-- R754. -/
def Reg.STL_CMD_RESULT : Fld := ⟨0x90, 0x204, 0, 8, 0, .ro⟩

/-- R754. -/
def Reg.STL_CMD_BUSY : Fld := ⟨0x90, 0x204, 8, 1, 0, .ro⟩

/-- R754. -/
def Reg.STL_CMD_DETAIL : Fld := ⟨0x90, 0x204, 16, 16, 0, .ro⟩

/-- R754. -/
def Reg.STL_CMD_ADDR : Fld := ⟨0x90, 0x208, 0, 64, 0, .rw⟩

/-- R754. -/
def Reg.STL_CMD_PASID : Fld := ⟨0x90, 0x210, 0, 20, 0, .rw⟩

/-- R754. -/
def Reg.STL_CTR (k : Nat) : Fld := ⟨0x90, 0x180 + 0x8 * k, 0, 64, 0, .ro⟩

/-! ### Page BOOT -/

/-- R783. -/
def Reg.BOOT_BOOT_STATE : Fld := ⟨0x5, 0x100, 0, 4, 0, .ro⟩

/-- R783. -/
def Reg.BOOT_BOOT_SOURCE : Fld := ⟨0x5, 0x100, 4, 2, 0, .ro⟩

/-- R783. -/
def Reg.BOOT_BOOT_CAUSE : Fld := ⟨0x5, 0x100, 8, 3, 0, .ro⟩

/-- R783. -/
def Reg.BOOT_FAILED_SOURCES : Fld := ⟨0x5, 0x100, 12, 3, 0, .ro⟩

/-- R783. -/
def Reg.BOOT_FW_VERSION : Fld := ⟨0x5, 0x104, 0, 32, 0, .ro⟩

/-- R783. -/
def Reg.BOOT_FW_SVN : Fld := ⟨0x5, 0x108, 0, 8, 0, .ro⟩

/-- R783. -/
def Reg.BOOT_FW_KEY_SLOT : Fld := ⟨0x5, 0x108, 8, 2, 0, .ro⟩

/-- R783. -/
def Reg.BOOT_ROLLBACK_COUNT : Fld := ⟨0x5, 0x108, 16, 7, 0, .ro⟩

/-- R783. -/
def Reg.BOOT_KEY_PROGRAMMED : Fld := ⟨0x5, 0x108, 24, 4, 0xF, .ro⟩

/-- R783. -/
def Reg.BOOT_KEY_REVOKED : Fld := ⟨0x5, 0x108, 28, 4, 0, .ro⟩

/-- R783. -/
def Reg.BOOT_ROM_VERSION : Fld := ⟨0x5, 0x10c, 0, 32, 0, .ro⟩

/-- R783. -/
def Reg.BOOT_IMG_VERSION (k : Nat) : Fld := ⟨0x5, 0x110 + 0x8 * k, 0, 32, 0, .ro⟩

/-- R783. -/
def Reg.BOOT_IMG_SVN (k : Nat) : Fld := ⟨0x5, 0x114 + 0x8 * k, 0, 8, 0, .ro⟩

/-- R783. -/
def Reg.BOOT_IMG_KEY (k : Nat) : Fld := ⟨0x5, 0x114 + 0x8 * k, 8, 2, 0, .ro⟩

/-- R783. -/
def Reg.BOOT_IMG_VALID (k : Nat) : Fld := ⟨0x5, 0x114 + 0x8 * k, 16, 1, 0, .ro⟩

/-- R783. -/
def Reg.BOOT_IMG_TRIAL (k : Nat) : Fld := ⟨0x5, 0x114 + 0x8 * k, 17, 1, 0, .ro⟩

/-- R783. -/
def Reg.BOOT_BOOT_COUNT : Fld := ⟨0x5, 0x130, 0, 32, 0, .ro⟩

/-- R783. -/
def Reg.BOOT_BOOT_TIME_US : Fld := ⟨0x5, 0x134, 0, 32, 0, .ro⟩

/-- R783. -/
def Reg.BOOT_UPD_ADDR : Fld := ⟨0x5, 0x140, 0, 64, 0, .rw⟩

/-- R783. -/
def Reg.BOOT_UPD_LEN : Fld := ⟨0x5, 0x148, 0, 23, 0, .rw⟩

/-- R783. -/
def Reg.BOOT_UPD_CMD : Fld := ⟨0x5, 0x14c, 0, 4, 0, .wo⟩

/-- R783. -/
def Reg.BOOT_UPD_KEY_SLOT : Fld := ⟨0x5, 0x14c, 8, 2, 0, .wo⟩

/-- R783. -/
def Reg.BOOT_UPD_GO : Fld := ⟨0x5, 0x14c, 31, 1, 0, .wo⟩

/-- R783. -/
def Reg.BOOT_UPD_RESULT : Fld := ⟨0x5, 0x150, 0, 8, 0, .ro⟩

/-- R783. -/
def Reg.BOOT_UPD_BUSY : Fld := ⟨0x5, 0x150, 8, 1, 0, .ro⟩

/-- R783. -/
def Reg.BOOT_HANDOVER_US : Fld := ⟨0x5, 0x154, 0, 32, 0, .ro⟩

/-! ### Page PWR -/

/-- R810. -/
def Reg.PWR_WAKE_WAIT_US : Fld := ⟨0x2, 0x100, 0, 16, 100, .rwg⟩

/-- R810. -/
def Reg.PWR_WAKE_PER_US : Fld := ⟨0x2, 0x100, 16, 8, 16, .rwg⟩

/-- R810. -/
def Reg.PWR_CLUSTER_IDLE_US : Fld := ⟨0x2, 0x104, 0, 16, 0, .rwg⟩

/-- R810. -/
def Reg.PWR_WAYSIDE_IDLE_US : Fld := ⟨0x2, 0x104, 16, 16, 0, .rwg⟩

/-- R810. -/
def Reg.PWR_PLL_ON : Fld := ⟨0x2, 0x108, 0, 4, 0, .ro⟩

/-- R810. -/
def Reg.PWR_LAST_REFUSED : Fld := ⟨0x2, 0x10c, 0, 9, 0, .ro⟩

/-- R810. -/
def Reg.PWR_REFUSE_CAUSE : Fld := ⟨0x2, 0x10c, 12, 3, 0, .ro⟩

/-- R810. -/
def Reg.PWR_DOM_AWAKE (w : Nat) : Fld := ⟨0x2, 0x120 + 0x4 * w, 0, 32, 0, .ro⟩

/-- R810. -/
def Reg.PWR_CTR (k : Nat) : Fld := ⟨0x2, 0x180 + 0x8 * k, 0, 64, 0, .ro⟩

/-! ### Page THM -/

/-- R811. -/
def Reg.THM_TEMP (k : Nat) : Fld := ⟨0x3, 0x100 + 0x4 * k, 0, 16, 0, .ro⟩

/-- R811. -/
def Reg.THM_VALID (k : Nat) : Fld := ⟨0x3, 0x100 + 0x4 * k, 31, 1, 0, .ro⟩

/-- R811. -/
def Reg.THM_STEP (r : Nat) : Fld := ⟨0x3, 0x300, 4 * r, 4, 0, .ro⟩

/-- R811. -/
def Reg.THM_FW_STEP (r : Nat) : Fld := ⟨0x3, 0x304, 4 * r, 4, 0, .rw⟩

/-- R811. -/
def Reg.THM_HW_STEP (r : Nat) : Fld := ⟨0x3, 0x308, 4 * r, 4, 0, .ro⟩

/-- R811. -/
def Reg.THM_POWER_CAP_W : Fld := ⟨0x3, 0x30c, 0, 16, 850, .rw⟩

/-- R811. -/
def Reg.THM_TJ_TARGET_C : Fld := ⟨0x3, 0x30c, 16, 16, 95, .rw⟩

/-- R811. -/
def Reg.THM_INPUT_W : Fld := ⟨0x3, 0x310, 0, 16, 0, .ro⟩

/-- R811. -/
def Reg.THM_AVG10_W : Fld := ⟨0x3, 0x310, 16, 16, 0, .ro⟩

/-- R811. -/
def Reg.THM_TRIPPED : Fld := ⟨0x3, 0x314, 0, 1, 0, .ro⟩

/-- R811. -/
def Reg.THM_TRIP_SENSOR : Fld := ⟨0x3, 0x314, 8, 7, 0, .ro⟩

/-! ### Page MEM -/

/-- R841. -/
def Reg.MEM_CORR_THRESHOLD (i : Nat) : Fld := ⟨0xa0 + i, 0x300, 0, 16, 16, .rwg⟩

/-- R841. -/
def Reg.MEM_SPARES_LEFT (i k : Nat) : Fld := ⟨0xa0 + i, 0x304 + 0x4 * k, 0, 6, (if i = 6 then 32 else 16), .ro⟩

/-- R841. -/
def Reg.MEM_RETIRED_ADDR (i k : Nat) : Fld := ⟨0xa0 + i, 0x600 + 0x8 * k, 0, 48, 0, .ro⟩

/-- R841. -/
def Reg.MEM_RETIRED_ACTIVITY (i k : Nat) : Fld := ⟨0xa0 + i, 0x600 + 0x8 * k, 56, 4, 0, .ro⟩

/-- R841. -/
def Reg.MEM_RETIRED_VALID (i k : Nat) : Fld := ⟨0xa0 + i, 0x600 + 0x8 * k, 63, 1, 0, .ro⟩

/-! ### Page RST -/

/-- R842. -/
def Reg.RST_RST_KIND : Fld := ⟨0x4, 0x100, 0, 4, 0, .rwg⟩

/-- R842. -/
def Reg.RST_RST_TARGET : Fld := ⟨0x4, 0x100, 8, 20, 0, .rwg⟩

/-- R842. -/
def Reg.RST_RST_GO : Fld := ⟨0x4, 0x100, 31, 1, 0, .wo⟩

/-- R842. -/
def Reg.RST_RST_RESULT : Fld := ⟨0x4, 0x104, 0, 8, 0, .ro⟩

/-- R842. -/
def Reg.RST_RST_BUSY : Fld := ⟨0x4, 0x104, 8, 1, 0, .ro⟩

/-- R842. -/
def Reg.RST_SAFE_STATE : Fld := ⟨0x4, 0x108, 0, 1, 0, .ro⟩

/-- R842. -/
def Reg.RST_FAULT_HOLD : Fld := ⟨0x4, 0x108, 1, 1, 0, .rwg⟩

/-- R842. -/
def Reg.RST_FAULT_PULSE : Fld := ⟨0x4, 0x108, 2, 1, 0, .ro⟩

/-- R842. -/
def Reg.RST_FAULT_PIN : Fld := ⟨0x4, 0x108, 3, 1, 0, .ro⟩

/-- R842. -/
def Reg.RST_AUTO_RECOVER : Fld := ⟨0x4, 0x10c, 0, 1, 1, .rwg⟩

/-- R842. -/
def Reg.RST_ENG_WDOG_US : Fld := ⟨0x4, 0x110, 0, 16, 10000, .rwg⟩

/-- R842. -/
def Reg.RST_WDOG_BLOCK : Fld := ⟨0x4, 0x114, 0, 16, 0, .ro⟩

/-- R842. -/
def Reg.RST_FATAL_CAUSE : Fld := ⟨0x4, 0x118, 0, 4, 0, .ro⟩

/-- R842. -/
def Reg.RST_CAPTURE_BASE : Fld := ⟨0x4, 0x120, 0, 64, 0, .rwg⟩

/-- R842. -/
def Reg.RST_CAPTURE_LOG2 : Fld := ⟨0x4, 0x128, 0, 5, 10, .rwg⟩

/-- R842. -/
def Reg.RST_CAPTURE_HEAD : Fld := ⟨0x4, 0x12c, 0, 32, 0, .ro⟩

/-- R842. -/
def Reg.RST_LAST_KIND : Fld := ⟨0x4, 0x130, 0, 4, 0, .ro⟩

/-- R842. -/
def Reg.RST_LAST_TARGET : Fld := ⟨0x4, 0x130, 8, 20, 0, .ro⟩

/-- R842. -/
def Reg.RST_LAST_TIME : Fld := ⟨0x4, 0x138, 0, 64, 0, .ro⟩

/-- R842. -/
def Reg.RST_CTR (k : Nat) : Fld := ⟨0x4, 0x180 + 0x8 * k, 0, 64, 0, .ro⟩

/-! ### Page MST -/

/-- R870. -/
def Reg.MST_MS_TIME : Fld := ⟨0x6, 0x100, 0, 64, 0, .ro⟩

/-- R870. -/
def Reg.MST_DISC_SRC : Fld := ⟨0x6, 0x108, 0, 2, 0, .rw⟩

/-- R870. -/
def Reg.MST_TIME_STATE : Fld := ⟨0x6, 0x108, 4, 2, 0, .ro⟩

/-- R870. -/
def Reg.MST_FREQ_TRIM : Fld := ⟨0x6, 0x10c, 0, 32, 0, .rw⟩

/-- R870. -/
def Reg.MST_STEP_NS : Fld := ⟨0x6, 0x110, 0, 64, 0, .wo⟩

/-- R870. -/
def Reg.MST_PPS_CAPTURE : Fld := ⟨0x6, 0x118, 0, 64, 0, .ro⟩

/-- R870. -/
def Reg.MST_TIME_ERR_NS : Fld := ⟨0x6, 0x120, 0, 32, 0, .rw⟩

/-- R870. -/
def Reg.MST_EXPORT_ADDR : Fld := ⟨0x6, 0x130, 0, 128, 0, .rw⟩

/-- R870. -/
def Reg.MST_EXPORT_PORT : Fld := ⟨0x6, 0x140, 0, 16, 47266, .rw⟩

/-- R870. -/
def Reg.MST_EXPORT_EN : Fld := ⟨0x6, 0x140, 16, 1, 0, .rw⟩

/-- R870. -/
def Reg.MST_EXPORT_HOLD_MS : Fld := ⟨0x6, 0x140, 24, 8, 100, .rw⟩

/-- R870. -/
def Reg.MST_SENSOR_PERIOD_MS : Fld := ⟨0x6, 0x144, 0, 16, 1000, .rw⟩

/-- R870. -/
def Reg.MST_COUNTER_PERIOD_S : Fld := ⟨0x6, 0x144, 16, 16, 60, .rw⟩

/-- R870. -/
def Reg.MST_TEL_SEQ : Fld := ⟨0x6, 0x148, 0, 32, 0, .ro⟩

/-- R870. -/
def Reg.MST_TEL_LOST : Fld := ⟨0x6, 0x14c, 0, 32, 0, .ro⟩

/-- R870. -/
def Reg.MST_PUB_POLL_US : Fld := ⟨0x6, 0x150, 0, 16, 100, .rw⟩

/-- R870. -/
def Reg.MST_CTR (k : Nat) : Fld := ⟨0x6, 0x180 + 0x8 * k, 0, 64, 0, .ro⟩

/-- R870. -/
def Reg.MST_PUB_BASE (k : Nat) : Fld := ⟨0x6, 0x400 + 0x20 * k, 0, 64, 0, .rw⟩

/-- R870. -/
def Reg.MST_PUB_LOG2 (k : Nat) : Fld := ⟨0x6, 0x408 + 0x20 * k, 0, 4, 0, .rw⟩

/-- R870. -/
def Reg.MST_PUB_LOC (k : Nat) : Fld := ⟨0x6, 0x408 + 0x20 * k, 4, 2, 0, .rw⟩

/-- R870. -/
def Reg.MST_PUB_EN (k : Nat) : Fld := ⟨0x6, 0x408 + 0x20 * k, 6, 1, 0, .rw⟩

/-- R870. -/
def Reg.MST_PUB_OWNER (k : Nat) : Fld := ⟨0x6, 0x408 + 0x20 * k, 16, 16, 65535, .ro⟩

/-- R870. -/
def Reg.MST_PUB_CONSUMED (k : Nat) : Fld := ⟨0x6, 0x410 + 0x20 * k, 0, 32, 0, .ro⟩

/-! ### Page SBI -/

/-- R871. -/
def Reg.SBI_UART_BAUD : Fld := ⟨0xb0, 0x100, 0, 22, 115200, .rw⟩

/-- R871. -/
def Reg.SBI_PARITY : Fld := ⟨0xb0, 0x100, 24, 2, 0, .rw⟩

/-- R871. -/
def Reg.SBI_STOP2 : Fld := ⟨0xb0, 0x100, 26, 1, 0, .rw⟩

/-- R871. -/
def Reg.SBI_DATA7 : Fld := ⟨0xb0, 0x100, 27, 1, 0, .rw⟩

/-- R871. -/
def Reg.SBI_UART_TX : Fld := ⟨0xb0, 0x104, 0, 8, 0, .wo⟩

/-- R871. -/
def Reg.SBI_DATA : Fld := ⟨0xb0, 0x108, 0, 8, 0, .ro⟩

/-- R871. -/
def Reg.SBI_FE : Fld := ⟨0xb0, 0x108, 8, 1, 0, .ro⟩

/-- R871. -/
def Reg.SBI_BREAK : Fld := ⟨0xb0, 0x108, 9, 1, 0, .ro⟩

/-- R871. -/
def Reg.SBI_PE : Fld := ⟨0xb0, 0x108, 10, 1, 0, .ro⟩

/-- R871. -/
def Reg.SBI_RX_VALID : Fld := ⟨0xb0, 0x108, 31, 1, 0, .ro⟩

/-- R871. -/
def Reg.SBI_RX_LEVEL : Fld := ⟨0xb0, 0x10c, 0, 7, 0, .ro⟩

/-- R871. -/
def Reg.SBI_TX_LEVEL : Fld := ⟨0xb0, 0x10c, 8, 7, 0, .ro⟩

/-- R871. -/
def Reg.SBI_SMB_ADDR : Fld := ⟨0xb0, 0x140, 0, 7, 0x64, .rw⟩

/-- R871. -/
def Reg.SBI_SMB_SPEED : Fld := ⟨0xb0, 0x140, 8, 2, 0, .rw⟩

/-- R871. -/
def Reg.SBI_MGMT_MAC : Fld := ⟨0xb0, 0x180, 0, 48, 0, .rw⟩

/-- R871. -/
def Reg.SBI_MGMT_LINK : Fld := ⟨0xb0, 0x188, 0, 1, 0, .ro⟩

/-- R871. -/
def Reg.SBI_MGMT_SPEED : Fld := ⟨0xb0, 0x188, 1, 2, 0, .ro⟩

/-- R871. -/
def Reg.SBI_MGMT_PEER : Fld := ⟨0xb0, 0x190, 0, 128, 0, .rw⟩

/-- R871. -/
def Reg.SBI_JTAG_STATE : Fld := ⟨0xb0, 0x1e0, 0, 1, 0, .ro⟩

/-- R871. -/
def Reg.SBI_JTAG_SCOPE : Fld := ⟨0xb0, 0x1e0, 4, 4, 0, .ro⟩

/-- R871. -/
def Reg.SBI_JTAG_FAILS : Fld := ⟨0xb0, 0x1e0, 8, 2, 0, .ro⟩

/-- R892. -/
def Reg.SBI_PWR_EN_IN : Fld := ⟨0xb0, 0x200, 0, 1, 1, .ro⟩

/-- R892. -/
def Reg.SBI_COOLANT_OK_IN : Fld := ⟨0xb0, 0x200, 1, 1, 0, .ro⟩

/-- R892. -/
def Reg.SBI_PERST_IN : Fld := ⟨0xb0, 0x200, 2, 2, 0, .ro⟩

/-- R892. -/
def Reg.SBI_PPS_SEEN : Fld := ⟨0xb0, 0x200, 4, 1, 0, .ro⟩

/-- R892. -/
def Reg.SBI_MGMT_VSEL : Fld := ⟨0xb0, 0x200, 5, 1, 0, .ro⟩

/-- R892. -/
def Reg.SBI_SSD_PRSNT : Fld := ⟨0xb0, 0x200, 8, 8, 0, .ro⟩

/-- R892. -/
def Reg.SBI_INPUT_V : Fld := ⟨0xb0, 0x204, 0, 16, 0, .ro⟩

/-- R892. -/
def Reg.SBI_INPUT_A : Fld := ⟨0xb0, 0x204, 16, 16, 0, .ro⟩

/-- The fields of the common header that the dword at offset `off` of page `p` holds (R59). -/
def hdrFields (p off : Nat) : List Fld :=
  if off = 0x0 then [Hdr.INSTANCE p, Hdr.BLOCK_TYPE p]
  else if off = 0x4 then [Hdr.MINOR p, Hdr.MAJOR p]
  else if off = 0x8 then [Hdr.EN p, Hdr.QUIESCE p, Hdr.FENCE p, Hdr.SLEEP_OK p, Hdr.DRV_MAJOR p]
  else if off = 0xC then [Hdr.STATE p, Hdr.IDLE p]
  else if off = 0x10 then [Hdr.REFUSAL_CODE p, Hdr.REFUSAL_OFFSET p]
  else if off = 0x14 then [Hdr.ERR_STATUS p]
  else if off = 0x18 then [Hdr.ERR_ENABLE p]
  else if off = 0x1C then [Hdr.FIRST_CODE p, Hdr.FIRST_SEVERITY p, Hdr.FIRST_VALID p]
  else if off = 0x20 ∨ off = 0x24 then [Hdr.FIRST_TIME p]
  else if off = 0x28 then [Hdr.ERR_COUNT p, Hdr.COUNT_CLEAR p]
  else if off = 0x2C then [Hdr.VEC_HOST0 p, Hdr.EN_HOST0 p, Hdr.VEC_HOST1 p, Hdr.EN_HOST1 p]
  else if off = 0x30 then [Hdr.SEM p, Hdr.GUARDED p]
  else if off = 0x34 then [Hdr.DOMAIN p, Hdr.IDLE_US p]
  else []

/-- The fields that the dword at offset `off` of page MEM holds. -/
def fieldsMEM (i off : Nat) : List Fld :=
  if off = 0x300 then [Reg.MEM_CORR_THRESHOLD i]
  else if 0x100 ≤ off ∧ off < 0x200 then let k := (off - 0x100) / 4; [Reg.MEM_ACTIVITY i k, Reg.MEM_SCRUBBING i k]
  else if 0x304 ≤ off ∧ off < 0x404 then let k := (off - 0x304) / 4; [Reg.MEM_SPARES_LEFT i k]
  else if 0x600 ≤ off ∧ off < 0xa00 then let k := (off - 0x600) / 0x8; let o := (off - 0x600) % 0x8
      if o = 0x0 then [Reg.MEM_RETIRED_ADDR i k] else if o = 0x4 then [Reg.MEM_RETIRED_ADDR i k, Reg.MEM_RETIRED_ACTIVITY i k, Reg.MEM_RETIRED_VALID i k] else []
  else []

/-- The fields that the dword at offset `off` of page CRS holds. -/
def fieldsCRS (off : Nat) : List Fld :=
  if 0x100 ≤ off ∧ off < 0x300 then let k := (off - 0x100) / 0x8; let o := (off - 0x100) % 0x8
      if o = 0x0 then [Reg.CRS_GRANTED k, Reg.CRS_ABANDONED k, Reg.CRS_OWNER k, Reg.CRS_SEQUENCE k] else []
  else []

/-- The fields that the dword at offset `off` of page CHN holds. -/
def fieldsCHN (off : Nat) : List Fld :=
  if off = 0x100 then [Reg.CHN_ENABLED, Reg.CHN_GRADE]
  else if off = 0x104 then [Reg.CHN_FLOOR]
  else if off = 0x108 then [Reg.CHN_SPARES]
  else if off = 0x10c then [Reg.CHN_RESTART_POOL, Reg.CHN_RESTART_MEMBER]
  else if off = 0x110 then [Reg.CHN_FAILED_CORE, Reg.CHN_REPLACEMENT]
  else if off = 0x114 then [Reg.CHN_REISSUE_POOL, Reg.CHN_REISSUE_MEMBER]
  else if 0x120 ≤ off ∧ off < 0x14c then let k := (off - 0x120) / 4; [Reg.CHN_DUM k]
  else if 0x160 ≤ off ∧ off < 0x18c then let k := (off - 0x160) / 4; [Reg.CHN_FAILED k]
  else if 0x200 ≤ off ∧ off < 0x350 then [Reg.CHN_POOL_OF (off - 0x200), Reg.CHN_POOL_OF (off - 0x200 + 1), Reg.CHN_POOL_OF (off - 0x200 + 2), Reg.CHN_POOL_OF (off - 0x200 + 3)]
  else if 0x400 ≤ off ∧ off < 0x800 then let k := (off - 0x400) / 0x20; let o := (off - 0x400) % 0x20
      if o = 0x0 then [Reg.CHN_KIND k, Reg.CHN_AUTO_RESTART k, Reg.CHN_STALL k, Reg.CHN_CORE_COUNT k] else if o = 0x8 then [Reg.CHN_IMAGE k] else if o = 0xc then [Reg.CHN_IMAGE k] else if o = 0x10 then [Reg.CHN_RESTART k] else if o = 0x14 then [Reg.CHN_RESTART k] else []
  else []

/-- The fields that the dword at offset `off` of page CC holds. -/
def fieldsCC (i off : Nat) : List Fld :=
  if off = 0x100 then [Reg.CC_POOL i, Reg.CC_MEMBER i, Reg.CC_SPARE i]
  else if off = 0x104 then [Reg.CC_RUN_STATE i, Reg.CC_START i, Reg.CC_STOP i, Reg.CC_HALT_CODE i]
  else if off = 0x108 then [Reg.CC_ENTRY i]
  else if off = 0x10c then [Reg.CC_TRAP_CAUSE i, Reg.CC_TRAP_PC i]
  else if off = 0x110 then [Reg.CC_WDOG_LIMIT i]
  else if off = 0x118 then [Reg.CC_CYCLES i]
  else if off = 0x11c then [Reg.CC_CYCLES i]
  else if off = 0x120 then [Reg.CC_RETIRED i]
  else if off = 0x124 then [Reg.CC_RETIRED i]
  else if off = 0x128 then [Reg.CC_MARK_PC i, Reg.CC_MARK_COUNT i]
  else if 0x140 ≤ off ∧ off < 0x160 then let k := (off - 0x140) / 4; [Reg.CC_IN_LINE i k, Reg.CC_IN_BOUND i k, Reg.CC_IN_COUNT i k]
  else if 0x160 ≤ off ∧ off < 0x170 then let k := (off - 0x160) / 4; [Reg.CC_OUT_LINE i k, Reg.CC_OUT_BOUND i k]
  else []

/-- The fields that the dword at offset `off` of page MOV holds. -/
def fieldsMOV (i off : Nat) : List Fld :=
  if off = 0x100 then [Reg.MOV_KIND i, Reg.MOV_PORT i]
  else if off = 0x108 then [Reg.MOV_ACTIVE i]
  else if off = 0x10c then [Reg.MOV_ACTIVE i]
  else if off = 0x110 then [Reg.MOV_ABORTED i]
  else if off = 0x114 then [Reg.MOV_ABORTED i]
  else if off = 0x118 then [Reg.MOV_WDOG_LIMIT i]
  else if off = 0x11c then [Reg.MOV_RESET_CH i, Reg.MOV_RESET_GO i]
  else if 0x400 ≤ off ∧ off < 0xc00 then let k := (off - 0x400) / 0x20; let o := (off - 0x400) % 0x20
      if o = 0x0 then [Reg.MOV_LOG2_N i k, Reg.MOV_BASE i k] else if o = 0x4 then [Reg.MOV_BASE i k] else if o = 0x8 then [Reg.MOV_CH_EN i k, Reg.MOV_ABORT i k, Reg.MOV_RESUME i k, Reg.MOV_PRIO_CAP i k] else if o = 0xc then [Reg.MOV_OWNER i k, Reg.MOV_GEN i k] else if o = 0x10 then [Reg.MOV_TAIL i k] else if o = 0x14 then [Reg.MOV_HEAD i k, Reg.MOV_CH_STATE i k] else if o = 0x18 then [Reg.MOV_DONE i k] else if o = 0x1c then [Reg.MOV_LINE0 i k, Reg.MOV_BOUND0 i k, Reg.MOV_LINE1 i k, Reg.MOV_BOUND1 i k] else []
  else []

/-- The fields that the dword at offset `off` of page AHN holds. -/
def fieldsAHN (off : Nat) : List Fld :=
  if off = 0x100 then [Reg.AHN_UDP_PORT, Reg.AHN_IPV4, Reg.AHN_PAYLOAD_MAX]
  else if off = 0x104 then [Reg.AHN_PORT_MASK]
  else if off = 0x108 then [Reg.AHN_DEVICE_ID, Reg.AHN_DOMAIN_MODE, Reg.AHN_DOMAIN_STATE, Reg.AHN_DOMAIN_START]
  else if off = 0x10c then [Reg.AHN_DOMAIN_TAG]
  else if off = 0x110 then [Reg.AHN_SERIAL]
  else if off = 0x114 then [Reg.AHN_SERIAL]
  else if off = 0x118 then [Reg.AHN_ADDR_TABLE]
  else if off = 0x11c then [Reg.AHN_ADDR_TABLE]
  else if off = 0x120 then [Reg.AHN_DISC_ADDR 0]
  else if off = 0x124 then [Reg.AHN_DISC_ADDR 0]
  else if off = 0x128 then [Reg.AHN_DISC_ADDR 0]
  else if off = 0x12c then [Reg.AHN_DISC_ADDR 0]
  else if off = 0x130 then [Reg.AHN_DISC_ADDR 1]
  else if off = 0x134 then [Reg.AHN_DISC_ADDR 1]
  else if off = 0x138 then [Reg.AHN_DISC_ADDR 1]
  else if off = 0x13c then [Reg.AHN_DISC_ADDR 1]
  else if off = 0x140 then [Reg.AHN_DISC_ADDR 2]
  else if off = 0x144 then [Reg.AHN_DISC_ADDR 2]
  else if off = 0x148 then [Reg.AHN_DISC_ADDR 2]
  else if off = 0x14c then [Reg.AHN_DISC_ADDR 2]
  else if off = 0x150 then [Reg.AHN_DISC_ADDR 3]
  else if off = 0x154 then [Reg.AHN_DISC_ADDR 3]
  else if off = 0x158 then [Reg.AHN_DISC_ADDR 3]
  else if off = 0x15c then [Reg.AHN_DISC_ADDR 3]
  else if off = 0x160 then [Reg.AHN_DISC_COUNT, Reg.AHN_DISC_MCAST]
  else if off = 0x164 then [Reg.AHN_RTO_BASE]
  else if off = 0x168 then [Reg.AHN_MPL]
  else if off = 0x16c then [Reg.AHN_NET_LIFETIME]
  else if off = 0x170 then [Reg.AHN_DISC_ADDR 4]
  else if off = 0x174 then [Reg.AHN_DISC_ADDR 4]
  else if off = 0x178 then [Reg.AHN_DISC_ADDR 4]
  else if off = 0x17c then [Reg.AHN_DISC_ADDR 4]
  else if off = 0x180 then [Reg.AHN_DISC_ADDR 5]
  else if off = 0x184 then [Reg.AHN_DISC_ADDR 5]
  else if off = 0x188 then [Reg.AHN_DISC_ADDR 5]
  else if off = 0x18c then [Reg.AHN_DISC_ADDR 5]
  else if off = 0x190 then [Reg.AHN_DISC_ADDR 6]
  else if off = 0x194 then [Reg.AHN_DISC_ADDR 6]
  else if off = 0x198 then [Reg.AHN_DISC_ADDR 6]
  else if off = 0x19c then [Reg.AHN_DISC_ADDR 6]
  else if off = 0x1a0 then [Reg.AHN_DISC_ADDR 7]
  else if off = 0x1a4 then [Reg.AHN_DISC_ADDR 7]
  else if off = 0x1a8 then [Reg.AHN_DISC_ADDR 7]
  else if off = 0x1ac then [Reg.AHN_DISC_ADDR 7]
  else if off = 0x1b0 then [Reg.AHN_DISC_ADDR 8]
  else if off = 0x1b4 then [Reg.AHN_DISC_ADDR 8]
  else if off = 0x1b8 then [Reg.AHN_DISC_ADDR 8]
  else if off = 0x1bc then [Reg.AHN_DISC_ADDR 8]
  else if off = 0x1c0 then [Reg.AHN_DISC_ADDR 9]
  else if off = 0x1c4 then [Reg.AHN_DISC_ADDR 9]
  else if off = 0x1c8 then [Reg.AHN_DISC_ADDR 9]
  else if off = 0x1cc then [Reg.AHN_DISC_ADDR 9]
  else if off = 0x1d0 then [Reg.AHN_DISC_ADDR 10]
  else if off = 0x1d4 then [Reg.AHN_DISC_ADDR 10]
  else if off = 0x1d8 then [Reg.AHN_DISC_ADDR 10]
  else if off = 0x1dc then [Reg.AHN_DISC_ADDR 10]
  else if off = 0x1e0 then [Reg.AHN_DISC_ADDR 11]
  else if off = 0x1e4 then [Reg.AHN_DISC_ADDR 11]
  else if off = 0x1e8 then [Reg.AHN_DISC_ADDR 11]
  else if off = 0x1ec then [Reg.AHN_DISC_ADDR 11]
  else if off = 0x1f0 then [Reg.AHN_DISC_ADDR 12]
  else if off = 0x1f4 then [Reg.AHN_DISC_ADDR 12]
  else if off = 0x1f8 then [Reg.AHN_DISC_ADDR 12]
  else if off = 0x1fc then [Reg.AHN_DISC_ADDR 12]
  else if off = 0x200 then [Reg.AHN_DISC_ADDR 13]
  else if off = 0x204 then [Reg.AHN_DISC_ADDR 13]
  else if off = 0x208 then [Reg.AHN_DISC_ADDR 13]
  else if off = 0x20c then [Reg.AHN_DISC_ADDR 13]
  else if off = 0x210 then [Reg.AHN_DISC_ADDR 14]
  else if off = 0x214 then [Reg.AHN_DISC_ADDR 14]
  else if off = 0x218 then [Reg.AHN_DISC_ADDR 14]
  else if off = 0x21c then [Reg.AHN_DISC_ADDR 14]
  else if off = 0x220 then [Reg.AHN_DISC_ADDR 15]
  else if off = 0x224 then [Reg.AHN_DISC_ADDR 15]
  else if off = 0x228 then [Reg.AHN_DISC_ADDR 15]
  else if off = 0x22c then [Reg.AHN_DISC_ADDR 15]
  else if off = 0x270 then [Reg.AHN_ACK_DELAY]
  else if off = 0x274 then [Reg.AHN_TARGET_DELAY]
  else if off = 0x278 then [Reg.AHN_FLIGHT_WINDOW]
  else if off = 0x27c then [Reg.AHN_CWND_INIT]
  else if off = 0x300 then [Reg.AHN_QP_TABLE]
  else if off = 0x304 then [Reg.AHN_QP_TABLE]
  else if off = 0x308 then [Reg.AHN_REGION_TABLE]
  else if off = 0x30c then [Reg.AHN_REGION_TABLE]
  else if off = 0x310 then [Reg.AHN_QP_CMD]
  else if off = 0x314 then [Reg.AHN_REGION_INDEX, Reg.AHN_REGION_CMD, Reg.AHN_REGION_GO]
  else if off = 0x320 then [Reg.AHN_RESP_TIMEOUT]
  else if off = 0x330 then [Reg.AHN_STALE_COUNT]
  else if off = 0x334 then [Reg.AHN_STALE_COUNT]
  else if 0x280 ≤ off ∧ off < 0x2c0 then let k := (off - 0x280) / 0x8; let o := (off - 0x280) % 0x8
      if o = 0x0 then [Reg.AHN_CTR k] else if o = 0x4 then [Reg.AHN_CTR k] else []
  else []

/-- The fields that the dword at offset `off` of page COL holds. -/
def fieldsCOL (off : Nat) : List Fld :=
  if off = 0x100 then [Reg.COL_POOL, Reg.COL_CLUSTERS, Reg.COL_CORES]
  else if off = 0x108 then [Reg.COL_GROUP_TABLE]
  else if off = 0x10c then [Reg.COL_GROUP_TABLE]
  else if off = 0x110 then [Reg.COL_COL_QP]
  else if off = 0x118 then [Reg.COL_STAGING]
  else if off = 0x11c then [Reg.COL_STAGING]
  else if off = 0x120 then [Reg.COL_STAGING_LOG2]
  else if off = 0x124 then [Reg.COL_GROUP_INDEX, Reg.COL_GROUP_CMD, Reg.COL_GROUP_GO]
  else if off = 0x128 then [Reg.COL_GROUP_RESULT, Reg.COL_GROUP_BUSY]
  else if off = 0x12c then [Reg.COL_STOP_ARM, Reg.COL_STOP_NOW, Reg.COL_RESUME, Reg.COL_STOPPED]
  else if 0x200 ≤ off ∧ off < 0x230 then let k := (off - 0x200) / 0x8; let o := (off - 0x200) % 0x8
      if o = 0x0 then [Reg.COL_CTR k] else if o = 0x4 then [Reg.COL_CTR k] else []
  else if 0x400 ≤ off ∧ off < 0x600 then let k := (off - 0x400) / 0x20; let o := (off - 0x400) % 0x20
      if o = 0x0 then [Reg.COL_LOG2_N k, Reg.COL_BASE k] else if o = 0x4 then [Reg.COL_BASE k] else if o = 0x8 then [Reg.COL_Q_EN k, Reg.COL_GEN k] else if o = 0xc then [Reg.COL_OWNER k] else if o = 0x10 then [Reg.COL_TAIL k] else if o = 0x14 then [Reg.COL_HEAD k, Reg.COL_Q_STATE k] else if o = 0x18 then [Reg.COL_DONE k] else if o = 0x1c then [Reg.COL_LINE k, Reg.COL_BOUND k] else []
  else []

/-- The fields that the dword at offset `off` of page HRD holds. -/
def fieldsHRD (off : Nat) : List Fld :=
  if off = 0x100 then [Reg.HRD_CTX_TABLE]
  else if off = 0x104 then [Reg.HRD_CTX_TABLE]
  else if off = 0x108 then [Reg.HRD_POLICY_TABLE]
  else if off = 0x10c then [Reg.HRD_POLICY_TABLE]
  else if off = 0x110 then [Reg.HRD_INTAKE_TABLE]
  else if off = 0x114 then [Reg.HRD_INTAKE_TABLE]
  else if off = 0x118 then [Reg.HRD_LIST_AREA]
  else if off = 0x11c then [Reg.HRD_LIST_AREA]
  else if off = 0x120 then [Reg.HRD_LIST_LOG2, Reg.HRD_RECV_LOG2, Reg.HRD_PROMPT_LOG2]
  else if off = 0x124 then [Reg.HRD_FIRST_QP, Reg.HRD_QP_COUNT]
  else if off = 0x128 then [Reg.HRD_PROMPT_AREA]
  else if off = 0x12c then [Reg.HRD_PROMPT_AREA]
  else if off = 0x130 then [Reg.HRD_CRING_AREA]
  else if off = 0x134 then [Reg.HRD_CRING_AREA]
  else if off = 0x160 then [Reg.HRD_INTAKE_Q, Reg.HRD_INTAKE_CMD, Reg.HRD_INTAKE_GO]
  else if off = 0x164 then [Reg.HRD_POLICY_MODEL, Reg.HRD_POLICY_CMD, Reg.HRD_POLICY_GO]
  else if off = 0x168 then [Reg.HRD_INTAKE_RESULT, Reg.HRD_POLICY_RESULT]
  else if off = 0x16c then [Reg.HRD_SIDE_TIMEOUT_US]
  else if off = 0x1c0 then [Reg.HRD_SB_ACTIVE]
  else if off = 0x1c4 then [Reg.HRD_CTX_USED]
  else if 0x140 ≤ off ∧ off < 0x160 then let k := (off - 0x140) / 4; [Reg.HRD_DCLASS_BUDGET k]
  else if 0x180 ≤ off ∧ off < 0x1c0 then let k := (off - 0x180) / 0x8; let o := (off - 0x180) % 0x8
      if o = 0x0 then [Reg.HRD_CTR k] else if o = 0x4 then [Reg.HRD_CTR k] else []
  else if 0x400 ≤ off ∧ off < 0x600 then let k := (off - 0x400) / 0x10; let o := (off - 0x400) % 0x10
      if o = 0x0 then [Reg.HRD_CALL_LOG2 k, Reg.HRD_CALL_RING k] else if o = 0x4 then [Reg.HRD_CALL_RING k] else if o = 0x8 then [Reg.HRD_CALL_LINE k, Reg.HRD_CALL_BOUND k, Reg.HRD_VERDICT_LINE k, Reg.HRD_VERDICT_BOUND k] else []
  else if 0x800 ≤ off ∧ off < 0xc00 then let k := (off - 0x800) / 0x80; let o := (off - 0x800) % 0x80
      if o = 0x0 then [Reg.HRD_ABI_MIN k, Reg.HRD_ABI_MAX k, Reg.HRD_TRING_LOG2 k, Reg.HRD_CRING_LOG2 k, Reg.HRD_MAX_RUNNING k] else if o = 0x8 then [Reg.HRD_TRING_ADDR k] else if o = 0xc then [Reg.HRD_TRING_ADDR k] else if o = 0x10 then [Reg.HRD_DOORBELL_ADDR k] else if o = 0x14 then [Reg.HRD_DOORBELL_ADDR k] else if o = 0x18 then [Reg.HRD_CHEAD_ADDR k] else if o = 0x1c then [Reg.HRD_CHEAD_ADDR k] else if o = 0x20 then [Reg.HRD_ACC_EN k, Reg.HRD_ACC_CMD k, Reg.HRD_ACC_STATE k, Reg.HRD_ABI_AGREED k, Reg.HRD_DB_LINE k, Reg.HRD_DB_BOUND k] else if o = 0x24 then [Reg.HRD_ACC_TIMEOUT_US k] else if o = 0x28 then [Reg.HRD_CRING_WINDOW k] else if o = 0x2c then [Reg.HRD_CRING_WINDOW k] else if o = 0x30 then [Reg.HRD_TICKET_SEQ k] else if o = 0x34 then [Reg.HRD_TICKET_SEQ k] else if o = 0x38 then [Reg.HRD_TICKET_DONE k] else if o = 0x3c then [Reg.HRD_TICKET_DONE k] else if o = 0x40 then [Reg.HRD_RUNNING k] else []
  else []

/-- The fields that the dword at offset `off` of page VAT holds. -/
def fieldsVAT (off : Nat) : List Fld :=
  if off = 0x100 then [Reg.VAT_IMAGE_TABLE]
  else if off = 0x104 then [Reg.VAT_IMAGE_TABLE]
  else if off = 0x108 then [Reg.VAT_AREA_SIZE]
  else if off = 0x10c then [Reg.VAT_AREA_SIZE]
  else if off = 0x110 then [Reg.VAT_VAT_CH, Reg.VAT_VAT_PRIO]
  else if off = 0x114 then [Reg.VAT_IMG_INDEX, Reg.VAT_IMG_CMD, Reg.VAT_IMG_GO]
  else if off = 0x118 then [Reg.VAT_IMG_RESULT, Reg.VAT_IMG_BUSY]
  else if off = 0x120 then [Reg.VAT_FILL_VOLUME]
  else if off = 0x128 then [Reg.VAT_FILL_OFFSET]
  else if off = 0x12c then [Reg.VAT_FILL_OFFSET]
  else if 0x180 ≤ off ∧ off < 0x1a0 then let k := (off - 0x180) / 0x8; let o := (off - 0x180) % 0x8
      if o = 0x0 then [Reg.VAT_CTR k] else if o = 0x4 then [Reg.VAT_CTR k] else []
  else if 0x200 ≤ off ∧ off < 0x240 then let k := (off - 0x200) / 0x8; let o := (off - 0x200) % 0x8
      if o = 0x0 then [Reg.VAT_AREA_OFFSET k] else if o = 0x4 then [Reg.VAT_AREA_OFFSET k] else []
  else []

/-- The fields that the dword at offset `off` of page KVP holds. -/
def fieldsKVP (off : Nat) : List Fld :=
  if off = 0x100 then [Reg.KVP_SEQ_TABLE]
  else if off = 0x104 then [Reg.KVP_SEQ_TABLE]
  else if off = 0x108 then [Reg.KVP_DESC_TABLE]
  else if off = 0x10c then [Reg.KVP_DESC_TABLE]
  else if off = 0x110 then [Reg.KVP_FMT_TABLE]
  else if off = 0x114 then [Reg.KVP_FMT_TABLE]
  else if off = 0x118 then [Reg.KVP_PT_AREA]
  else if off = 0x11c then [Reg.KVP_PT_AREA]
  else if off = 0x120 then [Reg.KVP_PT_LOG2]
  else if off = 0x128 then [Reg.KVP_HBM_AREA]
  else if off = 0x12c then [Reg.KVP_HBM_AREA]
  else if off = 0x130 then [Reg.KVP_HBM_SIZE]
  else if off = 0x134 then [Reg.KVP_HBM_SIZE]
  else if off = 0x138 then [Reg.KVP_CELLAR_AREA]
  else if off = 0x13c then [Reg.KVP_CELLAR_AREA]
  else if off = 0x140 then [Reg.KVP_CELLAR_SIZE]
  else if off = 0x144 then [Reg.KVP_CELLAR_SIZE]
  else if off = 0x148 then [Reg.KVP_PAIL_VOLUME]
  else if off = 0x150 then [Reg.KVP_PAIL_OFFSET]
  else if off = 0x154 then [Reg.KVP_PAIL_OFFSET]
  else if off = 0x158 then [Reg.KVP_PAIL_SIZE]
  else if off = 0x15c then [Reg.KVP_PAIL_SIZE]
  else if off = 0x160 then [Reg.KVP_DEVWIN_LOCAL]
  else if off = 0x164 then [Reg.KVP_DEVWIN_LOCAL]
  else if off = 0x168 then [Reg.KVP_KVP_CH, Reg.KVP_KVP_PRIO, Reg.KVP_GROW_PAGES, Reg.KVP_FREE_MIN]
  else if off = 0x170 then [Reg.KVP_SEQ_CMD, Reg.KVP_SEQ_GO, Reg.KVP_SEQ_MODEL]
  else if off = 0x174 then [Reg.KVP_SEQ_HANDLE]
  else if off = 0x178 then [Reg.KVP_SEQ_RESULT, Reg.KVP_SEQ_BUSY]
  else if off = 0x17c then [Reg.KVP_SEQ_OWNER]
  else if off = 0x180 then [Reg.KVP_HBM_FREE]
  else if off = 0x184 then [Reg.KVP_HBM_FREE]
  else if off = 0x188 then [Reg.KVP_CELLAR_FREE]
  else if off = 0x18c then [Reg.KVP_CELLAR_FREE]
  else if off = 0x190 then [Reg.KVP_PAIL_FREE]
  else if off = 0x194 then [Reg.KVP_PAIL_FREE]
  else if off = 0x198 then [Reg.KVP_DESC_FREE]
  else if off = 0x19c then [Reg.KVP_DESC_FREE]
  else if 0x1c0 ≤ off ∧ off < 0x200 then let k := (off - 0x1c0) / 0x8; let o := (off - 0x1c0) % 0x8
      if o = 0x0 then [Reg.KVP_CTR k] else if o = 0x4 then [Reg.KVP_CTR k] else []
  else if 0x400 ≤ off ∧ off < 0x500 then let k := (off - 0x400) / 0x20; let o := (off - 0x400) % 0x20
      if o = 0x0 then [Reg.KVP_KV_OFFSET k] else if o = 0x4 then [Reg.KVP_KV_OFFSET k] else if o = 0x8 then [Reg.KVP_KV_LOCAL k] else if o = 0xc then [Reg.KVP_KV_LOCAL k] else if o = 0x10 then [Reg.KVP_KV_SIZE k] else if o = 0x14 then [Reg.KVP_KV_SIZE k] else if o = 0x18 then [Reg.KVP_KV_FREE k] else if o = 0x1c then [Reg.KVP_KV_FREE k] else []
  else []

/-- The fields that the dword at offset `off` of page LBY holds. -/
def fieldsLBY (off : Nat) : List Fld :=
  if off = 0x100 then [Reg.LBY_JOB_ID]
  else if off = 0x104 then [Reg.LBY_MEMBERS]
  else if off = 0x108 then [Reg.LBY_MY_RANK]
  else if off = 0x110 then [Reg.LBY_MEMBER_TABLE]
  else if off = 0x114 then [Reg.LBY_MEMBER_TABLE]
  else if off = 0x118 then [Reg.LBY_MANIFEST]
  else if off = 0x11c then [Reg.LBY_MANIFEST]
  else if off = 0x120 then [Reg.LBY_MANIFEST_COUNT]
  else if off = 0x128 then [Reg.LBY_NEAR_AREA]
  else if off = 0x12c then [Reg.LBY_NEAR_AREA]
  else if off = 0x130 then [Reg.LBY_NEAR_SLOT]
  else if off = 0x134 then [Reg.LBY_NEAR_SLOT]
  else if off = 0x138 then [Reg.LBY_HELD_AREA]
  else if off = 0x13c then [Reg.LBY_HELD_AREA]
  else if off = 0x140 then [Reg.LBY_HELD_SIZE]
  else if off = 0x144 then [Reg.LBY_HELD_SIZE]
  else if off = 0x148 then [Reg.LBY_LBY_QP, Reg.LBY_LBY_TAG]
  else if off = 0x14c then [Reg.LBY_KEY_PAGE, Reg.LBY_PROT]
  else if off = 0x150 then [Reg.LBY_ACC_MASK, Reg.LBY_LBY_CH]
  else if off = 0x158 then [Reg.LBY_MARK_AREA]
  else if off = 0x15c then [Reg.LBY_MARK_AREA]
  else if off = 0x160 then [Reg.LBY_PEER_RATE, Reg.LBY_DUR_RATE]
  else if off = 0x164 then [Reg.LBY_STOP_WAIT_MS, Reg.LBY_EPOCH_TIMEOUT_MS]
  else if off = 0x168 then [Reg.LBY_DUR_KIND, Reg.LBY_DUR_MODE, Reg.LBY_DUR_VOLUME, Reg.LBY_DUR_DEV]
  else if off = 0x16c then [Reg.LBY_DUR_QP]
  else if off = 0x170 then [Reg.LBY_DUR_ADDR]
  else if off = 0x174 then [Reg.LBY_DUR_ADDR]
  else if off = 0x178 then [Reg.LBY_DUR_KEY]
  else if off = 0x180 then [Reg.LBY_DUR_SIZE]
  else if off = 0x184 then [Reg.LBY_DUR_SIZE]
  else if off = 0x200 then [Reg.LBY_JOB_STATE]
  else if off = 0x204 then [Reg.LBY_LEADER, Reg.LBY_PARTNER]
  else if off = 0x208 then [Reg.LBY_STEP]
  else if off = 0x20c then [Reg.LBY_STEP]
  else if off = 0x210 then [Reg.LBY_CEILING]
  else if off = 0x214 then [Reg.LBY_CEILING]
  else if off = 0x218 then [Reg.LBY_COMMITTED]
  else if off = 0x21c then [Reg.LBY_COMMITTED]
  else if off = 0x220 then [Reg.LBY_DURABLE]
  else if off = 0x224 then [Reg.LBY_DURABLE]
  else if off = 0x228 then [Reg.LBY_RECLAIM_DEADLINE]
  else if off = 0x22c then [Reg.LBY_RECLAIM_DEADLINE]
  else if off = 0x230 then [Reg.LBY_RECLAIM_GO]
  else if off = 0x234 then [Reg.LBY_LBY_CMD, Reg.LBY_LBY_GO]
  else if off = 0x238 then [Reg.LBY_CMD_RESULT, Reg.LBY_CMD_BUSY]
  else if off = 0x240 then [Reg.LBY_SOURCE_TABLE]
  else if off = 0x244 then [Reg.LBY_SOURCE_TABLE]
  else if off = 0x248 then [Reg.LBY_SOURCE_COUNT, Reg.LBY_DIVERGE_PICK]
  else if off = 0x250 then [Reg.LBY_REPORT_ADDR]
  else if off = 0x254 then [Reg.LBY_REPORT_ADDR]
  else if 0x188 ≤ off ∧ off < 0x1c8 then let k := (off - 0x188) / 0x8; let o := (off - 0x188) % 0x8
      if o = 0x0 then [Reg.LBY_GO_ADDR k] else if o = 0x4 then [Reg.LBY_GO_ADDR k] else []
  else if 0x280 ≤ off ∧ off < 0x2c0 then let k := (off - 0x280) / 0x8; let o := (off - 0x280) % 0x8
      if o = 0x0 then [Reg.LBY_CTR k] else if o = 0x4 then [Reg.LBY_CTR k] else []
  else []

/-- The fields that the dword at offset `off` of page WMK holds. -/
def fieldsWMK (off : Nat) : List Fld :=
  if off = 0x100 then [Reg.WMK_CTX_SEL]
  else if off = 0x104 then [Reg.WMK_CTX_CMD, Reg.WMK_CTX_GO]
  else if off = 0x108 then [Reg.WMK_OWNER, Reg.WMK_SPOILED, Reg.WMK_CTX_RESULT]
  else if off = 0x110 then [Reg.WMK_SEED0]
  else if off = 0x114 then [Reg.WMK_SEED0]
  else if off = 0x118 then [Reg.WMK_SEED1]
  else if off = 0x11c then [Reg.WMK_SEED1]
  else if off = 0x120 then [Reg.WMK_SUM0]
  else if off = 0x124 then [Reg.WMK_SUM0]
  else if off = 0x128 then [Reg.WMK_SUM1]
  else if off = 0x12c then [Reg.WMK_SUM1]
  else if off = 0x130 then [Reg.WMK_ADDS]
  else if off = 0x134 then [Reg.WMK_ADDS]
  else []

/-- The fields that the dword at offset `off` of page ETH holds. -/
def fieldsETH (i off : Nat) : List Fld :=
  if off = 0x100 then [Reg.ETH_MODE i]
  else if off = 0x104 then [Reg.ETH_XOFF_KIB i, Reg.ETH_XON_KIB i]
  else if 0x200 ≤ off ∧ off < 0x400 then let k := (off - 0x200) / 0x80; let o := (off - 0x200) % 0x80
      if o = 0x0 then [Reg.ETH_PORT_EN i k, Reg.ETH_LINK_UP i k, Reg.ETH_PROMISC i k, Reg.ETH_PFC_EN i k] else if o = 0x4 then [Reg.ETH_MAX_FRAME i k] else if o = 0x8 then [Reg.ETH_MAC_ADDR i k] else if o = 0xc then [Reg.ETH_MAC_ADDR i k] else if o = 0x10 then [Reg.ETH_NEXTHOP_MAC i k] else if o = 0x14 then [Reg.ETH_NEXTHOP_MAC i k] else if o = 0x18 then [Reg.ETH_SRC_IP i k] else if o = 0x1c then [Reg.ETH_SRC_IP i k] else if o = 0x20 then [Reg.ETH_SRC_IP i k] else if o = 0x24 then [Reg.ETH_SRC_IP i k] else if o = 0x40 then [Reg.ETH_CTR i k 0] else if o = 0x44 then [Reg.ETH_CTR i k 0] else if o = 0x48 then [Reg.ETH_CTR i k 1] else if o = 0x4c then [Reg.ETH_CTR i k 1] else if o = 0x50 then [Reg.ETH_CTR i k 2] else if o = 0x54 then [Reg.ETH_CTR i k 2] else if o = 0x58 then [Reg.ETH_CTR i k 3] else if o = 0x5c then [Reg.ETH_CTR i k 3] else if o = 0x60 then [Reg.ETH_CTR i k 4] else if o = 0x64 then [Reg.ETH_CTR i k 4] else if o = 0x68 then [Reg.ETH_CTR i k 5] else if o = 0x6c then [Reg.ETH_CTR i k 5] else if o = 0x70 then [Reg.ETH_CTR i k 6] else if o = 0x74 then [Reg.ETH_CTR i k 6] else if o = 0x78 then [Reg.ETH_CTR i k 7] else if o = 0x7c then [Reg.ETH_CTR i k 7] else []
  else []

/-- The fields that the dword at offset `off` of page SEP holds. -/
def fieldsSEP (off : Nat) : List Fld :=
  if off = 0x100 then [Reg.SEP_ACTIVE_BANK, Reg.SEP_WIN_BANK]
  else if off = 0x104 then [Reg.SEP_SWAP, Reg.SEP_COPY, Reg.SEP_SWAP_BUSY, Reg.SEP_SWAP_RESULT]
  else if off = 0x108 then [Reg.SEP_STALL_BASE]
  else if off = 0x10c then [Reg.SEP_FIRST_BAD_RULE]
  else if off = 0x110 then [Reg.SEP_RXQ_TABLE]
  else if off = 0x114 then [Reg.SEP_RXQ_TABLE]
  else if off = 0x118 then [Reg.SEP_SLOW_QUEUE]
  else if off = 0x160 then [Reg.SEP_RXQ_INDEX, Reg.SEP_RXQ_CMD, Reg.SEP_RXQ_GO]
  else if off = 0x164 then [Reg.SEP_RXQ_RESULT, Reg.SEP_RXQ_BUSY]
  else if off = 0x290 then [Reg.SEP_STG_OWNER]
  else if off = 0x294 then [Reg.SEP_STG_RULE, Reg.SEP_STG_CMD, Reg.SEP_STG_GO]
  else if off = 0x298 then [Reg.SEP_STG_RESULT, Reg.SEP_STG_BUSY]
  else if 0x120 ≤ off ∧ off < 0x148 then [Reg.SEP_HASH_KEY (off - 0x120), Reg.SEP_HASH_KEY (off - 0x120 + 1), Reg.SEP_HASH_KEY (off - 0x120 + 2), Reg.SEP_HASH_KEY (off - 0x120 + 3)]
  else if 0x200 ≤ off ∧ off < 0x240 then [Reg.SEP_STG_VALUE (off - 0x200), Reg.SEP_STG_VALUE (off - 0x200 + 1), Reg.SEP_STG_VALUE (off - 0x200 + 2), Reg.SEP_STG_VALUE (off - 0x200 + 3)]
  else if 0x240 ≤ off ∧ off < 0x280 then [Reg.SEP_STG_MASK (off - 0x240), Reg.SEP_STG_MASK (off - 0x240 + 1), Reg.SEP_STG_MASK (off - 0x240 + 2), Reg.SEP_STG_MASK (off - 0x240 + 3)]
  else if 0x280 ≤ off ∧ off < 0x290 then [Reg.SEP_STG_ACTION (off - 0x280), Reg.SEP_STG_ACTION (off - 0x280 + 1), Reg.SEP_STG_ACTION (off - 0x280 + 2), Reg.SEP_STG_ACTION (off - 0x280 + 3)]
  else if 0x300 ≤ off ∧ off < 0x340 then let k := (off - 0x300) / 4; [Reg.SEP_DEF_KIND k, Reg.SEP_DEF_QUEUE k]
  else if 0x340 ≤ off ∧ off < 0x540 then [Reg.SEP_TABLE_OWNER ((off - 0x340) / 2), Reg.SEP_TABLE_OWNER ((off - 0x340) / 2 + 1)]
  else if 0x540 ≤ off ∧ off < 0x580 then let k := (off - 0x540) / 0x8; let o := (off - 0x540) % 0x8
      if o = 0x0 then [Reg.SEP_CTR k] else if o = 0x4 then [Reg.SEP_CTR k] else []
  else []

/-- The fields that the dword at offset `off` of page TOL holds. -/
def fieldsTOL (off : Nat) : List Fld :=
  if off = 0x100 then [Reg.TOL_Q_PORT, Reg.TOL_Q_INDEX]
  else if off = 0x104 then [Reg.TOL_Q_CMD, Reg.TOL_Q_GO]
  else if off = 0x108 then [Reg.TOL_Q_RESULT, Reg.TOL_Q_BUSY]
  else if off = 0x110 then [Reg.TOL_CIR]
  else if off = 0x114 then [Reg.TOL_PIR]
  else if off = 0x118 then [Reg.TOL_CBS]
  else if off = 0x11c then [Reg.TOL_PBS]
  else if off = 0x120 then [Reg.TOL_WEIGHT, Reg.TOL_ROLE, Reg.TOL_RESET_MODE, Reg.TOL_METER_EN, Reg.TOL_COLOUR_AWARE, Reg.TOL_RED_DROP, Reg.TOL_PFC_PRIO, Reg.TOL_PFC_BOUND]
  else if off = 0x128 then [Reg.TOL_C_TOKENS]
  else if off = 0x12c then [Reg.TOL_C_TOKENS]
  else if off = 0x130 then [Reg.TOL_P_TOKENS]
  else if off = 0x134 then [Reg.TOL_P_TOKENS]
  else if off = 0x180 then [Reg.TOL_SHP_SEL]
  else if off = 0x184 then [Reg.TOL_SHP_CMD, Reg.TOL_SHP_GO]
  else if off = 0x188 then [Reg.TOL_SHP_RESULT, Reg.TOL_SHP_BUSY]
  else if off = 0x190 then [Reg.TOL_SHP_RATE]
  else if off = 0x194 then [Reg.TOL_SHP_BURST]
  else if off = 0x198 then [Reg.TOL_SHP_WEIGHT, Reg.TOL_SHP_EN, Reg.TOL_SHP_RESET_MODE]
  else if off = 0x1a0 then [Reg.TOL_SHP_TOKENS]
  else if off = 0x1a4 then [Reg.TOL_SHP_TOKENS]
  else if off = 0x280 then [Reg.TOL_QUANTUM, Reg.TOL_NONSTALL_WEIGHT]
  else if off = 0x284 then [Reg.TOL_AHN_CLASS, Reg.TOL_AHN_ACK_CLASS]
  else if off = 0x288 then [Reg.TOL_RX_PRIO_MAP]
  else if off = 0x290 then [Reg.TOL_TXQ_TABLE]
  else if off = 0x294 then [Reg.TOL_TXQ_TABLE]
  else if off = 0x298 then [Reg.TOL_TXQ_INDEX, Reg.TOL_TXQ_CMD, Reg.TOL_TXQ_GO]
  else if off = 0x29c then [Reg.TOL_TXQ_RESULT, Reg.TOL_TXQ_BUSY]
  else if 0x138 ≤ off ∧ off < 0x150 then let k := (off - 0x138) / 0x8; let o := (off - 0x138) % 0x8
      if o = 0x0 then [Reg.TOL_CTR k] else if o = 0x4 then [Reg.TOL_CTR k] else []
  else if 0x200 ≤ off ∧ off < 0x280 then let k := (off - 0x200) / 0x8; let o := (off - 0x200) % 0x8
      if o = 0x0 then [Reg.TOL_CLASS_MAP k] else if o = 0x4 then [Reg.TOL_CLASS_MAP k] else []
  else []

/-- The fields that the dword at offset `off` of page PAL holds. -/
def fieldsPAL (off : Nat) : List Fld :=
  if off = 0x100 then [Reg.PAL_QUEUE_TABLE]
  else if off = 0x104 then [Reg.PAL_QUEUE_TABLE]
  else if off = 0x108 then [Reg.PAL_STAGING]
  else if off = 0x10c then [Reg.PAL_STAGING]
  else if off = 0x110 then [Reg.PAL_STAGING_LOG2]
  else if off = 0x118 then [Reg.PAL_ARRAY_STRIPES]
  else if off = 0x11c then [Reg.PAL_ARRAY_STRIPES]
  else if off = 0x120 then [Reg.PAL_ARRAY_STATE, Reg.PAL_MISSING]
  else if off = 0x124 then [Reg.PAL_REBUILD_SLOT, Reg.PAL_REBUILD_GO, Reg.PAL_REBUILD_RATE]
  else if off = 0x128 then [Reg.PAL_REBUILD_DONE]
  else if off = 0x12c then [Reg.PAL_REBUILD_DONE]
  else if off = 0x130 then [Reg.PAL_LAST_REPAIR_STRIPE]
  else if off = 0x134 then [Reg.PAL_LAST_REPAIR_STRIPE]
  else if off = 0x140 then [Reg.PAL_PS_CUR, Reg.PAL_PS_MAX]
  else if off = 0x144 then [Reg.PAL_IDLE_PS1_US]
  else if off = 0x148 then [Reg.PAL_IDLE_PS2_MS, Reg.PAL_IDLE_PS3_MS]
  else if off = 0x14c then [Reg.PAL_NVME_PS_MAP]
  else if off = 0x150 then [Reg.PAL_PQ_INDEX, Reg.PAL_PQ_CMD, Reg.PAL_PQ_GO]
  else if off = 0x154 then [Reg.PAL_PQ_RESULT, Reg.PAL_PQ_BUSY]
  else if 0x180 ≤ off ∧ off < 0x1c0 then let k := (off - 0x180) / 0x8; let o := (off - 0x180) % 0x8
      if o = 0x0 then [Reg.PAL_CTR k] else if o = 0x4 then [Reg.PAL_CTR k] else []
  else if 0x800 ≤ off ∧ off < 0x1000 then let k := (off - 0x800) / 0x20; let o := (off - 0x800) % 0x20
      if o = 0x0 then [Reg.PAL_BASE_STRIPE k] else if o = 0x4 then [Reg.PAL_BASE_STRIPE k] else if o = 0x8 then [Reg.PAL_STRIPES k] else if o = 0xc then [Reg.PAL_STRIPES k] else if o = 0x10 then [Reg.PAL_OWNER k, Reg.PAL_GRANT k, Reg.PAL_VALID k] else if o = 0x14 then [Reg.PAL_TEST_STATE k] else if o = 0x18 then [Reg.PAL_TEST_DONE k] else if o = 0x1c then [Reg.PAL_TEST_DONE k] else []
  else []

/-- The fields that the dword at offset `off` of page KEY holds. -/
def fieldsKEY (i off : Nat) : List Fld :=
  if off = 0x100 then [Reg.KEY_OWNER i]
  else if off = 0x104 then [Reg.KEY_TX_SLOT i, Reg.KEY_RX_SLOT_A i, Reg.KEY_RX_SLOT_B i, Reg.KEY_RX_B_EN i, Reg.KEY_RX_QP i, Reg.KEY_RX_EN i]
  else if off = 0x108 then [Reg.KEY_SLOT_STATE i]
  else if off = 0x10c then [Reg.KEY_KEY_GEN i]
  else if off = 0x110 then [Reg.KEY_KEY_GEN i, Reg.KEY_LD_SLOT i, Reg.KEY_LD_TYPE i, Reg.KEY_LD_GO i]
  else if off = 0x114 then [Reg.KEY_LD_RESULT i, Reg.KEY_LD_BUSY i]
  else if off = 0x118 then [Reg.KEY_USE_LIMIT i]
  else if off = 0x11c then [Reg.KEY_USE_LIMIT i]
  else if 0x140 ≤ off ∧ off < 0x180 then [Reg.KEY_KEY_DATA i (off - 0x140), Reg.KEY_KEY_DATA i (off - 0x140 + 1), Reg.KEY_KEY_DATA i (off - 0x140 + 2), Reg.KEY_KEY_DATA i (off - 0x140 + 3)]
  else if 0x180 ≤ off ∧ off < 0x1c0 then let k := (off - 0x180) / 0x8; let o := (off - 0x180) % 0x8
      if o = 0x0 then [Reg.KEY_USES i k] else if o = 0x4 then [Reg.KEY_USES i k] else []
  else []

/-- The fields that the dword at offset `off` of page CPH holds. -/
def fieldsCPH (off : Nat) : List Fld :=
  if off = 0x100 then [Reg.CPH_ALARM_LATCH, Reg.CPH_ALARM_CAUSE]
  else if off = 0x104 then [Reg.CPH_ALARM_CLEAR, Reg.CPH_ERASE_ALL]
  else if off = 0x108 then [Reg.CPH_ALARM_TIME]
  else if off = 0x10c then [Reg.CPH_ALARM_TIME]
  else if 0x180 ≤ off ∧ off < 0x1b0 then let k := (off - 0x180) / 0x8; let o := (off - 0x180) % 0x8
      if o = 0x0 then [Reg.CPH_CTR k] else if o = 0x4 then [Reg.CPH_CTR k] else []
  else []

/-- The fields that the dword at offset `off` of page HEP holds. -/
def fieldsHEP (i off : Nat) : List Fld :=
  if off = 0x100 then [Reg.HEP_LINK_UP i, Reg.HEP_SPEED i, Reg.HEP_WIDTH i, Reg.HEP_LINK_STATE i]
  else if off = 0x104 then [Reg.HEP_FLR_BUSY i]
  else if off = 0x108 then [Reg.HEP_DSTATE i]
  else if off = 0x10c then [Reg.HEP_PROPAGATE i]
  else if off = 0x110 then [Reg.HEP_WAKE_MASK i]
  else if off = 0x118 then [Reg.HEP_APERTURE_BASE i]
  else if off = 0x11c then [Reg.HEP_APERTURE_BASE i]
  else if 0x180 ≤ off ∧ off < 0x1c0 then let k := (off - 0x180) / 0x8; let o := (off - 0x180) % 0x8
      if o = 0x0 then [Reg.HEP_CTR i k] else if o = 0x4 then [Reg.HEP_CTR i k] else []
  else []

/-- The fields that the dword at offset `off` of page SPR holds. -/
def fieldsSPR (i off : Nat) : List Fld :=
  if off = 0x100 then [Reg.SPR_BIND_HOST i, Reg.SPR_P2P_EN i]
  else if off = 0x104 then [Reg.SPR_LINK_FIELDS i]
  else if off = 0x108 then [Reg.SPR_ACC_BAR_ADDR i]
  else if off = 0x10c then [Reg.SPR_ACC_BAR_ADDR i]
  else if off = 0x110 then [Reg.SPR_ACC_WIN_SIZE i]
  else if off = 0x114 then [Reg.SPR_ACC_WIN_SIZE i]
  else if 0x200 ≤ off ∧ off < 0x300 then let k := (off - 0x200) / 0x20; let o := (off - 0x200) % 0x20
      if o = 0x0 then [Reg.SPR_IW_BASE i k] else if o = 0x4 then [Reg.SPR_IW_BASE i k] else if o = 0x8 then [Reg.SPR_IW_SIZE i k] else if o = 0xc then [Reg.SPR_IW_SIZE i k] else if o = 0x10 then [Reg.SPR_IW_TARGET i k] else if o = 0x14 then [Reg.SPR_IW_TARGET i k] else if o = 0x18 then [Reg.SPR_IW_READ i k, Reg.SPR_IW_WRITE i k] else []
  else if 0x180 ≤ off ∧ off < 0x1c0 then let k := (off - 0x180) / 0x8; let o := (off - 0x180) % 0x8
      if o = 0x0 then [Reg.SPR_CTR i k] else if o = 0x4 then [Reg.SPR_CTR i k] else []
  else []

/-- The fields that the dword at offset `off` of page SSD holds. -/
def fieldsSSD (i off : Nat) : List Fld :=
  if off = 0x100 then [Reg.SSD_LINK_FIELDS i, Reg.SSD_PRESENT i]
  else if 0x180 ≤ off ∧ off < 0x1a0 then let k := (off - 0x180) / 0x8; let o := (off - 0x180) % 0x8
      if o = 0x0 then [Reg.SSD_CTR i k] else if o = 0x4 then [Reg.SSD_CTR i k] else []
  else []

/-- The fields that the dword at offset `off` of page STL holds. -/
def fieldsSTL (off : Nat) : List Fld :=
  if off = 0x100 then [Reg.STL_STALLS_USED]
  else if off = 0x108 then [Reg.STL_STALL_TABLE]
  else if off = 0x10c then [Reg.STL_STALL_TABLE]
  else if off = 0x110 then [Reg.STL_SERVICE_AREA]
  else if off = 0x114 then [Reg.STL_SERVICE_AREA]
  else if off = 0x200 then [Reg.STL_CMD, Reg.STL_CMD_STALL, Reg.STL_CMD_GO]
  else if off = 0x204 then [Reg.STL_CMD_RESULT, Reg.STL_CMD_BUSY, Reg.STL_CMD_DETAIL]
  else if off = 0x208 then [Reg.STL_CMD_ADDR]
  else if off = 0x20c then [Reg.STL_CMD_ADDR]
  else if off = 0x210 then [Reg.STL_CMD_PASID]
  else if 0x180 ≤ off ∧ off < 0x1a0 then let k := (off - 0x180) / 0x8; let o := (off - 0x180) % 0x8
      if o = 0x0 then [Reg.STL_CTR k] else if o = 0x4 then [Reg.STL_CTR k] else []
  else []

/-- The fields that the dword at offset `off` of page BOOT holds. -/
def fieldsBOOT (off : Nat) : List Fld :=
  if off = 0x100 then [Reg.BOOT_BOOT_STATE, Reg.BOOT_BOOT_SOURCE, Reg.BOOT_BOOT_CAUSE, Reg.BOOT_FAILED_SOURCES]
  else if off = 0x104 then [Reg.BOOT_FW_VERSION]
  else if off = 0x108 then [Reg.BOOT_FW_SVN, Reg.BOOT_FW_KEY_SLOT, Reg.BOOT_ROLLBACK_COUNT, Reg.BOOT_KEY_PROGRAMMED, Reg.BOOT_KEY_REVOKED]
  else if off = 0x10c then [Reg.BOOT_ROM_VERSION]
  else if off = 0x130 then [Reg.BOOT_BOOT_COUNT]
  else if off = 0x134 then [Reg.BOOT_BOOT_TIME_US]
  else if off = 0x140 then [Reg.BOOT_UPD_ADDR]
  else if off = 0x144 then [Reg.BOOT_UPD_ADDR]
  else if off = 0x148 then [Reg.BOOT_UPD_LEN]
  else if off = 0x14c then [Reg.BOOT_UPD_CMD, Reg.BOOT_UPD_KEY_SLOT, Reg.BOOT_UPD_GO]
  else if off = 0x150 then [Reg.BOOT_UPD_RESULT, Reg.BOOT_UPD_BUSY]
  else if off = 0x154 then [Reg.BOOT_HANDOVER_US]
  else if 0x110 ≤ off ∧ off < 0x128 then let k := (off - 0x110) / 0x8; let o := (off - 0x110) % 0x8
      if o = 0x0 then [Reg.BOOT_IMG_VERSION k] else if o = 0x4 then [Reg.BOOT_IMG_SVN k, Reg.BOOT_IMG_KEY k, Reg.BOOT_IMG_VALID k, Reg.BOOT_IMG_TRIAL k] else []
  else []

/-- The fields that the dword at offset `off` of page PWR holds. -/
def fieldsPWR (off : Nat) : List Fld :=
  if off = 0x100 then [Reg.PWR_WAKE_WAIT_US, Reg.PWR_WAKE_PER_US]
  else if off = 0x104 then [Reg.PWR_CLUSTER_IDLE_US, Reg.PWR_WAYSIDE_IDLE_US]
  else if off = 0x108 then [Reg.PWR_PLL_ON]
  else if off = 0x10c then [Reg.PWR_LAST_REFUSED, Reg.PWR_REFUSE_CAUSE]
  else if 0x120 ≤ off ∧ off < 0x158 then let k := (off - 0x120) / 4; [Reg.PWR_DOM_AWAKE k]
  else if 0x180 ≤ off ∧ off < 0x1a0 then let k := (off - 0x180) / 0x8; let o := (off - 0x180) % 0x8
      if o = 0x0 then [Reg.PWR_CTR k] else if o = 0x4 then [Reg.PWR_CTR k] else []
  else []

/-- The fields that the dword at offset `off` of page THM holds. -/
def fieldsTHM (off : Nat) : List Fld :=
  if off = 0x300 then [Reg.THM_STEP 0, Reg.THM_STEP 1, Reg.THM_STEP 2, Reg.THM_STEP 3]
  else if off = 0x304 then [Reg.THM_FW_STEP 0, Reg.THM_FW_STEP 1, Reg.THM_FW_STEP 2, Reg.THM_FW_STEP 3]
  else if off = 0x308 then [Reg.THM_HW_STEP 0, Reg.THM_HW_STEP 1, Reg.THM_HW_STEP 2, Reg.THM_HW_STEP 3]
  else if off = 0x30c then [Reg.THM_POWER_CAP_W, Reg.THM_TJ_TARGET_C]
  else if off = 0x310 then [Reg.THM_INPUT_W, Reg.THM_AVG10_W]
  else if off = 0x314 then [Reg.THM_TRIPPED, Reg.THM_TRIP_SENSOR]
  else if 0x100 ≤ off ∧ off < 0x230 then let k := (off - 0x100) / 4; [Reg.THM_TEMP k, Reg.THM_VALID k]
  else []

/-- The fields that the dword at offset `off` of page RST holds. -/
def fieldsRST (off : Nat) : List Fld :=
  if off = 0x100 then [Reg.RST_RST_KIND, Reg.RST_RST_TARGET, Reg.RST_RST_GO]
  else if off = 0x104 then [Reg.RST_RST_RESULT, Reg.RST_RST_BUSY]
  else if off = 0x108 then [Reg.RST_SAFE_STATE, Reg.RST_FAULT_HOLD, Reg.RST_FAULT_PULSE, Reg.RST_FAULT_PIN]
  else if off = 0x10c then [Reg.RST_AUTO_RECOVER]
  else if off = 0x110 then [Reg.RST_ENG_WDOG_US]
  else if off = 0x114 then [Reg.RST_WDOG_BLOCK]
  else if off = 0x118 then [Reg.RST_FATAL_CAUSE]
  else if off = 0x120 then [Reg.RST_CAPTURE_BASE]
  else if off = 0x124 then [Reg.RST_CAPTURE_BASE]
  else if off = 0x128 then [Reg.RST_CAPTURE_LOG2]
  else if off = 0x12c then [Reg.RST_CAPTURE_HEAD]
  else if off = 0x130 then [Reg.RST_LAST_KIND, Reg.RST_LAST_TARGET]
  else if off = 0x138 then [Reg.RST_LAST_TIME]
  else if off = 0x13c then [Reg.RST_LAST_TIME]
  else if 0x180 ≤ off ∧ off < 0x1c0 then let k := (off - 0x180) / 0x8; let o := (off - 0x180) % 0x8
      if o = 0x0 then [Reg.RST_CTR k] else if o = 0x4 then [Reg.RST_CTR k] else []
  else []

/-- The fields that the dword at offset `off` of page MST holds. -/
def fieldsMST (off : Nat) : List Fld :=
  if off = 0x100 then [Reg.MST_MS_TIME]
  else if off = 0x104 then [Reg.MST_MS_TIME]
  else if off = 0x108 then [Reg.MST_DISC_SRC, Reg.MST_TIME_STATE]
  else if off = 0x10c then [Reg.MST_FREQ_TRIM]
  else if off = 0x110 then [Reg.MST_STEP_NS]
  else if off = 0x114 then [Reg.MST_STEP_NS]
  else if off = 0x118 then [Reg.MST_PPS_CAPTURE]
  else if off = 0x11c then [Reg.MST_PPS_CAPTURE]
  else if off = 0x120 then [Reg.MST_TIME_ERR_NS]
  else if off = 0x130 then [Reg.MST_EXPORT_ADDR]
  else if off = 0x134 then [Reg.MST_EXPORT_ADDR]
  else if off = 0x138 then [Reg.MST_EXPORT_ADDR]
  else if off = 0x13c then [Reg.MST_EXPORT_ADDR]
  else if off = 0x140 then [Reg.MST_EXPORT_PORT, Reg.MST_EXPORT_EN, Reg.MST_EXPORT_HOLD_MS]
  else if off = 0x144 then [Reg.MST_SENSOR_PERIOD_MS, Reg.MST_COUNTER_PERIOD_S]
  else if off = 0x148 then [Reg.MST_TEL_SEQ]
  else if off = 0x14c then [Reg.MST_TEL_LOST]
  else if off = 0x150 then [Reg.MST_PUB_POLL_US]
  else if 0x180 ≤ off ∧ off < 0x1b0 then let k := (off - 0x180) / 0x8; let o := (off - 0x180) % 0x8
      if o = 0x0 then [Reg.MST_CTR k] else if o = 0x4 then [Reg.MST_CTR k] else []
  else if 0x400 ≤ off ∧ off < 0x800 then let k := (off - 0x400) / 0x20; let o := (off - 0x400) % 0x20
      if o = 0x0 then [Reg.MST_PUB_BASE k] else if o = 0x4 then [Reg.MST_PUB_BASE k] else if o = 0x8 then [Reg.MST_PUB_LOG2 k, Reg.MST_PUB_LOC k, Reg.MST_PUB_EN k, Reg.MST_PUB_OWNER k] else if o = 0x10 then [Reg.MST_PUB_CONSUMED k] else []
  else []

/-- The fields that the dword at offset `off` of page SBI holds. -/
def fieldsSBI (off : Nat) : List Fld :=
  if off = 0x100 then [Reg.SBI_UART_BAUD, Reg.SBI_PARITY, Reg.SBI_STOP2, Reg.SBI_DATA7]
  else if off = 0x104 then [Reg.SBI_UART_TX]
  else if off = 0x108 then [Reg.SBI_DATA, Reg.SBI_FE, Reg.SBI_BREAK, Reg.SBI_PE, Reg.SBI_RX_VALID]
  else if off = 0x10c then [Reg.SBI_RX_LEVEL, Reg.SBI_TX_LEVEL]
  else if off = 0x140 then [Reg.SBI_SMB_ADDR, Reg.SBI_SMB_SPEED]
  else if off = 0x180 then [Reg.SBI_MGMT_MAC]
  else if off = 0x184 then [Reg.SBI_MGMT_MAC]
  else if off = 0x188 then [Reg.SBI_MGMT_LINK, Reg.SBI_MGMT_SPEED]
  else if off = 0x190 then [Reg.SBI_MGMT_PEER]
  else if off = 0x194 then [Reg.SBI_MGMT_PEER]
  else if off = 0x198 then [Reg.SBI_MGMT_PEER]
  else if off = 0x19c then [Reg.SBI_MGMT_PEER]
  else if off = 0x1e0 then [Reg.SBI_JTAG_STATE, Reg.SBI_JTAG_SCOPE, Reg.SBI_JTAG_FAILS]
  else if off = 0x200 then [Reg.SBI_PWR_EN_IN, Reg.SBI_COOLANT_OK_IN, Reg.SBI_PERST_IN, Reg.SBI_PPS_SEEN, Reg.SBI_MGMT_VSEL, Reg.SBI_SSD_PRSNT]
  else if off = 0x204 then [Reg.SBI_INPUT_V, Reg.SBI_INPUT_A]
  else []

/-- The fields that the dword at offset `off` (a multiple of 4) of page `p` holds. -/
def pageFields (p off : Nat) : List Fld :=
  if off < 0x100 then (if hasHeader p then hdrFields p off else [])
  else match blockType p with
    | none => []
    | some t =>
      if t = 0xa0 then fieldsMEM (p - 0xa0) off
      else if t = 0x1 then fieldsCRS off
      else if t = 0x60 then fieldsCHN off
      else if t = 0x2000 then fieldsCC (p - 0x2000) off
      else if t = 0x50 then fieldsMOV (p - 0x50) off
      else if t = 0x40 then fieldsAHN off
      else if t = 0x61 then fieldsCOL off
      else if t = 0x70 then fieldsHRD off
      else if t = 0x71 then fieldsVAT off
      else if t = 0x72 then fieldsKVP off
      else if t = 0x78 then fieldsLBY off
      else if t = 0x79 then fieldsWMK off
      else if t = 0x20 then fieldsETH (p - 0x20) off
      else if t = 0x28 then fieldsSEP off
      else if t = 0x30 then fieldsTOL off
      else if t = 0x80 then fieldsPAL off
      else if t = 0x1000 then fieldsKEY (p - 0x1000) off
      else if t = 0x88 then fieldsCPH off
      else if t = 0x8 then fieldsHEP (p - 0x8) off
      else if t = 0x10 then fieldsSPR (p - 0x10) off
      else if t = 0x18 then fieldsSSD (p - 0x18) off
      else if t = 0x90 then fieldsSTL off
      else if t = 0x5 then fieldsBOOT off
      else if t = 0x2 then fieldsPWR off
      else if t = 0x3 then fieldsTHM off
      else if t = 0x4 then fieldsRST off
      else if t = 0x6 then fieldsMST off
      else if t = 0xb0 then fieldsSBI off
      else []

/-- The register that a writer sees its own copy of (R50). -/
def bankedFld (f : Fld) : Bool :=
  (blockType f.page == some 0x79 && ((f.off == 0x100 && f.lo == 0) || (f.off == 0x108 && f.lo == 24))) ||
  (blockType f.page == some 0x28 && ((decide (0x200 ≤ f.off) && decide (f.off < 0x240)) || (decide (0x240 ≤ f.off) && decide (f.off < 0x280)) || (decide (0x280 ≤ f.off) && decide (f.off < 0x290)) || (f.off == 0x290 && f.lo == 0) || (f.off == 0x298 && f.lo == 0) || (f.off == 0x298 && f.lo == 8))) ||
  (blockType f.page == some 0x30 && ((f.off == 0x100 && f.lo == 0) || (f.off == 0x100 && f.lo == 8) || (f.off == 0x110 && f.lo == 0) || (f.off == 0x114 && f.lo == 0) || (f.off == 0x118 && f.lo == 0) || (f.off == 0x11c && f.lo == 0) || (f.off == 0x120 && f.lo == 0) || (f.off == 0x120 && f.lo == 8) || (f.off == 0x120 && f.lo == 10) || (f.off == 0x120 && f.lo == 11) || (f.off == 0x120 && f.lo == 12) || (f.off == 0x120 && f.lo == 13) || (f.off == 0x120 && f.lo == 16) || (f.off == 0x120 && f.lo == 19) || (f.off == 0x180 && f.lo == 0) || (f.off == 0x190 && f.lo == 0) || (f.off == 0x194 && f.lo == 0) || (f.off == 0x198 && f.lo == 0) || (f.off == 0x198 && f.lo == 8) || (f.off == 0x198 && f.lo == 9))) ||
  (blockType f.page == some 0x1000 && ((decide (0x140 ≤ f.off) && decide (f.off < 0x180)))) ||
  (blockType f.page == some 0x90 && ((f.off == 0x204 && f.lo == 0) || (f.off == 0x204 && f.lo == 8) || (f.off == 0x204 && f.lo == 16) || (f.off == 0x208 && f.lo == 0) || (f.off == 0x210 && f.lo == 0)))

/-- The bits of the dword at offset `off` of page `p` that its table marks reserved and RO, which are not held (R11):
MEM CH_OWNER, CRS semaphores and the Mover channel block. Pages CHN and CC read their unlisted bits as 0 and mark none
reserved, so nothing of theirs is held. -/
def roReservedMask (p off : Nat) : Nat :=
  match blockType p with
  | some 0xA0 => if 0x100 ≤ off ∧ off < 0x200 then 0xFFFFFFE0 else 0
  | some 0x1 => 0xFFFFFFFF
  | some 0x60 => 0xFFFFFFFF
  | some 0x2000 => 0xFFFFFFFF
  | some 0x50 =>
    if 0x400 ≤ off ∧ off < 0xC00 then
      (let o := off % 0x20
       if o = 0x0 then 0xFF0 else if o = 0x8 then 0xFFFFFFE0 else if o = 0x10 then 0xFFFF8000
       else if o = 0x14 then 0xFFF80000 else if o = 0x1C then 0xE000E000 else 0)
    else 0
  | _ => 0

end Sys2Proof.Machine
end

