-- ==== Sys2Proof/Machine/State.lean ====
section
/-! DEFINITION. The state of the block: the register file, memory, the cores, what every engine has in progress, the queue of waiting commands; the reasons a step can stop; and the state after reset. -/

namespace Sys2Proof.Machine

/-- Why a meaning stops. No meaning of this model does so for an address of a space the spec lays out: a read outside
the mapped memory returns poison and a write is dropped (R33). -/
inductive Fault
  /-- Raised by no meaning: kept for an access to a space the spec does not lay out. Safe. -/
  | noSuchSpace
deriving DecidableEq, Repr

/-- Why a meaning is refused. -/
inductive Refusal
  /-- The command has no meaning yet (its arm of `exec` says so). Safe. -/
  | notModelled (mnemonic : String)
deriving DecidableEq, Repr

/-- A telemetry record waiting in the export queue (R850): kind, `SEQ`, time, source page or ring, severity, body bytes. -/
structure TelRec where
  kind : Nat
  seq : Nat
  time : Nat
  source : Nat
  sev : Nat
  body : List Nat
deriving DecidableEq, Repr

/-- A 32-bit word held for a party and marked for one 64-bit register (R15, R17): page, offset of the register, value. -/
structure Half where
  page : Nat
  off : Nat
  value : Nat
deriving DecidableEq, Repr

/-- A consumer of event lines (R28): a Churn core's slot, Herd's verdict line of a pool, the doorbell generator of an
accelerator. -/
inductive Consumer
  | core (n slot : Nat)
  | verdict (pool : Nat)
  | doorbell (acc : Nat)
deriving DecidableEq, Repr

/-- What a wake request holds until its domain is awake (R29, R78, R793, R795): a pulse, a register access of a width, an interrupt to a
Wayside core, a reissue, an access of the device-memory aperture, a request of an accelerator, or other work. -/
inductive HeldItem
  | pulse (k : Consumer)
  | access (p : Party) (page off bits : Nat) (wr : Option Nat)
  | irq (w line : Nat)
  | reissue (core : Nat)
  | aperture (h off : Nat) (wr : Option (List Nat)) (len : Nat) (poisoned : Bool)
  | accel (a : Nat) (op : AccOp) (addr : Nat)
  | work
deriving DecidableEq, Repr

/-- A wake request: the domain, what it holds, and the causes of its recorded refusals as a mask (R799). -/
structure WakeReq where
  dom : Nat
  item : HeldItem
  refused : Nat
deriving DecidableEq, Repr

/-- A translation that a Wayside core holds (R219, R220): address space, virtual page and its size as a power of two, leaf
entry. A global leaf counts in every address space. -/
structure TlbEntry where
  asid : Nat
  vaddr : Nat
  log2 : Nat
  leaf : Nat
deriving DecidableEq, Repr

/-- A tile or digest operation in progress (R152, R215, R227): the address of its instruction, its major, `SUB`, the two
parameter values, the operand pointers P[g]+0 to +6, and the tile cycle after its last. -/
structure TileOp where
  pc : Nat
  major : Nat
  sub : Nat
  dn : Nat
  dn1 : Nat
  ptrs : List Nat
  endCycle : Nat
deriving DecidableEq, Repr

/-- A WAIT in progress (R162): the slot, the count, the timeout in tile cycles (0 none), whether it is WAIT.M, and for
WAIT.M whether the wait has ended and only the Milestone edge is missing (R164). -/
structure WaitOp where
  slot : Nat
  count : Nat
  timeout : Nat
  edge : Bool
  met : Bool
deriving DecidableEq, Repr

/-- The registers of one Sterok core (R188–R196, R210) and what its sequencer has in progress. On a Churn core RUN_STATE,
CYCLES, RETIRED, the consumer counts and the trap registers are the page's fields. -/
structure CoreSt where
  /-- Program counter. -/
  pc : Nat
  /-- Pointer registers P0–P15. -/
  p : SMap Word
  /-- Value registers V0–V15. -/
  v : SMap Word
  /-- Accumulators ACC0–ACC3. -/
  acc : SMap Acc
  /-- CT4. -/
  status : Word
  /-- CT16 + 2n and CT17 + 2n: start of window n at key 2n, its length at key 2n + 1. -/
  wrap : SMap Word
  trapCause : Word
  trapPc : Word
  trapVal : Word
  trapVec : Word
  supSp : Word
  irqPending : Word
  irqEnable : Word
  ptRoot : Word
  asid : Word
  mmuCtrl : Word
  /-- CT7 on a Wayside core or the Steward. -/
  retired : Word
  tlb : List TlbEntry
  /-- In WFI, waiting for an interrupt. -/
  wfi : Bool
  tile : Option TileOp
  wait : Option WaitOp
  /-- A restart mark that waits for its Milestone edge (R178). -/
  mark : Bool
  /-- A restart-mark record of the member stands in the restart area (R181). -/
  marked : Bool
  /-- Lines that SIGNAL pulses once the running tile operation has written (R150), oldest first. -/
  sigs : List Nat
deriving DecidableEq, Repr

/-- A core right after reset: STATUS as R210 gives it; every other register 0, for which the spec gives no reset value (log entry 48). -/
def CoreSt.reset : CoreSt :=
  { pc := 0, p := [], v := [], acc := [], status := 0x10#64, wrap := [], trapCause := 0, trapPc := 0, trapVal := 0,
    trapVec := 0, supSp := 0, irqPending := 0, irqEnable := 0, ptRoot := 0, asid := 0, mmuCtrl := 0, retired := 0,
    tlb := [], wfi := false, tile := none, wait := none, mark := false, marked := false,
    sigs := [] }

/-- A member's reissue in progress (R181): the failed core, its replacement, and whether the restart was released. -/
structure Reissue where
  failed : Nat
  repl : Nat
  ready : Bool
  released : Bool
deriving DecidableEq, Repr

/-- A Mover descriptor that a channel runs (R239): its address, and its fields. -/
structure MovRun where
  addr : Nat
  src : Nat
  dst : Nat
  len : Nat
  prio : Nat
  trail : Bool
  evt : Nat
  wmk : Bool
  mcast : Nat
  wmkCtx : Nat
  wmkFmt : Nat
  logical : Nat
deriving DecidableEq, Repr

/-- A digest context of the WMK page (chapter 13): owner code, `SPOILED`, seeds, sums, additions. -/
structure WmkCtx where
  owner : Nat
  spoiled : Bool
  seed0 : Nat
  seed1 : Nat
  sum0 : Nat
  sum1 : Nat
  adds : Nat
deriving DecidableEq, Repr

/-- A free context: every field at its reset value (R561). -/
def WmkCtx.free : WmkCtx := ⟨0xFFFF, false, 0, 1, 0, 0, 0⟩

/-- A producer of an event line (R27): the page that binds it and a number within the page. -/
structure Producer where
  page : Nat
  sub : Nat
deriving DecidableEq, Repr

/-- A place that a `TARGET` code names (R338, R387): 0 and 1 host memory, 2 an accelerator behind Spur port `port`, 3 device
memory of activity `act`; the address, and the owner for whom it is reached. -/
structure Spot where
  target : Nat
  port : Nat
  act : Nat
  addr : Nat
  owner : Nat
deriving DecidableEq, Repr

/-- A message that Ahnam sends (R286, R312): its number and header fields, the key slot of a protected message (page * 8 +
slot) with its key, where its bytes lie (a place, or the bytes themselves), the next offset not yet sent, the offsets acknowledged, the
offsets answered `BUSY`, and the `BUSY` answers drawn. -/
structure TxMsg where
  id : Nat
  opcode : Nat
  qp : Nat
  gen : Nat
  dev : Nat
  dqp : Nat
  tag : Nat
  inc : Nat
  seq : Nat
  len : Nat
  prot : Option Nat
  key : List Nat
  src : Option Spot
  inl : List Nat
  opf : List Nat
  next : Nat
  acked : List Nat
  busy : List Nat
  rnr : Nat
deriving DecidableEq, Repr

/-- A flight entry (R279): the current transmission, and its earlier ones as (TSN, path, send time); the acknowledged
transmissions with a higher TSN on its path (R302). -/
structure Flight where
  tsn : Nat
  path : Nat
  sent : Nat
  old : List (Nat × Nat × Nat)
  dev : Nat
  msg : Nat
  offset : Nat
  len : Nat
  retry : Nat
  higher : Nat
deriving DecidableEq, Repr

/-- A destination cache entry (R279, R309): agreed version (0 none yet), incompatible, the HELLO in flight with its retries,
the window with 8 fraction bits, the smoothed RTT, the time of the last decrease, the rotating path pointer, the 64 source
ports with their loss and acknowledgement counts, and the order of last use. -/
structure AhnDest where
  ver : Nat
  bad : Bool
  helloTsn : Nat
  helloTries : Nat
  w8 : Nat
  srtt : Nat
  lastDec : Option Nat
  ptr : Nat
  ports : List Nat
  losses : List Nat
  goods : List Nat
  used : Nat
deriving DecidableEq, Repr

/-- A receive entry taken by a SEND (R346, R353): `LOCAL_ADDR`, `LOCAL_KEY`, `LENGTH`, `WORK_ID`, `GEN`. -/
structure RecvEnt where
  addr : Nat
  key : Nat
  len : Nat
  wid : Nat
  gen : Nat
deriving DecidableEq, Repr

/-- A reassembly entry (R279): sender and number, the header of the message, the (offset, bytes) placed, the bytes kept for
the message's own use (flag, request or segment), the receive entry it took, whether it was refused (R351), and whether it
belongs to an incarnation not adopted yet (R318). -/
structure Reasm where
  dev : Nat
  msg : Nat
  hdr : Packet
  got : List (Nat × Nat)
  kept : List (Nat × List Nat)
  recv : Option RecvEnt
  refused : Bool
  fresh : Bool
deriving DecidableEq, Repr

/-- A receiving stream context (R313, R317): incarnation, next sequence to deliver, sequences above it that count as
delivered. -/
structure RxStream where
  key : StreamKey
  inc : Nat
  next : Nat
  skip : List Nat
deriving DecidableEq, Repr

/-- A sending stream context (R316): incarnation, next sequence to send. -/
structure TxStream where
  key : StreamKey
  inc : Nat
  next : Nat
deriving DecidableEq, Repr

/-- A send entry taken (R345): its index, `WORK_ID`, operation, `GEN`, tag, local place of its data, length, message, and its
status once it is done. -/
structure AhnWork where
  slot : Nat
  wid : Nat
  opcode : Nat
  gen : Nat
  tag : Nat
  loc : Spot
  len : Nat
  msg : Nat
  status : Option Nat
deriving DecidableEq, Repr

/-- A completion record not yet written (R347): the send entry whose record it is, `GEN`, and the 28 bytes before `PHASE`. -/
structure AhnRec where
  slot : Option Nat
  gen : Nat
  body : List Nat
deriving DecidableEq, Repr

/-- What a queue pair holds beside its context in memory (R342–R349): tails and `CQ_HEAD` as posted, the next send entry to
take, entries taken, records waiting, and a RESET under way. -/
structure AhnQp where
  sqTail : Nat
  rqTail : Nat
  cqHead : Nat
  sqNext : Nat
  works : List AhnWork
  recs : List AhnRec
  resetting : Bool
deriving DecidableEq, Repr

/-- A queue pair after RESET. -/
def AhnQp.idle : AhnQp := ⟨0, 0, 0, 0, [], [], false⟩

/-- A WRITE_FLAG delivered whose flag is not yet written (R314): stream, message, place and bytes of the flag, and the
notification that follows it. -/
structure FlagWait where
  key : StreamKey
  dev : Nat
  msg : Nat
  spot : Spot
  bytes : List Nat
  note : Option (Nat × AhnRec)
deriving DecidableEq, Repr

/-- An ACK entry gathered (R293): transmission, time gathered, `CE`, `DUP`, `BUSY`, and the path and UDP source port of its
packet. -/
structure AckHeld where
  tsn : Nat
  time : Nat
  ce : Bool
  dup : Bool
  busy : Bool
  path : Nat
  port : Nat
deriving DecidableEq, Repr

/-- A member known in an election (R326): serial, IP address, its ID once assigned. -/
structure ElectMember where
  serial : Nat
  ip : Nat
  id : Option Nat
deriving DecidableEq, Repr

/-- The election (R326–R330): starting, coordinating, members known, serials seen from two addresses, ROSTER chunks not
acknowledged as (serial, first, transmissions). -/
structure Elect where
  starting : Bool
  closed : Bool
  members : List ElectMember
  conflicts : List Nat
  waiting : List (Nat × Nat × Nat)
deriving DecidableEq, Repr

/-- What leaves the device and is kept in no register: the log `Chip.out`, oldest first, which no step reads. -/
inductive Output
  /-- An MSI-X message to host `h`: function, vector (R61, R710). -/
  | msix (h f vec : Nat)
  /-- A value returned to the party that read (R16, R84, R78). -/
  | readData (p : Party) (value : Nat)
  /-- Read data marked poisoned (R33). -/
  | readPoison (p : Party)
  /-- A PlatformEventMessage from endpoint `ep` to its receiver: the record kind and the code (R859). -/
  | platformEvent (ep receiver kind code : Nat)
  /-- An Ahnam DATA packet (R272, R276) to IP address `ip`. -/
  | data (ip : Nat) (pkt : Packet)
  /-- An ACK packet (R294): destination device, UDP source port, entries. -/
  | ack (dev port : Nat) (es : List AckEntry)
  /-- A HELLO or HELLO_REPLY (R320): destination device, version range, module serial. -/
  | hello (reply : Bool) (dev verMin verMax serial : Nat)
  /-- An ELECT packet (R325): the address it goes to, kind, domain tag, serial; the address table entries of a ROSTER chunk
  and its first ID, or the member's IP address of a JOIN. -/
  | elect (dst kind tag serial first : Nat) (es : List RosterEntry)
  /-- An Ethernet frame of a transmit ring (R627). -/
  | frame (port : Nat) (bytes : List Nat)
  /-- A PFC frame: XOFF (`on` false) or XON for a priority (R570). -/
  | pfc (port prio : Nat) (on : Bool)
  /-- Read data, or the old value of an AtomicOp, to the accelerator on Spur port `a` (R701, R705). -/
  | accData (a : Nat) (data : List Nat) (poisoned : Bool)
  /-- Read data of the device-memory aperture to host `h` (R696). -/
  | apertureData (h : Nat) (data : List Nat) (poisoned : Bool)
  /-- A request that arrived on the port of page `page` completes with Unsupported Request. -/
  | unsupported (page : Nat)
  /-- A hot reset on Spur port `a` (R720). -/
  | hotReset (a : Nat)
  /-- PM_PME of function `f` of host port `h` (R723). -/
  | pme (h f : Nat)
  /-- A telemetry datagram of the management port (R852). -/
  | telemetry (bytes : List Nat)
  /-- An ICMP echo reply to IP address `dst` (R861). -/
  | icmp (dst : Nat) (data : List Nat)
  /-- A response of MCTP endpoint `ep`: its completion code and data (R858). -/
  | pldm (ep code : Nat) (data : List Nat)
  /-- A character sent on the UART (R863). -/
  | uart (data : Nat)
  /-- What a JTAG instruction shifts out (R868, R869). -/
  | jtag (value : Nat)
deriving DecidableEq, Repr

/-- The control rings of a stall (R754): tail and head of the request ring, head and tail of the completion ring, each modulo
2^15. -/
structure StallCtl where
  tail : Nat
  head : Nat
  cqHead : Nat
  cqTail : Nat
deriving DecidableEq, Repr

def StallCtl.idle : StallCtl := ⟨0, 0, 0, 0⟩

/-- A frame of the management port (R847, R861, R862): a datagram on port 47267, an ICMP echo, a PTP Sync. -/
inductive MgmtFrame
  | datagram (src : Nat) (m : Option LbyMsg)
  | echo (src : Nat) (data : List Nat)
  | sync (trim err : Nat) (locked : Bool)
deriving DecidableEq, Repr

/-- The firmware's side of boot and of an update (chapter 20): the half of always-on memory that holds the running image, its entry, the
ROM holds FAULT_N, the hold of a live update, the image that a running STAGE programs with its place (0, 1 a slot, 2 the
recovery flash), frames of the management port kept in the hold and dropped there. -/
structure BootSt where
  half : Nat
  entry : Nat
  romFault : Bool
  hold : Bool
  job : Option (Nat × List Nat)
  kept : List MgmtFrame
  dropped : Nat
deriving DecidableEq, Repr

def BootSt.reset : BootSt := ⟨0, 0, false, false, none, [], 0⟩

/-- The module's supply (chapter 24): P1 in range, PWR_GOOD, PWR_EN has fallen less than 100 ms ago, a rise of PWR_EN is held
until then, the steps are held at their maximum for COOLANT_OK. -/
structure ModuleSt where
  input : Bool
  good : Bool
  low : Bool
  held : Bool
  noFlow : Bool
deriving DecidableEq, Repr

/-- Powered and running. -/
def ModuleSt.reset : ModuleSt := ⟨true, true, false, false, false⟩

/-- A collective in progress (chapter 09): its queue, group and `COLL_SEQ`, its descriptor's 128 bytes, the segments received,
the segments sent as (phase, step, rank, tile), what the output held, and the
status once it is known. -/
structure ColRun where
  queue : Nat
  group : Nat
  seq : Nat
  desc : List Nat
  segs : List Segment
  sent : List (Nat × Nat × Nat × Nat)
  satAny : Bool
  special : Bool
  status : Option Nat
  failRank : Nat
deriving DecidableEq, Repr

/-- A descriptor taken from a transmit ring (R626, R627): ring, index, `GEN`, the `PHASE` it will carry, `TS_REQ`, buffer
address and length. -/
structure TxDesc where
  ring : Nat
  ix : Nat
  gen : Nat
  phase : Nat
  ts : Bool
  addr : Nat
  len : Nat
deriving DecidableEq, Repr

/-- A frame for an Ethernet port (R619–R621): the port, its class, its length with FCS, the stall it
belongs to, and what it is: the descriptor of a transmit ring, or a frame that another block formed. -/
structure TxFrame where
  port : Nat
  cls : Nat
  len : Nat
  stall : Option Nat
  ring : Option TxDesc
  what : Output
deriving DecidableEq, Repr

/-- A Toll queue (R606–R618): its committed configuration, buckets in 2^-16 B, counters, deficit. -/
structure TolQ where
  cir : Nat
  pir : Nat
  cbs : Nat
  pbs : Nat
  weight : Nat
  role : Nat
  zero : Bool
  meter : Bool
  aware : Bool
  redDrop : Bool
  prio : Nat
  bound : Bool
  cTok : Int
  pTok : Int
  green : Nat
  yellow : Nat
  red : Nat
  deficit : Nat
deriving DecidableEq, Repr

/-- A queue that nothing has configured. -/
def TolQ.off : TolQ := ⟨0, 0, 0, 0, 0, 0, false, false, false, false, 0, false, 0, 0, 0, 0, 0, 0⟩

/-- A stall shaper (R620). -/
structure Shaper where
  rate : Nat
  burst : Nat
  weight : Nat
  en : Bool
  zero : Bool
  tok : Int
deriving DecidableEq, Repr

def Shaper.off : Shaper := ⟨0, 0, 1, false, false, 0⟩

/-- The rounds of R614 over a set: pointer, `fresh`, deficits. -/
structure Rounds where
  ptr : Nat
  fresh : Bool
  deficits : List (Nat × Nat)
deriving DecidableEq, Repr

/-- A rule of the Separator (R576, R597): `VALUE`, `MASK`, action, `OWNER`, `VALID`, `HITS`, a parity error (R602). -/
structure SepRule where
  value : Nat
  mask : Nat
  action : Nat
  owner : Nat
  valid : Bool
  hits : Nat
  bad : Bool
deriving DecidableEq, Repr

/-- A slot that nothing has written. -/
def SepRule.none : SepRule := ⟨0, 0, 0, 0xFFFF, false, 0, false⟩

/-- A received frame on its way (R569, R580, R592): number, port, bytes without FCS, first 64 bytes, receive time, a MAC error,
bank of its pass 0, pass, `META`, fallback queue with the stall that named it, class, pre-colour, Toll queue, hash, deciding
rule, and the owner that the queue must have. -/
structure SepFrame where
  id : Nat
  port : Nat
  bytes : List Nat
  head : List Nat
  time : Nat
  error : Bool
  bank : Nat
  pass : Nat
  info : Nat
  fallback : Nat
  stall : Option Nat
  cls : Option Nat
  colour : Nat
  tollQ : Option Nat
  hash : Nat
  rule : Option Nat
deriving DecidableEq, Repr

/-- A frame in placement (R591): the bytes not placed yet, and the descriptors taken as (index, `GEN`, `PHASE`, bytes placed). -/
structure RxPlace where
  frame : SepFrame
  rest : List Nat
  used : List (Nat × Nat × Nat × Nat)
deriving DecidableEq, Repr

/-- A write-back not written yet (R592): descriptor index, `GEN`, bytes 0x00–0x1B, `PHASE`, and the last of a delivered frame. -/
structure RxBack where
  ix : Nat
  gen : Nat
  body : List Nat
  phase : Nat
  last : Bool
deriving DecidableEq, Repr

/-- A receive queue beside its context: tail posted, the frames that wait for it (the first is in placement), write-backs. -/
structure RxQ where
  tail : Nat
  frames : List RxPlace
  backs : List RxBack
deriving DecidableEq, Repr

def RxQ.idle : RxQ := ⟨0, [], []⟩

/-- A Pail command taken (R646, R649): its number in arrival order, queue, owner, tag, operation, volume and its first stripe,
first block, blocks, buffer, `CMD_ID`, `GEN`; the segments started, those in progress with their staged data, the blocks
done, its status so far, and the SSDs flushed for it (R652). -/
structure PalCmd where
  n : Nat
  queue : Nat
  owner : Nat
  tag : Nat
  op : Nat
  vol : Nat
  base : Nat
  block : Nat
  blocks : Nat
  addr : Nat
  target : Nat
  port : Nat
  cmdId : Nat
  gen : Nat
  next : Nat
  active : List (Nat × List Nat)
  done : Nat
  status : Nat
  flushed : List Nat
deriving DecidableEq, Repr

/-- What a Pail queue holds beside its context in memory: tail and `CQ_HEAD` as posted, and completions that wait for a slot
(the 12 bytes before `SQ_HEAD`, and their `GEN`; R647). -/
structure PalQ where
  sqTail : Nat
  cqHead : Nat
  recs : List (List Nat × Nat)
deriving DecidableEq, Repr

/-- A KV page (R480): descriptor index, sequence index, page number, tier, accelerator, class, place; `POISON`; the tier,
accelerator and place that its running move goes to (R482); and the tier and accelerator it is wanted in. -/
structure KvPage where
  desc : Nat
  seq : Nat
  no : Nat
  tier : Nat
  acc : Nat
  cls : Nat
  loc : Nat
  poison : Bool
  move : Option (Nat × Nat × Nat)
  goal : Option (Nat × Nat)
deriving DecidableEq, Repr

/-- A sequence that is not FREE (R473): index, incarnation, state, `EPHEMERAL`, model, owner, tokens; pages reserved on
accelerator `acc`; header address, depth, tokens per page, class; `BASE_TOKENS` and the prompt of the current request;
time of last use; FREE waits for its moves; and its tables as (level, index, address). -/
structure KvSeq where
  ix : Nat
  inc : Nat
  state : Nat
  eph : Bool
  model : Nat
  owner : Nat
  tokens : Nat
  reserved : Nat
  acc : Nat
  root : Nat
  depth : Nat
  tpp : Nat
  cls : Nat
  base : Nat
  prompt : Nat
  lastUse : Nat
  freeing : Bool
  tabs : List (Nat × Nat × Nat)
deriving DecidableEq, Repr

/-- A load of the Vat (R464–R470): image, model it was asked for, target accelerators (0 not chosen yet), stage (0 waits, 1
releases, 2 writes), the accelerator whose attempt failed, and whether it was asked for in advance. -/
structure VatLoad where
  image : Nat
  model : Nat
  targets : Nat
  stage : Nat
  failed : Option Nat
  ahead : Bool
deriving DecidableEq, Repr

/-- A release of an image on an accelerator (R466): the last MODEL_RELEASE ticket, once written, and whether `IMG_CMD` RELEASE
asked for it (R471). -/
structure VatRel where
  image : Nat
  acc : Nat
  ticket : Option Nat
  cmd : Bool
deriving DecidableEq, Repr

/-- What Herd holds for a context beside its 128 bytes (R421): the kind of the call it waits for, staged tokens, cancelled,
members that reported EVICTED, receive buffer (queue pair, `WORK_ID`), ADMIT tickets not acknowledged as (accelerator,
ticket), and whether its origin was reset (R447). -/
structure HerdReq where
  call : Option Nat
  staged : List Nat
  cancel : Bool
  evicted : Nat
  buf : Option (Nat × Nat)
  tix : List (Nat × Nat)
  orphan : Bool
deriving DecidableEq, Repr

/-- A context that holds nothing. -/
def HerdReq.idle : HerdReq := ⟨none, [], false, 0, none, [], false⟩

/-- A batch closed whose pages are not all in place (R483), or whose tickets are not written: model, accelerators, contexts,
`BATCH_ID`. -/
structure HerdBatch where
  model : Nat
  accs : Nat
  ctxs : List Nat
  id : Nat
deriving DecidableEq, Repr

/-- A ticket (R439): its number once written, kind, model, list entries of its kind, `EARLIEST_DEADLINE`, `BATCH_ID`. -/
structure HerdTicket where
  seq : Nat
  kind : Nat
  model : Nat
  list : List (List Nat)
  ctxs : List Nat
  deadline : Nat
  batch : Nat
deriving DecidableEq, Repr

/-- An event that waits for its context (R424): the record at the head of a completion ring, a CANCEL, a verdict, a timer. -/
inductive HerdEvt
  | record (a : Nat)
  | cancel
  | verdict (kind model info : Nat)
  | side
  | deadline
  | flush
deriving DecidableEq, Repr

/-- What an intake queue holds beside its context: its state (0 RESET, 1 ACTIVE, 2 DRAINING), tail and freed head as posted,
records taken, reply entries written, and reply entries that wait. -/
structure IntakeQ where
  state : Nat
  tail : Nat
  head : Nat
  cqHead : Nat
  cqTail : Nat
  recs : List (List Nat)
deriving DecidableEq, Repr

/-- An epoch in production (R512): its number, the step it captures, whether that is the final step, stage (1 capture, 2 Skim
and partner copy, 3 PREPARED), HELD_OK received, and the DIGEST messages not answered yet. -/
structure LbyRun where
  epoch : Nat
  step : Nat
  final : Bool
  stage : Nat
  held : Bool
  due : Nat
deriving DecidableEq, Repr

/-- A held slot (R497, R512): owner's rank, epoch, address, `SLOT_STATE`. -/
structure LbyHeld where
  owner : Nat
  epoch : Nat
  addr : Nat
  state : Nat
deriving DecidableEq, Repr

/-- What Layby holds beside its registers and its tables in memory (chapter 12): the epoch in production; the next epoch and
the aborted attempts of each; accelerators that marked, the last step acted on, a checkpoint step that waits for its slot,
a `GO_ADDR` word withheld; the stop step of HALT_AT, the earliest deadline, a notice of its own; ranks known under handback,
leaders treated as failed; what the leader gathers: START reports (rank, `LBY_BYTES`, `HELD_SIZE`), PREPARED ranks, step
reports of a stop that runs, an epoch it queries with the ranks that answered, latest DRAINED epoch of each rank; DIGESTs
that wait for the capture; epochs to drain; held slots; the Skim index is being rebuilt; steps 3 and 5 of R528 are done. -/
structure LbySt where
  run : Option LbyRun
  next : Nat
  tries : List (Nat × Nat)
  marked : List Nat
  acted : Option Nat
  wait : Option Nat
  goHeld : Bool
  last : Option Nat
  deadline : Option Nat
  own : Bool
  leaving : List Nat
  failed : List Nat
  reports : List (Nat × Nat × Nat)
  ready : List Nat
  steps : Option (List (Nat × Nat))
  query : Option (Nat × List Nat)
  drained : List (Nat × Nat)
  digests : List LbyMsg
  drains : List Nat
  held : List LbyHeld
  stale : Bool
  shifted : Bool
  left : Bool
deriving DecidableEq, Repr

/-- No job. -/
def LbySt.idle : LbySt :=
  { run := none, next := 1, tries := [], marked := [], acted := none, wait := none, goHeld := false, last := none,
    deadline := none, own := false, leaving := [], failed := [], reports := [], ready := [], steps := none, query := none,
    drained := [], digests := [], drains := [], held := [], stale := false, shifted := false, left := false }

/-- The block without its queue of waiting commands. -/
structure Chip where
  /-- The register fields of every page: a field's value stands at `fldKey` of it, its reset value unlisted. -/
  regs : SMap Nat
  /-- The values last written to reserved bits, by page * 0x1000 + offset (R11). -/
  held : SMap Nat
  /-- The pending low word of each party (R15), by `partyIx`. -/
  pendLow : SMap (Option Half)
  /-- The latch of each party (R17), by `partyIx`. -/
  latch : SMap (Option Half)
  /-- Semaphores whose abandonment is marked and not yet told (R87, R88). -/
  semAbandoned : List Nat
  /-- The host port that is granted the next tie (R89). -/
  hostTie : Nat
  /-- Memory, as cells in canonical form; the key is the space times 2^64 plus the address. -/
  mem : List Host.Cell
  /-- The poisoned 64-byte lines, by key / 64 (R894, R142). -/
  poison : List Nat
  /-- The Sterok cores, by `coreIx`. -/
  cores : SMap CoreSt
  /-- The producer bound to each event line (R27). -/
  producers : SMap (Option Producer)
  /-- The consumers bound to each event line (R28). -/
  consumers : SMap (List Consumer)
  /-- Wake requests waiting for a grant, oldest first (R29, R798). -/
  wakes : List WakeReq
  /-- Domains granted a wake that is not complete (R798). -/
  waking : List Nat
  /-- Start attempts of each PLL that is starting (R789). -/
  pllTries : SMap Nat
  /-- PLLs whose second attempt failed (R789). -/
  pllFailed : List Nat
  /-- The consecutive samples at or above 115 °C of each sensor (R809). -/
  hotSamples : SMap Nat
  /-- Sensors that failed their self-check since chip reset (R806). -/
  sensorFailed : List Nat
  /-- Reissues in progress (R181). -/
  reissues : List Reissue
  /-- Cores whose page has enabled since they joined their pool, so that `MEMBER` stands (R167). -/
  numbered : List Nat
  /-- Work folded onto another member when no spare was left (R186): failed core, the member core that runs it. -/
  folded : List (Nat × Nat)
  /-- Corrected reads by row: row address, Milestone time (R838). -/
  rowCorr : List (Nat × Nat)
  /-- The running descriptor of each Mover channel, by engine * 64 + channel. -/
  movRun : SMap (Option MovRun)
  /-- The Mover bucket of each stall, in units of 2^-16 B (R606, R741). -/
  stallMov : SMap Int
  /-- The Pail bucket of each stall (R741). -/
  stallPail : SMap Int
  /-- The dirty-page map of each stall that logs, in its home's host memory (R746). -/
  stallLog : SMap Nat
  /-- Host ports whose WAKE_N the device asserts (R724). -/
  wakeN : List Nat
  /-- Pages under an automatic engine reset (R833, R834). -/
  recovering : List Nat
  /-- A write of 0 to FAULT_HOLD during the pulse, which takes effect at its end (R823). -/
  holdClear : Bool
  /-- The telemetry export queue, oldest first (R851). -/
  tel : List TelRec
  /-- Records lost since the previous datagram (R852). -/
  telLostSince : Nat
  /-- The next datagram sequence (R852). -/
  dgramSeq : Nat
  /-- The digest contexts of WMK, by number (chapter 13). -/
  wmk : SMap WmkCtx
  /-- The keys in the key store, by page * 8 + slot; an EMPTY slot holds none (R668, R673). -/
  keys : SMap (List Nat)
  /-- Slots that have served as an Ahnam `TX_SLOT` since their load (R676). -/
  keyTx : List Nat
  /-- Ahnam's counters of `MSG_ID`, `TSN`, `STREAM_INC` and source ports (R286, R288, R290, R316), and of cache use. -/
  msgNext : Nat
  tsnNext : Nat
  incNext : Nat
  portNext : Nat
  useNext : Nat
  /-- No DATA packet is sent until the quiet time after a counter start ends (R286). -/
  quiet : Bool
  /-- Ahnam's tables (R279), and what its queue pairs hold. -/
  txMsgs : List TxMsg
  flights : List Flight
  dests : SMap (Option AhnDest)
  reasm : List Reasm
  /-- Completion marks (device, message; R279). -/
  recent : List (Nat × Nat)
  txStreams : List TxStream
  rxStreams : List RxStream
  /-- ACK entries gathered for each device. -/
  acks : SMap (List AckHeld)
  flags : List FlagWait
  qps : SMap AhnQp
  elect : Elect
  /-- Collectives in progress, segments held for later ones, and ABORT segments to send once `COL_QP` is ACTIVE again, as
  (group, seq, by stop). -/
  colRuns : List ColRun
  colHeld : List Segment
  colAborts : List (Nat × Nat × Bool)
  /-- A collective with `STEP_END` has finished since `STOP_ARM` was set (R411). -/
  colBoundary : Bool
  /-- Frames that wait to enter a port queue, oldest first (R620, R621). -/
  txWait : List TxFrame
  /-- Toll (chapter 15): queues and their frames by port * 64 + queue; the rounds of each port's sets (port * 2 + set) and of
  admission to each queue; shapers by stall; the ring frame on each port's wire with its start time; tails of the transmit
  rings; priorities that a port obeys XOFF for. -/
  tolQs : SMap TolQ
  tolFrames : SMap (List TxFrame)
  tolRounds : SMap Rounds
  tolAdmit : SMap Rounds
  tolShp : SMap Shaper
  tolWire : SMap (Option (TxFrame × Nat))
  txTail : SMap Nat
  pfcOff : SMap Nat
  /-- The Separator (chapter 14): rules by bank * 8192 + index (the stall range stands in bank 2), indirection tables by
  table * 512 + entry, frames that recirculate, the next frame number, receive queues, priorities that each group sent XOFF for
  (port * 8 + priority). -/
  sepRules : SMap SepRule
  sepTables : SMap Nat
  sepFrames : List SepFrame
  sepNext : Nat
  rxQs : SMap RxQ
  pfcSent : List Nat
  /-- Pail (chapter 16): its queues, commands in arrival order, the next number, the queue of the latest turn, journalled
  stripes (which outlive a reset), and the slot under rebuild. -/
  palQs : SMap PalQ
  palCmds : List PalCmd
  palNext : Nat
  palTurn : Nat
  palJournal : List Nat
  palRebuild : Option Nat
  /-- The KV pager's pages and sequences (chapter 11). -/
  kvPages : List KvPage
  kvSeqs : List KvSeq
  /-- The Vat's loads in the order asked for, its releases, the models announced as (accelerator, model), and the image
  being filled. -/
  vatLoads : List VatLoad
  vatRels : List VatRel
  vatReady : List (Nat × Nat)
  vatFill : Option Nat
  /-- Herd (chapter 10): contexts not FREE, ascending; the scoreboard, least recently touched first; working state of a
  context; events that wait for a context; queue of each model in R428's order; held batch of each model; batches that
  wait for pages; outstanding and waiting tickets of each accelerator; records consumed of each completion ring; slot of
  each call ring; next `BATCH_ID`; next list slot; intake queues. -/
  herdLive : List Nat
  herdSb : List Nat
  herdReqs : SMap HerdReq
  herdWait : List (Nat × HerdEvt)
  herdQueue : SMap (List Nat)
  herdHeld : SMap (List Nat)
  herdBatches : List HerdBatch
  herdTix : SMap (List HerdTicket)
  herdTixWait : SMap (List HerdTicket)
  herdComp : SMap Nat
  herdCall : SMap Nat
  herdBatchId : Nat
  herdList : Nat
  intake : SMap IntakeQ
  /-- Layby (chapter 12). -/
  lby : LbySt
  /-- Stalls whose FREEZE runs (R749). -/
  freezing : List Nat
  /-- The service images that run: image, mask of its Wayside cores (R752). -/
  images : SMap Nat
  /-- STL commands that wait for image 0, as (host port, command, stall) (R753); control rings; cores that FREEZE stopped
  (R749). -/
  stlWait : List (Nat × Nat × Nat)
  stallCtl : SMap StallCtl
  stlMembers : List Nat
  /-- Functions with PME_Status, by host port * 4 + function (R723). -/
  pmeStatus : List Nat
  /-- The time at which PERST# of a host port was asserted (R826). -/
  perstAt : SMap (Option Nat)
  boot : BootSt
  module : ModuleSt
  /-- The throttle step that gates each region (R802): 0 north, 1 south, 2 Wayside, 3 fabric. -/
  stepNow : SMap Nat
  /-- Firmware's thermal and power loops' own demands of a step, by region (R807). -/
  loopStep : SMap Nat
  /-- The instant of the latest power rise of the hardware steps (R804). -/
  powerRise : Option Nat
  /-- The regulator setpoints that the voltage loop gave (R807). -/
  setpoints : List Nat
  /-- A time step that waits for its edge (R848), as written. -/
  timeStep : Option Nat
  /-- The page of the next COUNTERS record (R850). -/
  ctrPage : Nat
  /-- Endpoint IDs and terminus IDs of the MCTP endpoints (R857, R858). -/
  eids : SMap Nat
  tids : SMap Nat
  /-- The UART's receive FIFO (R865), as `UART_RX` shows each entry. -/
  uartRx : List Nat
  /-- The nonce of UNLOCK_CHALLENGE, once drawn (R869). -/
  nonce : Option Word
  /-- The event receiver of each MCTP endpoint (R858). -/
  evtReceiver : SMap Nat
  /-- What left the device. -/
  out : List Output
  /-- Uses of `Config.freeValue` so far (the model's own field; DESIGN CHOICE, log entry 1). -/
  free : Nat
deriving DecidableEq, Repr

/-- The machine: the block and the commands that wait, first in first out. -/
structure State where
  chip : Chip
  pending : List Instr
deriving DecidableEq, Repr

/-- The block right after reset: every field at its reset value, memory with nothing listed. -/
def Chip.reset : Chip :=
  { regs := [], held := [], pendLow := [], latch := [], semAbandoned := [], hostTie := 0, mem := [], poison := [],
    cores := [], producers := [], consumers := [], wakes := [], waking := [], pllTries := [], pllFailed := [],
    hotSamples := [], sensorFailed := [], reissues := [], numbered := [], folded := [], rowCorr := [], movRun := [],
    stallMov := [], stallPail := [], stallLog := [], wakeN := [], recovering := [], holdClear := false, tel := [], telLostSince := 0, dgramSeq := 0, wmk := [], keys := [], keyTx := [],
    msgNext := 0, tsnNext := 0, incNext := 0, portNext := 0, useNext := 0, quiet := false, txMsgs := [], flights := [], dests := [],
    reasm := [], recent := [], txStreams := [], rxStreams := [], acks := [], flags := [], qps := [],
    elect := ⟨false, false, [], [], []⟩, colRuns := [], colHeld := [], colAborts := [], colBoundary := false, txWait := [], tolQs := [], tolFrames := [], tolRounds := [], tolAdmit := [],
    tolShp := [], tolWire := [], txTail := [], pfcOff := [], sepRules := [], sepTables := [], sepFrames := [], sepNext := 0, rxQs := [], pfcSent := [],
    palQs := [], palCmds := [], palNext := 0, palTurn := 0, palJournal := [], palRebuild := none, kvPages := [], kvSeqs := [],
    vatLoads := [], vatRels := [], vatReady := [], vatFill := none, herdLive := [], herdSb := [], herdReqs := [], herdWait := [],
    herdQueue := [], herdHeld := [], herdBatches := [], herdTix := [], herdTixWait := [], herdComp := [], herdCall := [],
    herdBatchId := 0, herdList := 0, intake := [], lby := LbySt.idle, freezing := [], images := [],
    stlWait := [], stallCtl := [], stlMembers := [], pmeStatus := [], perstAt := [], boot := BootSt.reset, module := ModuleSt.reset, stepNow := [],
    loopStep := [], powerRise := none, setpoints := [], timeStep := none, ctrPage := 0, eids := [], tids := [], uartRx := [], nonce := none, evtReceiver := [], out := [], free := 0 }

/-- The machine right after reset: no command waits. -/
def State.reset : State := { chip := Chip.reset, pending := [] }

end Sys2Proof.Machine
end

