-- ==== Sys2Proof/Machine/Ops.lean ====
section
/-! DEFINITION. The named operations that every meaning is written over: reading and writing register fields and memory, free values, refusals, MSI-X messages, telemetry, error records and the safe state. -/

namespace Sys2Proof.Machine

/-! ### Registers -/

/-- The key at which a field's value stands in the register file. -/
def fldKey (f : Fld) : Nat := (f.page * 0x1000 + f.off) * 128 + f.lo

/-- The value of a register field; a field never written reads its reset value. -/
def rd (f : Fld) (c : Chip) : Nat := mapGet f.rst c.regs (fldKey f)

/-- A field of one bit as a truth value. -/
def rdb (f : Fld) (c : Chip) : Bool := rd f c == 1

/-- The register file with `v` (cut to the field's width) in a field. -/
def wr (f : Fld) (v : Nat) (c : Chip) : Chip :=
  { c with regs := mapPut f.rst c.regs (fldKey f) (v % 2 ^ f.width) }

/-- A flag written to a field of one bit. -/
def wrb (f : Fld) (v : Bool) (c : Chip) : Chip := wr f (b2n v) c

/-- The key of copy `b` of a banked field (R50); copy 0 is the shared register. -/
def fldKeyB (b : Nat) (f : Fld) : Nat := b * 2 ^ 48 + fldKey f

/-- A field as the writer with bank `b` sees it (R50). -/
def rdB (b : Nat) (f : Fld) (c : Chip) : Nat := mapGet f.rst c.regs (fldKeyB b f)

/-- A field of the copy of bank `b` (R50). -/
def wrB (b : Nat) (f : Fld) (v : Nat) (c : Chip) : Chip :=
  { c with regs := mapPut f.rst c.regs (fldKeyB b f) (v % 2 ^ f.width) }

/-- A counter field advanced by `n`, wrapping at its width. -/
def bump (f : Fld) (n : Nat) (c : Chip) : Chip := wr f (rd f c + n) c

/-- A counter field advanced by `n`, saturating at its width. -/
def bumpSat (f : Fld) (n : Nat) (c : Chip) : Chip := wr f (satInc (2 ^ f.width - 1) (rd f c) n) c

/-- A field put back to its reset value. -/
def wrRst (f : Fld) (c : Chip) : Chip := wr f f.rst c

/-- The register file without the fields of pages `lo` to `hi`, banked copies included: each reads its reset value. -/
def resetPages (lo hi : Nat) (c : Chip) : Chip :=
  let keep := fun (k : Nat) => let p := (k % 2 ^ 48) / (128 * 0x1000); decide (p < lo) || decide (hi < p)
  { c with regs := c.regs.filter (fun e => keep e.1)
           held := c.held.filter (fun e => let p := e.1 / 0x1000; decide (p < lo) || decide (hi < p)) }

/-- The Milestone time (R845). -/
def now (c : Chip) : Nat := rd Reg.MST_MS_TIME c

/-! ### Free values -/

/-- A fresh free value. -/
def freeVal (c : Chip) : Word := Config.freeValue c.free

/-- The chip after one use of a free value. -/
def useFree (c : Chip) : Chip := { c with free := c.free + 1 }

/-! ### Parties -/

/-- The number of a party that writes registers: host ports 0 and 1, Wayside cores 2 to 25, the Steward 26 (R15), then
stalls and device blocks. -/
def partyIx : Party → Nat
  | .host h => h.val
  | .wayside w => 2 + w.val
  | .steward => 26
  | .stall s => 32 + s.val
  | .block a => 4096 + a.val

/-- The service image that Wayside core `w` runs (R752). -/
def imageOf (w : Nat) (c : Chip) : Option Nat :=
  (c.images.find? fun e => e.2.testBit w).map (·.1)

/-- The party writes as firmware. -/
def isSteward : Party → Bool
  | .steward => true
  | _ => false

/-- The party writes as a host port. -/
def isHost : Party → Bool
  | .host _ => true
  | _ => false

/-- The party is the Wayside control service, image 0 (R753). -/
def isControl (p : Party) (c : Chip) : Bool :=
  match p with
  | .wayside w => imageOf w.val c == some 0
  | _ => false

/-- The owner code of a party (R244, R752): a stall's number, 0x8000 + host port, 0x9000 + activity, 0xB000 + image. The
Steward has none of its own; it reads 0xA000 (DESIGN CHOICE, log entry 9), which no register of the spec holds. -/
def ownerCode (p : Party) (c : Chip) : Nat :=
  match p with
  | .host h => 0x8000 + h.val
  | .wayside w => match imageOf w.val c with
    | some s => 0xB000 + s
    | none => 0xFFFF
  | .steward => 0xA000
  | .stall s => s.val
  | .block a => 0x9000 + a.val

/-- The copy of a banked register that a party writes and reads (R50): host ports 1 and 2, the control service 3, the
Steward 4; any other party has none. -/
def bankOf (p : Party) (c : Chip) : Option Nat :=
  match p with
  | .host h => some (1 + h.val)
  | .steward => some 4
  | .wayside w => if imageOf w.val c = some 0 then some 3 else none
  | _ => none

/-- The party holds semaphore `n`, or passes every guard (R91); for a stall the control service acts (R754). -/
def holdsSem (p : Party) (n : Nat) (c : Chip) : Bool :=
  match p with
  | .host h => rd (Reg.CRS_OWNER n) c == 1 + h.val
  | .steward => true
  | .wayside _ => isControl p c
  | .stall _ => true
  | .block _ => false

/-! ### Messages -/

/-- `o` leaves the device. -/
def emit (o : Output) (c : Chip) : Chip := { c with out := c.out ++ [o] }

/-- The power state of function `f` of host port `h`: 0 D0, 1 D3hot, 2 D3cold (R723). -/
def dState (h f : Nat) (c : Chip) : Nat := rd (Reg.HEP_DSTATE h) c / 4 ^ f % 4

/-- Function `f` of host port `h` issues requests: it is in D0 and not in FLR (R718, R723). -/
def funcLive (h f : Nat) (c : Chip) : Bool := dState h f c == 0 && !(rd (Reg.HEP_FLR_BUSY h) c).testBit f

/-- An MSI-X message of function `f` of host port `h`: none in FLR (R718) or D3cold; in D3hot PME_Status and PM_PME stand for it
(R723; PME_En is taken as 1, log entry 37). -/
def sendMsix (h f vec : Nat) (c : Chip) : Chip :=
  if funcLive h f c then emit (.msix h f vec) c
  else if dState h f c = 1 then emit (.pme h f) { c with pmeStatus := setAdd c.pmeStatus (4 * h + f) }
  else c

/-- An interrupt of page `page`: one MSI-X message to each host port whose half of BLK_IRQ_ROUTE is enabled (R61). -/
def pageIrq (page : Nat) (c : Chip) : Chip :=
  let c := if rdb (Hdr.EN_HOST0 page) c then sendMsix 0 0 (rd (Hdr.VEC_HOST0 page) c) c else c
  if rdb (Hdr.EN_HOST1 page) c then sendMsix 1 0 (rd (Hdr.VEC_HOST1 page) c) c else c

/-- A refusal recorded in BLK_REFUSAL (R77). -/
def refuse (page code off : Nat) (c : Chip) : Chip :=
  if hasHeader page then wr (Hdr.REFUSAL_OFFSET page) off (wr (Hdr.REFUSAL_CODE page) code c)
  else if inRuleWindow page then wr (Hdr.REFUSAL_OFFSET 0x28) off (wr (Hdr.REFUSAL_CODE 0x28) code c)
  else c

/-! ### Telemetry -/

/-- The bytes of a record: a 32 B header and the body, in whole 8 B units (R850). -/
def telBytes (r : TelRec) : Nat := alignUp (32 + r.body.length) 8

/-- The severity that R851 ranks a record by: a NODE record counts as UNCORRECTED. -/
def telRank (r : TelRec) : Nat := if r.kind = 2 then 2 else r.sev

/-- The queue without its first record that satisfies `f`, when one does. -/
def dropFirst (f : TelRec → Bool) : List TelRec → Option (List TelRec)
  | [] => none
  | r :: t => if f r then some t else (dropFirst f t).map (r :: ·)

/-- Discards until the record fits the 1 MiB queue (R851); answers the queue, the discards, and whether the new record is kept. -/
def telFit (r : TelRec) : Nat → List TelRec → Nat → List TelRec × Nat × Bool
  | 0, q, n => (q, n, false)
  | fuel + 1, q, n =>
    if (q.map telBytes).sum + telBytes r ≤ 0x100000 then (q, n, true)
    else match dropFirst (fun x => decide (telRank x < telRank r)) q with
      | some q' => telFit r fuel q' (n + 1)
      | none =>
        if r.sev = 3 then
          match dropFirst (fun x => decide (x.sev ≠ 3)) q with
          | some q' => telFit r fuel q' (n + 1)
          | none => (q, n + 1, false)
        else (q, n + 1, false)

/-- A telemetry record formed and queued (R850, R851), without the error bit of a discard. -/
def telPush (kind source sev : Nat) (body : List Nat) (c : Chip) : Chip × Nat :=
  let r : TelRec := { kind := kind, seq := rd Reg.MST_TEL_SEQ c, time := now c, source := source, sev := sev, body := body }
  let c := bump Reg.MST_TEL_SEQ 1 (bump (Reg.MST_CTR 0) 1 c)
  match telFit r (c.tel.length + 1) c.tel 0 with
  | (q, n, true) => (bumpSat Reg.MST_TEL_LOST n { c with tel := q ++ [r], telLostSince := c.telLostSince + n }, n)
  | (q, n, false) => (bumpSat Reg.MST_TEL_LOST n { c with tel := q, telLostSince := c.telLostSince + n }, n)

/-- WAKE_N of each host port whose PERST# is asserted and whose `WAKE_MASK` enables source `b` (R724). -/
def wakeHosts (b : Nat) (c : Chip) : Chip :=
  (List.range 2).foldl (fun c h =>
    if !(rd Reg.SBI_PERST_IN c).testBit h && (rd (Reg.HEP_WAKE_MASK h) c).testBit b then { c with wakeN := setAdd c.wakeN h }
    else c) c

/-! ### Errors -/

/-- The status bit of an error code: DEP_LOST (0x0001) has bit 31; the low byte of any other code is its bit plus 1. -/
def errBit (code : Nat) : Nat := if code = 1 then 31 else code % 256 - 1

/-- One error on one page without its telemetry record: status bit and interrupt (R60, R61, R816), count, and the latch of
the first error (R62). Answers whether it was latched. -/
def latchErr (page code sev : Nat) (c : Chip) : Chip × Bool :=
  let st := rd (Hdr.ERR_STATUS page) c
  let b := errBit code
  let fresh := !st.testBit b
  let c := wr (Hdr.ERR_STATUS page) (st ||| 2 ^ b) c
  let c := bumpSat (Hdr.ERR_COUNT page) 1 c
  let c := if fresh && (rd (Hdr.ERR_ENABLE page) c).testBit b then pageIrq page c else c
  if rdb (Hdr.FIRST_VALID page) c then (c, false)
  else
    (wr (Hdr.FIRST_TIME page) (now c)
      (wr (Hdr.FIRST_VALID page) 1 (wr (Hdr.FIRST_SEVERITY page) sev (wr (Hdr.FIRST_CODE page) code c))), true)

/-- The body of an ERROR record (R850): the code, and BLK_ERR_COUNT [15:0] at bits [47:32]. -/
def errBody (page code : Nat) (c : Chip) : List Nat :=
  leBytes 4 code ++ leBytes 4 (rd (Hdr.ERR_COUNT page) c % 2 ^ 16)

/-- TEL_LOST_EV of MST, recorded for each discarded record (R851, R871). The record of its own latch may be discarded in
turn; that second discard counts in TEL_LOST and sets no further bit (log entry 10). -/
def telLost (n : Nat) (c : Chip) : Chip :=
  if n = 0 then c
  else
    let r := latchErr 6 0x1A02 0 c
    if r.2 then (telPush 1 6 0 (errBody 6 0x1A02 r.1) r.1).1 else r.1

/-- A telemetry record formed (R850), with TEL_LOST_EV for a discard. -/
def telemetry (kind source sev : Nat) (body : List Nat) (c : Chip) : Chip :=
  let r := telPush kind source sev body c
  telLost r.2 r.1

/-- A platform event to each endpoint that has a receiver (R859). -/
def platformEvent (kind code : Nat) (c : Chip) : Chip :=
  (List.range 3).foldl (fun c e =>
    let r := mapGet 0 c.evtReceiver e
    if r = 0 then c else emit (.platformEvent e r kind code) c) c

/-- A NODE record (R850, R859). -/
def nodeRecord (ev : Nat) (c : Chip) : Chip :=
  platformEvent 2 ev (telemetry 2 0 0 (leBytes 8 ev) c)

/-- An error that is not FATAL (R60–R62, R814–R817). -/
def raise (page code sev : Nat) (c : Chip) : Chip :=
  let r := latchErr page code sev c
  if r.2 then telemetry 1 page sev (errBody page code r.1) r.1 else r.1

/-- The more urgent of two errors of one instant: the higher severity, then the lower code (R815). -/
def errBefore (a b : Nat × Nat) : Bool := decide (b.2 < a.2) || (decide (a.2 = b.2) && decide (a.1 ≤ b.1))

/-- Insertion into a list ordered by `errBefore`. -/
def errInsert (a : Nat × Nat) : List (Nat × Nat) → List (Nat × Nat)
  | [] => [a]
  | b :: t => if errBefore a b then a :: b :: t else b :: errInsert a t

/-- Errors of one page in one instant, as (code, severity) pairs (R815). -/
def raiseAll (page : Nat) (errs : List (Nat × Nat)) (c : Chip) : Chip :=
  (errs.foldr errInsert []).foldl (fun c e => raise page e.1 e.2 c) c

/-- The data-plane pages that the safe state fences (R819, and the plane table of chapter 01): ETH, SEP, TOL, AHN, MOV,
CHN, COL, HRD, VAT, KVP, LBY, WMK, PAL, CPH and the Churn core pages. DEDUCED, log entry 11. -/
def dataPages : List Nat :=
  [0x20, 0x21, 0x22, 0x23, 0x28, 0x30, 0x40] ++ (List.range 12).map (0x50 + ·) ++
  [0x60, 0x61, 0x70, 0x71, 0x72, 0x78, 0x79, 0x80, 0x88] ++ (List.range 336).map (0x2000 + ·)

/-- FAULT_N follows the pulse, the hold and the ROM (R822, R823, R825). -/
def faultPin (c : Chip) : Chip :=
  wrb Reg.RST_FAULT_PIN (rdb Reg.RST_FAULT_PULSE c || rdb Reg.RST_FAULT_HOLD c || c.boot.romFault) c

/-- The safe state (R819, R820, R822, R823): the pages of the data plane FENCED (a page that is OFF, REFUSED or DRAINING to
OFF stays so), Movers halted, Churn cores stopped with their tile operations abandoned, FAULT_N pulsed and held. `bit` is
the cause in FATAL_CAUSE. -/
def enterSafe (bit : Nat) (c : Chip) : Chip :=
  let first := !rdb Reg.RST_SAFE_STATE c
  let c := wr Reg.RST_SAFE_STATE 1 (wr Reg.RST_FATAL_CAUSE (rd Reg.RST_FATAL_CAUSE c ||| 2 ^ bit) c)
  let c := dataPages.foldl (fun c p =>
    let s := rd (Hdr.STATE p) c
    if s = 1 ∨ s = 2 ∨ s = 6 ∨ (s = 5 ∧ rdb (Hdr.EN p) c = true) then wr (Hdr.STATE p) 4 c else c) c
  let c := { c with movRun := [], cores := c.cores.map fun e => if e.1 < 336 then (e.1, { e.2 with tile := none }) else e }
  let c := faultPin { wr Reg.RST_FAULT_HOLD 1 (wr Reg.RST_FAULT_PULSE 1 c) with holdClear := false }
  if first then nodeRecord 4 c else c

/-- A FATAL error (R818): recorded with its telemetry record whether latched or not (R817), sent as a platform event
(R859), then the safe state. -/
def raiseFatal (page code bit : Nat) (c : Chip) : Chip :=
  let r := latchErr page code 3 c
  wakeHosts 2 (enterSafe bit (platformEvent 1 code (telemetry 1 page 3 (errBody page code r.1) r.1)))

/-! ### Memory -/

/-- The spaces of memory: device memory (HBM and Cellar by device address), host memory, accelerator memory, the Steward's
always-on memory, the two flash devices, the SSDs, the scratchpads and the instruction memories of the Churn cores. -/
def spDev : Nat := 0
def spHost (h : Nat) : Nat := 1 + h
def spAcc (a : Nat) : Nat := 3 + a
def spAon : Nat := 11
def spFlash (k : Nat) : Nat := 12 + k
def spSsd (n : Nat) : Nat := 16 + n
def spSpad (n : Nat) : Nat := 1000 + n
def spImem (n : Nat) : Nat := 2000 + n

/-- The key of a byte: its space and its address. -/
def cellKey (sp addr : Nat) : Nat := sp * 2 ^ 64 + addr % 2 ^ 64

/-- One byte of memory; a byte nothing has written reads 0 (log entry 2). -/
def ld8 (sp addr : Nat) (c : Chip) : Nat := (mapGet (0 : Byte) c.mem (cellKey sp addr)).toNat

/-- `n` bytes from `addr` up. -/
def ldBytes (sp addr n : Nat) (c : Chip) : List Nat :=
  (mapRead (0 : Byte) c.mem (cellKey sp addr) n).map (·.toNat)

/-- An unsigned value of `n` bytes at `addr`, little-endian (R7). -/
def ld (sp addr n : Nat) (c : Chip) : Nat := leNat (ldBytes sp addr n c)

/-- One byte stored. -/
def st8 (sp addr v : Nat) (c : Chip) : Chip :=
  { c with mem := mapPut (0 : Byte) c.mem (cellKey sp addr) (BitVec.ofNat 8 v) }

/-- Bytes stored from `addr` up. -/
def stBytes (sp addr : Nat) (bs : List Nat) (c : Chip) : Chip :=
  { c with mem := mapPutRun (0 : Byte) c.mem (cellKey sp addr) (bs.map (BitVec.ofNat 8)) }

/-- A value of `n` bytes stored at `addr`, little-endian (R7). -/
def st (sp addr n v : Nat) (c : Chip) : Chip := stBytes sp addr (leBytes n v) c

/-- Bits `[hi:lo]` of the 64-bit word at `addr`. -/
def ldF (sp addr hi lo : Nat) (c : Chip) : Nat := bits (ld sp addr 8 c) hi lo

/-- Bits `[hi:lo]` of the 64-bit word at `addr` replaced. -/
def stF (sp addr hi lo v : Nat) (c : Chip) : Chip :=
  st sp addr 8 (setBits (ld sp addr 8 c) lo (hi + 1 - lo) v) c

/-- The 64-byte lines that `[addr, addr + n)` touches, as (first, end) keys of the poison set. -/
def lineLo (sp addr : Nat) : Nat := cellKey sp addr / 64
def lineHi (sp addr n : Nat) : Nat := (cellKey sp addr + n + 63) / 64

/-- Some line that `[addr, addr + n)` touches is poisoned (R894). -/
def anyPoison (sp addr n : Nat) (c : Chip) : Bool :=
  c.poison.any fun l => decide (lineLo sp addr ≤ l) && decide (l < lineHi sp addr n)

/-- A write of `[addr, addr + n)` without poison: a line it covers whole becomes good (R894). -/
def unpoison (sp addr n : Nat) (c : Chip) : Chip :=
  { c with poison := setClear ((cellKey sp addr + 63) / 64) ((cellKey sp addr + n) / 64) c.poison }

/-- Every line that `[addr, addr + n)` touches becomes poisoned. -/
def poisonRange (sp addr n : Nat) (c : Chip) : Chip :=
  let lo := lineLo sp addr
  { c with poison := (List.range (lineHi sp addr n - lo)).foldl (fun s i => setAdd s (lo + i)) c.poison }

/-- Bytes written without poison, with the poison rule of R894. -/
def put (sp addr : Nat) (bs : List Nat) (c : Chip) : Chip := unpoison sp addr bs.length (stBytes sp addr bs c)

/-- A value of `n` bytes written without poison. -/
def putN (sp addr n v : Nat) (c : Chip) : Chip := put sp addr (leBytes n v) c

/-- Bits of a 64-bit word written without poison. -/
def putF (sp addr hi lo v : Nat) (c : Chip) : Chip :=
  putN sp addr 8 (setBits (ld sp addr 8 c) lo (hi + 1 - lo) v) c

/-- `n` bytes set to 0, and their lines good. -/
def zero (sp addr n : Nat) (c : Chip) : Chip :=
  unpoison sp addr n { c with mem := mapClear (cellKey sp addr) (cellKey sp addr + n) c.mem }

/-- `n` bytes copied; a poisoned source line poisons the destination lines its bytes reach, and a destination line that
is written whole from good lines becomes good (R263, R894). -/
def copyMem (sps src spd dst n : Nat) (c : Chip) : Chip :=
  let ks := cellKey sps src
  let kd := cellKey spd dst
  let bad := c.poison.filter fun l => decide (ks / 64 ≤ l) && decide (l < (ks + n + 63) / 64)
  let c := unpoison spd dst n { c with mem := mapCopy ks kd n c.mem }
  bad.foldl (fun c l =>
    let a := max (l * 64) ks - ks + kd
    let b := min (l * 64 + 64) (ks + n) - ks + kd
    { c with poison := (List.range ((b + 63) / 64 - a / 64)).foldl (fun s i => setAdd s (a / 64 + i)) c.poison }) c

/-! ### Device memory and its owners -/

/-- The MEM page and channel that back a device address (R36). -/
def devChannel (addr : Nat) : Option (Nat × Nat) :=
  if 0x4000000000 ≤ addr ∧ addr < 0xA000000000 then
    let g := (addr - 0x4000000000) / 0x80000000
    if (addr - 0x4000000000) % 0x80000000 < 0x48000000 then some (g / 32, g % 32) else none
  else if 0xA0000000000 ≤ addr ∧ addr < 0xC0000000000 then some (6, (addr - 0xA0000000000) / 0x200000000)
  else none

/-- The first device address and the bytes of a channel (R36). -/
def channelRange (m n : Nat) : Nat × Nat :=
  if m = 6 then (0xA0000000000 + n * 0x200000000, 0x200000000)
  else (0x4000000000 + (32 * m + n) * 0x80000000, 0x48000000)

/-- The activity that owns the channel of a device address; unmapped and unassigned read 0 (R34, R36). -/
def activityOf (addr : Nat) (c : Chip) : Nat :=
  match devChannel addr with
  | some (m, n) => rd (Reg.MEM_ACTIVITY m n) c
  | none => 0

/-- The channel of a device address is being zeroed (R39). -/
def scrubbing (addr : Nat) (c : Chip) : Bool :=
  match devChannel addr with
  | some (m, n) => rdb (Reg.MEM_SCRUBBING m n) c
  | none => false

/-- The device addresses at which `[addr, addr + n)` meets a channel: `addr`, and the start of each 2 GiB slot or 8 GiB
channel after it. -/
def rangeProbes (addr n : Nat) : List Nat :=
  let step := if addr < 0xA0000000000 then 0x80000000 else 0x200000000
  addr :: (addr + n - 1) :: (List.range ((n + step - 1) / step)).map fun i => alignDown addr step + (i + 1) * step

/-- Every byte of `[addr, addr + n)` lies in the backed part of channels that `act` owns (R32, R36). -/
def inActivity (act addr n : Nat) (c : Chip) : Bool :=
  decide (act ≠ 0) && ((rangeProbes addr n).all fun a =>
    decide (addr + n ≤ a) || (activityOf a c == act && !scrubbing a c)) &&
  (match devChannel addr, devChannel (addr + n - 1) with
   | some (m, k), some (m', k') => (m == 6 && m' == 6) || (m == m' && k == k')
   | _, _ => false)

/-- Some byte of `[addr, addr + n)` lies in a block retired from service (R839). -/
def retiredHit (addr n : Nat) (c : Chip) : Bool :=
  match devChannel addr with
  | some (m, _) => (List.range 128).any fun e =>
      rdb (Reg.MEM_RETIRED_VALID m e) c && overlaps addr n (rd (Reg.MEM_RETIRED_ADDR m e) c) 0x10000
  | none => false

/-- A meaning that is an update of the block and leaves the queue of waiting commands to `step`. -/
def onChip (f : Chip → Chip) (s : State) : Host.Outcome State Fault Refusal := .next { s with chip := f s.chip }

end Sys2Proof.Machine
end

