-- ==== Sys2Proof/Machine/Events.lean ====
section
/-! DEFINITION. Event lines (R27–R30) and wake requests (R29, R31, R792, R799): binding, pulsing, holding a pulse for a sleeping consumer, refusing a wake. -/

namespace Sys2Proof.Machine

/-! ### Power domains -/

/-- Domain `d` is awake (PWR `DOM_AWAKE`, R810). -/
def domAwake (d : Nat) (c : Chip) : Bool := (rd (Reg.PWR_DOM_AWAKE (d / 32)) c).testBit (d % 32)

/-- The `DOM_AWAKE` bit of a domain written. -/
def setAwake (d : Nat) (on : Bool) (c : Chip) : Chip :=
  wr (Reg.PWR_DOM_AWAKE (d / 32)) (setBits (rd (Reg.PWR_DOM_AWAKE (d / 32)) c) (d % 32) 1 (b2n on)) c

/-- The page that a domain belongs to, for the domains that are one page's (R790). -/
def domainPage (d : Nat) : Option Nat :=
  if d < 336 then some (0x2000 + d)
  else if d < 381 then none
  else if d < 393 then some (0x50 + (d - 381))
  else if d < 401 then some (0x10 + (d - 393))
  else if d < 409 then some (0x18 + (d - 401))
  else if d < 413 then some (0x20 + (d - 409))
  else if d < 420 then some (0xA0 + (d - 413))
  else match d with
    | 420 => some 0x28 | 421 => some 0x30 | 422 => some 0x40 | 423 => some 0x61 | 424 => some 0x70
    | 425 => some 0x71 | 426 => some 0x72 | 427 => some 0x78 | 428 => some 0x80 | 429 => some 0x88
    | _ => none

/-- The PLLs of a cluster: 1 north tile, 2 south tile; cluster 20 needs both (R785, R788, R800). -/
def clusterPlls (cl : Nat) : List Nat := if cl < 10 then [1] else if cl < 20 then [2] else [1, 2]

/-- The PLLs that a domain needs (R785, R787, R788): 0 fabric, 1 north tile, 2 south tile, 3 Wayside. -/
def domainPlls (d : Nat) : List Nat :=
  if d < 336 then clusterPlls (d / 16)
  else if d < 357 then clusterPlls (d - 336)
  else if d < 381 then [3]
  else [0]

/-- Core `n` is a spare: set in `DUM` and clear in `FAILED` (R165). -/
def isSpare (n : Nat) (c : Chip) : Bool :=
  (rd (Reg.CHN_DUM (n / 32)) c).testBit (n % 32) && !(rd (Reg.CHN_FAILED (n / 32)) c).testBit (n % 32)

/-- Core `n` is set in `FAILED` (R182). -/
def isFailedCore (n : Nat) (c : Chip) : Bool := (rd (Reg.CHN_FAILED (n / 32)) c).testBit (n % 32)

/-- Core `n` is disabled: set in the disabled-unit map (R18). -/
def isDisabled (n : Nat) (c : Chip) : Bool := (rd (Reg.CHN_DUM (n / 32)) c).testBit (n % 32)

/-- The item is the wake of a reissue (R799). -/
def isReissue : HeldItem → Bool
  | .reissue _ => true
  | _ => false

/-- Why the power manager refuses a wake of domain `d` for `item`, apart from TIMEOUT (R799): 2 SPARE, 3 TRIP, 4 PLL; 0 when
it does not. -/
def wakeRefusal (d : Nat) (item : HeldItem) (c : Chip) : Nat :=
  if rdb Reg.THM_TRIPPED c then 3
  else if d < 336 && (isSpare d c || isFailedCore d c) && !isReissue item then 2
  else if (domainPlls d).any (c.pllFailed.elem ·) then 4
  else 0

/-- A refusal of a wake recorded (R799, R811): `LAST_REFUSED`, `REFUSE_CAUSE`, the refusal counter, `WAKE_REFUSED`. -/
def recordWakeRefusal (d cause : Nat) (c : Chip) : Chip :=
  raise 2 0x1602 0 (bump (Reg.PWR_CTR 2) 1 (wr Reg.PWR_REFUSE_CAUSE cause (wr Reg.PWR_LAST_REFUSED d c)))

/-- A held item and its wake request (R29, R30): the refusal of the request is recorded once per cause. -/
def requestWake (d : Nat) (item : HeldItem) (c : Chip) : Chip :=
  let cause := wakeRefusal d item c
  let c := if cause = 0 then c else recordWakeRefusal d cause c
  { c with wakes := c.wakes ++ [⟨d, item, if cause = 0 then 0 else 2 ^ cause⟩] }

/-! ### Lines -/

/-- The line already has a producer (R27). -/
def lineTaken (line : Nat) (c : Chip) : Bool := (mapGet none c.producers line).isSome

/-- A producer bound to a line (R27). -/
def bindProducer (line page sub : Nat) (c : Chip) : Chip :=
  { c with producers := mapPut none c.producers line (some ⟨page, sub⟩) }

/-- Every line of one producer released. -/
def unbindProducer (page sub : Nat) (c : Chip) : Chip :=
  { c with producers := c.producers.filter fun e => !decide (e.2 = some ⟨page, sub⟩) }

/-- Every line of a page's producers released. -/
def unbindPage (page : Nat) (c : Chip) : Chip :=
  { c with producers := c.producers.filter fun e => match e.2 with
      | some p => p.page != page
      | none => false }

/-- A consumer bound to a line (R28). -/
def bindConsumer (line : Nat) (k : Consumer) (c : Chip) : Chip :=
  { c with consumers := mapPut [] c.consumers line (mapGet [] c.consumers line ++ [k]) }

/-- A consumer released from every line. -/
def unbindConsumer (k : Consumer) (c : Chip) : Chip :=
  { c with consumers := (c.consumers.map fun e => (e.1, e.2.filter fun x => !decide (x = k))).filter fun e => !e.2.isEmpty }

/-- The page of a consumer. -/
def consumerPage : Consumer → Nat
  | .core n _ => 0x2000 + n
  | .verdict _ => 0x70
  | .doorbell _ => 0x70

/-- A pulse reaches an awake consumer: a core slot counts it, and loses it at 0xFFFF with `EVT_OVF` (R161); the slots of a
fenced core discard it (R181); a pulse on a verdict line only
tells Herd that a verdict waits (R430); the doorbell generator writes the sequence of the latest ticket to the
accelerator's doorbell (R441). -/
def deliverPulse (k : Consumer) (c : Chip) : Chip :=
  match k with
  | .core n i =>
    if rd (Hdr.STATE (0x2000 + n)) c = 4 then c
    else if rd (Reg.CC_IN_COUNT n i) c = 0xFFFF then raise (0x2000 + n) 0x0108 0 c
    else bump (Reg.CC_IN_COUNT n i) 1 c
  | .verdict _ => c
  | .doorbell a => put (spAcc a) (rd (Reg.HRD_DOORBELL_ADDR a) c) (leBytes 4 (rd (Reg.HRD_TICKET_SEQ a) c - 1)) c

/-- A pulse on a line reaches every bound consumer; for a consumer whose page sleeps it is held as a wake request (R28, R29). -/
def pulse (line : Nat) (c : Chip) : Chip :=
  (mapGet [] c.consumers line).foldl (fun c k =>
    if rd (Hdr.STATE (consumerPage k)) c = 6 then requestWake (pageDomain (consumerPage k)) (.pulse k) c
    else deliverPulse k c) c

/-- A pulse when `bound` is set. -/
def pulseIf (bound : Bool) (line : Nat) (c : Chip) : Chip := if bound then pulse line c else c

/-! ### Page states -/

/-- STATE of a page (R59). -/
def pageState (p : Nat) (c : Chip) : Nat := rd (Hdr.STATE p) c

/-- The page counts as RUNNING for its dependents: RUNNING, DRAINING or ASLEEP (R73), or under an automatic engine reset (R834). -/
def countsRunning (p : Nat) (c : Chip) : Bool :=
  let s := pageState p c
  s == 2 || s == 5 || s == 6 || c.recovering.elem p

/-- The page is RUNNING. -/
def running (p : Nat) (c : Chip) : Bool := pageState p c == 2

/-- The page takes part in work: RUNNING, or DRAINING through `QUIESCE` (R72). -/
def working (p : Nat) (c : Chip) : Bool := running p c || (pageState p c == 5 && rdb (Hdr.EN p) c)

end Sys2Proof.Machine
end

