-- ==== Sys2Proof/Machine/CoreOps.lean ====
section
/-! DEFINITION. The registers of the Sterok cores, trap entry (R211–R216), address translation on Wayside cores (R219, R220) and the memory a core reaches (R141, R32, R33). -/

namespace Sys2Proof.Machine

/-- The key of a core in `Chip.cores`: Churn cores 0–335, Wayside cores 400–423, the Steward 500. -/
def coreIx : CoreId → Nat
  | .churn n => n.val
  | .wayside w => 400 + w.val
  | .steward => 500

/-- The registers of a core. -/
def getCore (i : CoreId) (c : Chip) : CoreSt := mapGet CoreSt.reset c.cores (coreIx i)

/-- The chip with a core's registers replaced. -/
def setCore (i : CoreId) (k : CoreSt) (c : Chip) : Chip := { c with cores := mapPut CoreSt.reset c.cores (coreIx i) k }

def getV (k : CoreSt) (i : Nat) : Word := mapGet 0 k.v i
def setV (k : CoreSt) (i : Nat) (x : Word) : CoreSt := { k with v := mapPut 0 k.v i x }
def getP (k : CoreSt) (i : Nat) : Word := mapGet 0 k.p i
def setP (k : CoreSt) (i : Nat) (x : Word) : CoreSt := { k with p := mapPut 0 k.p i x }
def getA (k : CoreSt) (i : Nat) : Acc := mapGet 0 k.acc i
def setA (k : CoreSt) (i : Nat) (x : Acc) : CoreSt := { k with acc := mapPut 0 k.acc i x }

/-- Bits of STATUS (R210): 0 SAT, 1 WAITF, 2 ACC_OVF, 3 IE, 4 PRIV, 5 PPRIV. -/
def statusBit (k : CoreSt) (n : Nat) : Bool := k.status.getLsbD n
def setStatus (k : CoreSt) (n : Nat) (b : Bool) : CoreSt :=
  { k with status := if b then k.status ||| (1#64 <<< n) else k.status &&& ~~~(1#64 <<< n) }

/-- The core is a Churn sequencer. -/
def isChurn : CoreId → Bool
  | .churn _ => true
  | _ => false

/-- The page of a Churn core. -/
def corePage (n : Nat) : Nat := 0x2000 + n

/-- RUN_STATE of a Churn core (R168). -/
def runState (n : Nat) (c : Chip) : Nat := rd (Reg.CC_RUN_STATE n) c

/-- The core is at an instruction boundary and executes: a Churn core with its page RUNNING or DRAINING through `QUIESCE`
and RUN_STATE EXECUTING, with no restart mark and no satisfied WAIT.M waiting for its edge; a Wayside core that runs a service image and is not in WFI; the
Steward outside WFI. -/
def canExecute (i : CoreId) (c : Chip) : Bool :=
  let k := getCore i c
  match i with
  | .churn n => working (corePage n.val) c && runState n.val c == 1 && !k.mark && k.wait.isNone
  | .wayside w => (imageOf w.val c).isSome && !k.wfi && domAwake (357 + w.val) c
  | .steward => !k.wfi

/-- Trap entry. On a Churn core execution ends: RUN_STATE TRAPPED, the page records cause and address and sets `TRAP` (R214).
On the others the trap registers are written, the privilege becomes supervisor, interrupts are disabled, P15 and SUP_SP are
exchanged when the trap came from user mode, and execution goes on at TRAP_VEC (R216). -/
def trapEntry (i : CoreId) (cause : Nat) (val : Nat) (pc : Nat) (c : Chip) : Chip :=
  let k := getCore i c
  match i with
  | .churn n =>
    raise (corePage n.val) 0x0107 0
      (wr (Reg.CC_TRAP_PC n.val) pc (wr (Reg.CC_TRAP_CAUSE n.val) cause (wr (Reg.CC_RUN_STATE n.val) 4
        (setCore i { k with wait := none, mark := false } c))))
  | _ =>
    let user := !statusBit k 4
    let k := { k with trapCause := BitVec.ofNat 64 cause, trapPc := BitVec.ofNat 64 pc, trapVal := BitVec.ofNat 64 val }
    let k := setStatus (setStatus (setStatus k 5 (!user)) 4 true) 3 false
    let k := if user then { setP k 15 k.supSp with supSp := getP k 15 } else k
    setCore i { k with pc := k.trapVec.toNat / 4 * 4 } c

/-! ### Address translation (Wayside cores) -/

/-- The kinds of access a page entry admits (R219). -/
inductive MemKind
  | fetch | load | store
deriving DecidableEq, Repr

/-- A leaf entry admits the access in the mode (R219). -/
def leafAllows (leaf : Nat) (kind : MemKind) (user : Bool) : Bool :=
  (match kind with
   | .fetch => leaf.testBit 3
   | .load => leaf.testBit 1
   | .store => leaf.testBit 2) && (!user || leaf.testBit 4)

/-- An entry of a page table is well formed: valid, reserved fields 0, `W` only with `R` (R219). -/
def pteOk (e : Nat) : Bool :=
  e.testBit 0 && bits e 11 7 == 0 && bits e 63 52 == 0 && !(e.testBit 2 && !e.testBit 1)

/-- The walk from a table (R219): levels 4 to 1, of which 3, 2 and 1 index by bits [38:30], [29:21] and [20:12]. Leaves
stand at the 1 GiB, 2 MiB and 4 KiB levels. Answers the size of the page as a power of two and the leaf. -/
def walk (va : Nat) (c : Chip) : Nat → Nat → Nat → Option (Nat × Nat)
  | 0, _, _ => none
  | fuel + 1, table, sh =>
    let e := ld spDev (table + 8 * bits va (sh + 8) sh) 8 c
    if !pteOk e then none
    else
      let pa := bits e 51 12 * 4096
      if e.testBit 1 || e.testBit 2 || e.testBit 3 then
        if sh = 39 ∨ pa % 2 ^ sh ≠ 0 then none else some (sh, e)
      else walk va c fuel pa (sh - 9)

/-- A translation that the core holds for an address (R220: a write to a page table does not change it). -/
def tlbFind (k : CoreSt) (va : Nat) : Option TlbEntry :=
  k.tlb.find? fun t => decide (va / 2 ^ t.log2 = t.vaddr) && (t.leaf.testBit 5 || decide (t.asid = k.asid.toNat % 2 ^ 16))

/-- The translation of a virtual address (R219), with translation enabled by MMU_CTRL[0]: the core with the translation
held, the physical address and whether the page is uncached; `none` faults. -/
def translate (k : CoreSt) (kind : MemKind) (va : Nat) (c : Chip) : Option (CoreSt × Nat × Bool) :=
  if !k.mmuCtrl.getLsbD 0 then some (k, va, false)
  else if !(bits va 63 47 == 0 || bits va 63 47 == 2 ^ 17 - 1) then none
  else
    let user := !statusBit k 4
    let hit : Option (CoreSt × Nat × Nat) := match tlbFind k va with
      | some t => some (k, t.log2, t.leaf)
      | none => match walk va c 4 (alignDown k.ptRoot.toNat 4096) 39 with
        | some (sh, leaf) =>
          some ({ k with tlb := k.tlb ++ [⟨k.asid.toNat % 2 ^ 16, va / 2 ^ sh, sh, leaf⟩] }, sh, leaf)
        | none => none
    match hit with
    | none => none
    | some (k, sh, leaf) =>
      if leafAllows leaf kind user then
        some (k, alignDown (bits leaf 51 12 * 4096) (2 ^ sh) + va % 2 ^ sh, leaf.testBit 6)
      else none

/-! ### The memory a core reaches -/

/-- The 8 MiB of the Steward's always-on memory lie at physical address 0 (R765; the address is a DESIGN CHOICE, log
entry 12). -/
def aonSize : Nat := 0x800000

/-- Where a physical access of a Wayside core or the Steward goes: a space, or poison and dropped writes (R33), or no target. -/
inductive Target
  | mem (sp : Nat)
  | poisoned
  | noTarget
deriving DecidableEq, Repr

/-- The target of a physical range: a Wayside core reaches the CONTROL activity's channels (R26, R32, R752); another place
of device memory is handled as R33; any other address has no target (R212). -/
def physTarget (i : CoreId) (pa n : Nat) (c : Chip) : Target :=
  match i with
  | .steward => if pa + n ≤ aonSize then .mem spAon else .noTarget
  | _ =>
    if inActivity 0xA pa n c && !retiredHit pa n c then .mem spDev
    else if (0x4000000000 ≤ pa ∧ pa < 0xA000000000) ∨ (0xA0000000000 ≤ pa ∧ pa < 0xC0000000000) then .poisoned
    else .noTarget

/-- The outcome of a core's access: the pieces (space, address, bytes) it touches, a write dropped, or the trap it takes. -/
inductive Place
  | at (k : CoreSt) (pieces : List (Nat × Nat × Nat))
  | dropped (k : CoreSt)
  | trap (cause val : Nat)
deriving DecidableEq, Repr

/-- A physical piece of a Wayside access, after translation. -/
def placePhys (i : CoreId) (k : CoreSt) (kind : MemKind) (pa n : Nat) (c : Chip) : Place :=
  match physTarget i pa n c with
  | .mem sp => .at k [(sp, pa, n)]
  | .poisoned => if kind = .store then .dropped k else .trap 0x04 (alignDown pa 64)
  | .noTarget => .trap 0x0C pa

/-- The place of a load or store of `n` bytes at address `a`: a Churn core's scratchpad (R141), through the MMU of a
Wayside core, in two pieces when it crosses a page (R205, R219), or the Steward's memory. -/
def locate (i : CoreId) (k : CoreSt) (kind : MemKind) (a n : Nat) (c : Chip) : Place :=
  match i with
  | .churn m => if a + n ≤ 0x100000 then .at k [(spSpad m.val, a, n)] else .trap 0x03 0
  | .steward => placePhys i k kind a n c
  | .wayside _ =>
    let fault := if kind = .store then 0x0A else if kind = .load then 0x09 else 0x08
    let n1 := min n (4096 - a % 4096)
    match translate k kind a c with
    | none => .trap fault a
    | some (k, pa, _) =>
      if n1 = n then placePhys i k kind pa n c
      else match translate k kind (a + n1) c with
        | none => .trap fault (a + n1)
        | some (k, pb, _) =>
          match placePhys i k kind pa n1 c, placePhys i k kind pb (n - n1) c with
          | .at _ p, .at _ q => .at k (p ++ q)
          | .trap t v, _ => .trap t v
          | _, .trap t v => .trap t v
          | _, _ => .dropped k

/-- The bytes of the pieces, in order. -/
def ldPieces (ps : List (Nat × Nat × Nat)) (c : Chip) : List Nat := ps.flatMap fun p => ldBytes p.1 p.2.1 p.2.2 c

/-- The address of the first poisoned line that the pieces touch. -/
def piecesPoison (ps : List (Nat × Nat × Nat)) (c : Chip) : Option Nat :=
  (ps.find? fun p => anyPoison p.1 p.2.1 p.2.2 c).map fun p =>
    if anyPoison p.1 p.2.1 1 c then alignDown p.2.1 64 else alignDown (p.2.1 + p.2.2 - 1) 64

/-- Bytes written to the pieces, in order. -/
def stPieces : List (Nat × Nat × Nat) → List Nat → Chip → Chip
  | [], _, c => c
  | p :: r, bs, c => stPieces r (bs.drop p.2.2) (put p.1 p.2.1 (bs.take p.2.2) c)

end Sys2Proof.Machine
end

