-- ==== Sys2Proof/Machine/Window.lean ====
section
/-! DEFINITION. Window arithmetic (chapter 03) to the bit: the formats of R100, contributions, grids, the rounding onto a grid (R123), special values (R126), the final rounding (R129), MX output blocks (R133), wire partials (R134, R398, R399) and the Waymark digest (R554–R556). -/

namespace Sys2Proof.Machine

/-- What an element's code stands for (R107): a finite value (−1)^s × m × 2^k, an infinity, a NaN. -/
inductive Num
  | fin (neg : Bool) (m : Nat) (k : Int)
  | inf (neg : Bool)
  | nan
deriving DecidableEq, Repr

/-- The parameters of a floating-point format (R100): width, p, emin, emax, whether it has infinities, canonical NaN,
largest finite code. -/
structure FloatFmt where
  width : Nat
  p : Nat
  emin : Int
  emax : Int
  ieee : Bool
  hasNan : Bool
  nanCode : Nat
  maxCode : Nat
deriving DecidableEq, Repr

/-- The floating-point element formats, codes 0x0 to 0x7 of R100. -/
def floatFmt (f : Nat) : FloatFmt :=
  match f with
  | 0 => ⟨32, 24, -126, 127, true, true, 0x7FC00000, 0x7F7FFFFF⟩
  | 1 => ⟨16, 11, -14, 15, true, true, 0x7E00, 0x7BFF⟩
  | 2 => ⟨16, 8, -126, 127, true, true, 0x7FC0, 0x7F7F⟩
  | 3 => ⟨8, 4, -6, 8, false, true, 0x7F, 0x7E⟩
  | 4 => ⟨8, 3, -14, 15, true, true, 0x7E, 0x7B⟩
  | 5 => ⟨6, 3, -2, 4, false, false, 0, 0x1F⟩
  | 6 => ⟨6, 4, 0, 2, false, false, 0, 0x1F⟩
  | _ => ⟨4, 2, 0, 2, false, false, 0, 0x7⟩

/-- The code is an MX format (R100). -/
def isMx (f : Nat) : Bool := decide (0xA ≤ f) && decide (f ≤ 0xE)
/-- The code is an integer format (R100). -/
def isIntFmt (f : Nat) : Bool := f == 8 || f == 9
/-- The code has class anchored (R100). -/
def isAnchored (f : Nat) : Bool := decide (f ≤ 2) || isMx f
/-- The code has class fixed (R100). -/
def isFixed (f : Nat) : Bool := decide (3 ≤ f) && decide (f ≤ 7)

/-- The element format of an MX format; any other format is its own (R100, R101). -/
def elemFmt (f : Nat) : Nat :=
  match f with
  | 0xA => 3 | 0xB => 4 | 0xC => 5 | 0xD => 6 | 0xE => 7
  | _ => f

/-- Bits of one element (R100, R103). -/
def elemBits (f : Nat) : Nat :=
  match elemFmt f with
  | 8 => 8
  | 9 => 32
  | e => (floatFmt e).width

/-- Bytes that `n` packed elements occupy (R103). -/
def elemBytes (f n : Nat) : Nat :=
  match elemBits f with
  | 6 => 3 * ceilDiv n 4
  | 4 => ceilDiv n 2
  | w => w / 8 * n

/-- Element `j` of a packed array given as its bytes (R103). -/
def elemCode (f : Nat) (byte : Nat → Nat) (j : Nat) : Nat :=
  match elemBits f with
  | 6 =>
    let g := 3 * (j / 4)
    bits (byte g + 256 * byte (g + 1) + 65536 * byte (g + 2)) (6 * (j % 4) + 5) (6 * (j % 4))
  | 4 => bits (byte (j / 2)) (4 * (j % 2) + 3) (4 * (j % 2))
  | 8 => byte j
  | 16 => byte (2 * j) + 256 * byte (2 * j + 1)
  | _ => byte (4 * j) + 256 * byte (4 * j + 1) + 65536 * byte (4 * j + 2) + 16777216 * byte (4 * j + 3)

/-- The bytes of a packed array of element codes (R103). -/
def packCodes (f : Nat) (codes : List Nat) : List Nat :=
  match elemBits f with
  | 6 => leBytes (3 * ceilDiv codes.length 4) (codes.foldr (fun x a => x % 64 + 64 * a) 0)
  | 4 => leBytes (ceilDiv codes.length 2) (codes.foldr (fun x a => x % 16 + 16 * a) 0)
  | 8 => codes.map (· % 256)
  | 16 => codes.flatMap (leBytes 2)
  | _ => codes.flatMap (leBytes 4)

/-- The value of a floating-point element code (R100, R107, R108). -/
def decodeFloat (ff : FloatFmt) (code : Nat) : Num :=
  let eb := ff.width - ff.p
  let s := code.testBit (ff.width - 1)
  let e := bits code (ff.width - 2) (ff.p - 1)
  let fr := code % 2 ^ (ff.p - 1)
  if ff.ieee && e == 2 ^ eb - 1 then (if fr = 0 then .inf s else .nan)
  else if ff.hasNan && !ff.ieee && code % 2 ^ (ff.width - 1) == ff.nanCode then .nan
  else if e = 0 then .fin s fr (ff.emin - (ff.p - 1 : Nat))
  else .fin s (fr + 2 ^ (ff.p - 1)) (ff.emin + (e : Int) - 1 - (ff.p - 1 : Nat))

/-- The value of an element code of a format without a scale. -/
def decodeElem (f code : Nat) : Num :=
  match f with
  | 8 => let v := toSigned 8 code; .fin (decide (v < 0)) v.natAbs 0
  | 9 => let v := toSigned 32 code; .fin (decide (v < 0)) v.natAbs 0
  | _ => decodeFloat (floatFmt f) code

/-- The value of an element with its scale byte (R101); the scale of a format without one is ignored. -/
def decodeNum (f code scale : Nat) : Num :=
  if isMx f then
    if scale = 0xFF then .nan
    else match decodeElem (elemFmt f) code with
      | .fin s m k => .fin s m (k + (scale : Int) - 127)
      | x => x
  else decodeElem f code

/-- p of a format (R100). -/
def fmtP (f : Nat) : Nat := (floatFmt (elemFmt f)).p

/-- ε of a value of format `f` (R108), for a finite nonzero value. -/
def epsOf (f : Nat) : Num → Option Int
  | .fin _ m k => if m = 0 then none else some (k + (fmtP f - 1 : Nat))
  | _ => none

/-- The product of two values (R109, R126). -/
def numMul : Num → Num → Num
  | .nan, _ => .nan
  | _, .nan => .nan
  | .inf s, .inf t => .inf (s != t)
  | .inf s, .fin t m _ => if m = 0 then .nan else .inf (s != t)
  | .fin t m _, .inf s => if m = 0 then .nan else .inf (s != t)
  | .fin s m k, .fin t n l => .fin (s != t) (m * n) (k + l)

/-- l of a fixed-grid or integer format (R119). -/
def gridL (f : Nat) : Int :=
  match f with
  | 3 => -9 | 4 => -16 | 5 => -4 | 6 => -3 | 7 => -1
  | _ => 0

/-- Half-even division of a natural number by 2^d. -/
def roundShift (m d : Nat) : Nat :=
  if d = 0 then m
  else
    let q := m / 2 ^ d
    let r := m % 2 ^ d
    let half := 2 ^ (d - 1)
    if half < r ∨ (r = half ∧ q % 2 = 1) then q + 1 else q

/-- A finite contribution rounded onto the grid 2^l (R123). -/
def toGrid (neg : Bool) (m : Nat) (k l : Int) : Int :=
  let q : Nat := if l ≤ k then m * 2 ^ (k - l).toNat else roundShift m (l - k).toNat
  if neg then -(q : Int) else q

/-- A sum in progress: which specials have been met, whether every contribution was exactly −0, and the integer total. -/
structure Sum where
  nan : Bool
  pinf : Bool
  ninf : Bool
  allNegZero : Bool
  acc : Int
deriving DecidableEq, Repr

/-- The sum of no contribution. -/
def Sum.empty : Sum := ⟨false, false, false, true, 0⟩

/-- One contribution added on the grid 2^l (R96, R124, R126, R127). -/
def sumAdd (l : Int) (t : Sum) : Num → Sum
  | .nan => { t with nan := true, allNegZero := false }
  | .inf false => { t with pinf := true, allNegZero := false }
  | .inf true => { t with ninf := true, allNegZero := false }
  | .fin s m k => { t with allNegZero := t.allNegZero && s && m == 0, acc := t.acc + toGrid s m k l }

/-- One contribution of a sum for which no anchor was formed: every finite one rounds to 0 (R115). -/
def sumAddNoGrid (t : Sum) : Num → Sum
  | .fin s m _ => { t with allNegZero := t.allNegZero && s && m == 0 }
  | x => sumAdd 0 t x

/-- The number of bits of a natural number. -/
def bitLen (m : Nat) : Nat := if m = 0 then 0 else m.log2 + 1

/-- The sign bit of a code. -/
def signBit (ff : FloatFmt) (neg : Bool) : Nat := b2n neg * 2 ^ (ff.width - 1)

/-- An infinity in a format (R126, R128); answers the code and whether it saturated (R132). -/
def infCode (ff : FloatFmt) (neg sat : Bool) : Nat × Bool :=
  if ff.ieee then (signBit ff neg + (2 ^ (ff.width - ff.p) - 1) * 2 ^ (ff.p - 1), false)
  else if sat then (signBit ff neg + ff.maxCode, true)
  else (ff.nanCode, false)

/-- A finite overflow in a format (R130). -/
def overflowCode (ff : FloatFmt) (neg sat : Bool) : Nat × Bool :=
  if sat then (signBit ff neg + ff.maxCode, true)
  else if ff.ieee then infCode ff neg false
  else (ff.nanCode, false)

/-- The final rounding of a nonzero accumulator of value acc × 2^l (R129). -/
def finalRound (ff : FloatFmt) (sat : Bool) (acc : Int) (l : Int) : Nat × Bool :=
  let neg := decide (acc < 0)
  let m := acc.natAbs
  let e : Int := max ((bitLen m : Int) - 1 + l) ff.emin
  let d : Int := (e - (ff.p : Int) + 1) - l
  let sig := if d ≤ 0 then m * 2 ^ (-d).toNat else roundShift m d.toNat
  let (sig, e) := if sig = 2 ^ ff.p then (sig / 2, e + 1) else (sig, e)
  if sig = 0 then (signBit ff neg, false)
  else
    let code := if sig < 2 ^ (ff.p - 1) then sig
      else (e - ff.emin + 1).toNat * 2 ^ (ff.p - 1) + (sig - 2 ^ (ff.p - 1))
    if e > ff.emax ∨ code > ff.maxCode then overflowCode ff neg sat
    else (signBit ff neg + code, false)

/-- An integer total in an integer format of `w` bits (R131). -/
def intRound (w : Nat) (acc : Int) : Nat × Bool :=
  let hi : Int := 2 ^ (w - 1) - 1
  let lo : Int := -(2 ^ (w - 1))
  if acc > hi then (ofSigned w hi, true)
  else if acc < lo then (ofSigned w lo, true)
  else (ofSigned w acc, false)

/-- The result of a sum in an output format without a scale (R126, R128–R131); answers the code and whether the element
saturated (R132). -/
def sumResult (f : Nat) (sat : Bool) (l : Int) (t : Sum) : Nat × Bool :=
  if f = 8 then intRound 8 t.acc
  else if f = 9 then intRound 32 t.acc
  else
    let ff := floatFmt f
    if t.nan || (t.pinf && t.ninf) then (ff.nanCode, false)
    else if t.pinf then infCode ff false sat
    else if t.ninf then infCode ff true sat
    else if t.acc = 0 then (signBit ff t.allNegZero, false)
    else finalRound ff sat t.acc l

/-- ⌊log2 |V|⌋ of a finite nonzero result. -/
def sumLog2 (t : Sum) (l : Int) : Option Int :=
  if t.nan || t.pinf || t.ninf || t.acc == 0 then none else some ((bitLen t.acc.natAbs : Int) - 1 + l)

/-- The greater of two optional integers. -/
def optMax : Option Int → Option Int → Option Int
  | none, b => b
  | a, none => a
  | some a, some b => some (max a b)

/-- An MX output block of up to 32 results, each a sum with its own grid (R133): the scale byte, the element codes, whether
any element saturated. -/
def mxBlock (f : Nat) (sat : Bool) (rs : List (Sum × Int)) : Nat × List Nat × Bool :=
  let ff := floatFmt (elemFmt f)
  let amax := (rs.map fun r => sumLog2 r.1 r.2).foldl optMax none
  let anyNan := rs.any fun r => r.1.nan || (r.1.pinf && r.1.ninf)
  let anyInf := rs.any fun r => r.1.pinf || r.1.ninf
  let x0 : Int := match amax with
    | some a => a - ff.emax
    | none => 0
  let limited := decide (x0 > 127)
  let x : Int := if x0 < -127 then -127 else if x0 > 127 then 127 else x0
  if anyNan || (anyInf && !sat) || (limited && !sat) then (0xFF, rs.map fun _ => 0, false)
  else
    let scale : Nat := (x + 127).toNat
    let elems := rs.map fun r =>
      if r.1.pinf then (ff.maxCode, true)
      else if r.1.ninf then (signBit ff true + ff.maxCode, true)
      else if r.1.acc = 0 then (signBit ff r.1.allNegZero, false)
      else
        let y := finalRound ff true r.1.acc (r.2 - x)
        (y.1, y.2 && limited)
    (scale, elems.map (·.1), elems.any (·.2))

/-! ### Wire partials -/

/-- Bits of a wire partial: 0 W32, 1 W64 (R134). -/
def wireBits (w : Nat) : Nat := if w = 0 then 32 else 64

/-- The wire grid of an element format with its anchor (R134). -/
def wireL (w f : Nat) (anchor : Int) : Int :=
  if f ≤ 2 then (if w = 0 then anchor - 13 else anchor - 43) else gridL f

/-- The format reduces on width `w` (R134, R135). -/
def wireOk (w f : Nat) : Bool :=
  if w = 0 then f == 1 || f == 2 else decide (f ≤ 4) || f == 8 || f == 9

/-- The base of the codes of R398. -/
def wireBase (w : Nat) : Int := -(2 ^ (wireBits w - 1))

/-- The least ordinary partial (R231, R398). -/
def wireLeast (w : Nat) : Int := if w = 0 then -(2 ^ 31) + 2 ^ 20 else -(2 ^ 63) + 2 ^ 39

/-- A wire partial: a special code, the code of −0, or an ordinary integer (R398). -/
inductive Wire
  | special (f : Nat)
  | negZero
  | int (v : Int)
deriving DecidableEq, Repr

/-- A contribution rounded at its source (R396, R398). -/
def wireOf (l : Int) : Num → Wire
  | .nan => .special 1
  | .inf false => .special 2
  | .inf true => .special 4
  | .fin s m k => if s && m == 0 then .negZero else .int (toGrid s m k l)

/-- A partial as the integer that travels (R398). -/
def wireInt (w : Nat) : Wire → Int
  | .special f => wireBase w + f
  | .negZero => wireBase w + 16
  | .int v => v

/-- The partial that a received integer stands for; `none` where it is below the ordinary range and no code (R231). -/
def wireRead (w : Nat) (v : Int) : Option Wire :=
  if wireLeast w ≤ v then some (.int v)
  else
    let f := (v - wireBase w).toNat
    if 1 ≤ f ∧ f ≤ 7 then some (.special f) else if f = 16 then some .negZero else none

/-- The combination of two partials (R399). -/
def wireAdd : Wire → Wire → Wire
  | .special f, .special g => .special (f ||| g)
  | .special f, _ => .special f
  | _, .special f => .special f
  | .negZero, .negZero => .negZero
  | .negZero, .int v => .int v
  | .int v, .negZero => .int v
  | .int u, .int v => .int (u + v)

/-- The owner's sum of a partial (R397, R399). -/
def wireSum : Wire → Sum
  | .special f => ⟨f.testBit 0, f.testBit 1, f.testBit 2, false, 0⟩
  | .negZero => ⟨false, false, false, true, 0⟩
  | .int v => ⟨false, false, false, false, v⟩

/-- The anchor byte of one value: its biased exponent field with 0 read as 1, or 0 when it is not finite and nonzero (R137). -/
def anchorByte (f : Nat) (x : Num) : Nat :=
  match epsOf f x with
  | some e => (e + (if f = 1 then 15 else 127)).toNat
  | none => 0

/-- E_anchor of an anchor byte (R137). -/
def anchorOfByte (f b : Nat) : Int := (b : Int) - (if f = 1 then 15 else 127)

/-! ### The Waymark digest -/

/-- mix64 of R554. -/
def mix64 (z : Nat) : Nat :=
  let m := 2 ^ 64
  let z := Nat.xor z (z / 2 ^ 31)
  let z := z * 0x9C3B5E71A4D28F67 % m
  let z := Nat.xor z (z / 2 ^ 29)
  let z := z * 0xC2B61F4AE5397D0B % m
  Nat.xor z (z / 2 ^ 32)

/-- The term of one element (R554). -/
def digestTerm (seed idx code : Nat) : Nat :=
  mix64 (Nat.xor (Nat.xor (seed % 2 ^ 64) (idx * 0xA3E194B72C5F6D19 % 2 ^ 64)) (code * 0xE7D23A9C51B804F3 % 2 ^ 64))

/-- The canonical code of an element (R555). -/
def canonCode (f code : Nat) : Nat :=
  let e := elemFmt f
  if e ≤ 4 then (match decodeElem e code with
    | .nan => (floatFmt e).nanCode
    | _ => code)
  else code

/-- The digest of `n` packed elements from index `first` (R554, R555). -/
def digestElems (f seed first n : Nat) (byte : Nat → Nat) : Nat :=
  (List.range n).foldl (fun a j => (a + digestTerm seed (first + j) (canonCode f (elemCode f byte j))) % 2 ^ 64) 0

/-- The block terms of `n` MX scale bytes, byte j for the block at `first` + 32 j (R556). -/
def digestScales (seed first n : Nat) (byte : Nat → Nat) : Nat :=
  (List.range n).foldl (fun a j =>
    (a + digestTerm seed (Nat.lor (first + 32 * j) (2 ^ 63)) (byte j)) % 2 ^ 64) 0

end Sys2Proof.Machine
end

