-- ==== Sys2Proof/Machine/Tile.lean ====
section
/-! DEFINITION. The coprocessor operations of the Churn tile (R152–R159, R227–R233): the checks at issue, the tile cycles (R154), and the results, written when the operation ends. -/

namespace Sys2Proof.Machine

/-- Operand pointer Pg + j of an operation. -/
def opPtr (o : TileOp) (j : Nat) : Nat := o.ptrs.getD j 0

/-- The fields of DN and DN + 1 (R228). -/
def opK (o : TileOp) : Nat := bits o.dn 16 0
def opFmtA (o : TileOp) : Nat := bits o.dn 23 20
def opFmtB (o : TileOp) : Nat := bits o.dn 27 24
def opWidth (o : TileOp) : Nat := bits o.dn 25 24
def opFmtOut (o : TileOp) : Nat := bits o.dn 31 28
def opN (o : TileOp) : Nat := bits o.dn1 39 0
def opM (o : TileOp) : Nat := bits o.dn1 63 48
def opMode (o : TileOp) : Nat := bits o.sub 1 0

/-- An output format (R104). -/
def isOutFmt (f : Nat) : Bool := decide (f ≤ 4) || f == 8 || f == 9 || isMx f

/-- The output format suits a sum of the given class (R106). -/
def outSuits (intSum : Bool) (out : Nat) : Bool := isOutFmt out && (intSum || !isIntFmt out)

/-- GEMM accepts the operand format (R156). -/
def gemmFmt (f : Nat) : Bool := (decide (1 ≤ f) && decide (f ≤ 8)) || isMx f

/-- Every unlisted bit of DN, DN + 1 and SUB is 0 (R228). -/
def bitsListed (o : TileOp) : Bool :=
  match o.major with
  | 0x38 => bits o.sub 5 3 == 0 && bits o.dn 19 17 == 0 && bits o.dn 63 32 == 0 && o.dn1 == 0 &&
      (!o.sub.testBit 0 || opFmtOut o == 0)
  | 0x39 => bits o.sub 5 2 == 0 && bits o.dn 19 17 == 0 && bits o.dn 63 24 == 0 && bits o.dn1 63 40 == 0 &&
      (opMode o == 0 || opK o == 0)
  | 0x3A =>
    if opMode o = 0 then bits o.sub 5 4 == 0 && bits o.dn 19 0 == 0 && bits o.dn 27 24 == 0 && bits o.dn 63 48 == 0 &&
      bits o.dn1 63 40 == 0
    else bits o.sub 5 4 == 0 && bits o.dn 23 0 == 0 && bits o.dn 63 26 == 0 && bits o.dn1 47 40 == 0
  | 0x3B => bits o.sub 5 4 == 0 && bits o.sub 2 2 == 0 && bits o.dn 19 0 == 0 && bits o.dn 27 26 == 0 &&
      bits o.dn 63 32 == 0 && bits o.dn1 63 40 == 0
  | _ => o.sub == 0 && bits o.dn1 63 44 == 0

/-- The mode field names an operation (R228). -/
def modeOk (o : TileOp) : Bool :=
  match o.major with
  | 0x39 => decide (opMode o ≤ 2)
  | 0x3A => decide (opMode o ≤ 1)
  | 0x3B => decide (opMode o ≤ 2)
  | _ => true

/-- The formats are supported (R156, R233, R104–R106, R135); otherwise cause 0x05. -/
def formatsOk (o : TileOp) : Bool :=
  match o.major with
  | 0x38 =>
    let a := opFmtA o; let b := opFmtB o
    gemmFmt a && gemmFmt b && (isIntFmt a == isIntFmt b) &&
      (o.sub.testBit 0 || (isOutFmt (opFmtOut o) && (if isIntFmt a then opFmtOut o == 9 || (!isIntFmt (opFmtOut o) && !o.sub.testBit 1) else !isIntFmt (opFmtOut o))))
  | 0x39 =>
    let f := opFmtA o
    if opMode o = 1 then wireOk 1 f else f != 0xF && !isIntFmt f
  | 0x3A =>
    if opMode o = 0 then opFmtA o != 0xF && !isMx (opFmtA o) &&
      (o.sub.testBit 2 || (outSuits (isIntFmt (opFmtA o)) (opFmtOut o) && !isMx (opFmtOut o)))
    else opWidth o != 3
  | 0x3B =>
    let f := opFmtA o
    match opMode o with
    | 0 => f != 0xF && outSuits (isIntFmt f) (opFmtOut o)
    | 1 => decide (opWidth o < 2) && wireOk (opWidth o) f
    | _ => decide (opWidth o < 2) && wireOk (opWidth o) f && outSuits (isIntFmt f) (opFmtOut o)
  | _ => bits o.dn1 43 40 != 0xF

/-- The limits of R232 hold; otherwise cause 0x06. For ANCHOR ROWS, N is whole panels of 8 × K (log entry 13). -/
def limitsOk (o : TileOp) : Bool :=
  let kOk := fun (mx : Bool) => decide (1 ≤ opK o) && decide (opK o ≤ 65536) && (!mx || opK o % 32 == 0)
  match o.major with
  | 0x38 => kOk (isMx (opFmtA o) || isMx (opFmtB o))
  | 0x39 => opN o != 0 && (opMode o != 0 || (kOk (isMx (opFmtA o)) && opN o % (8 * opK o) == 0))
  | 0x3A => opN o != 0 && (if opMode o = 0 then decide (opN o ≤ 2 ^ 26) else decide (2 ≤ opM o))
  | _ => opN o != 0

/-- Bytes of one lane of VREDUCE LANES or of a wire value (R228). -/
def laneBytes (w : Nat) : Nat := if w = 0 then 4 else if w = 1 then 8 else 16

/-- The element ranges an operation reads (the bytes B of R154), then the further operand ranges, then the range it writes. -/
def opReads (o : TileOp) : List (Nat × Nat) :=
  match o.major with
  | 0x38 => [(opPtr o 0, elemBytes (opFmtA o) (8 * opK o)), (opPtr o 1, elemBytes (opFmtB o) (8 * opK o))]
  | 0x39 => [(opPtr o 0, elemBytes (opFmtA o) (opN o))]
  | 0x3A => if opMode o = 0 then [(opPtr o 0, elemBytes (opFmtA o) (opN o))]
      else [(opPtr o 0, laneBytes (opWidth o) * opN o * opM o)]
  | 0x3B => if opMode o = 2 then [(opPtr o 0, laneBytes (opWidth o) * opN o)]
      else [(opPtr o 0, elemBytes (opFmtA o) (opN o))]
  | _ => let f := bits o.dn1 43 40
      [(opPtr o 0, if isMx f then opN o else elemBytes f (opN o))]

/-- The number of scale bytes of `n` elements (R102). -/
def scaleCount (f n : Nat) : Nat := if isMx f then ceilDiv n 32 else 0

def opReads2 (o : TileOp) : List (Nat × Nat) :=
  match o.major with
  | 0x38 =>
    [(opPtr o 3, 16), (opPtr o 4, 16)] ++
    (if isMx (opFmtA o) then [(opPtr o 5, opK o / 32 * 8)] else []) ++
    (if isMx (opFmtB o) then [(opPtr o 6, opK o / 32 * 8)] else []) ++
    (if o.sub.testBit 1 then [(opPtr o 2, if o.sub.testBit 0 then 1024 else elemBytes (opFmtOut o) 64 + scaleCount (opFmtOut o) 64)] else [])
  | 0x39 => if isMx (opFmtA o) then [(opPtr o 5, scaleCount (opFmtA o) (opN o))] else []
  | 0x3A => []
  | 0x3B =>
    (if opMode o = 0 then [] else [(opPtr o 2, ceilDiv (opN o) 256)]) ++
    (if opMode o = 0 ∧ isMx (opFmtA o) then [(opPtr o 5, scaleCount (opFmtA o) (opN o))] else [])
  | _ => [(opPtr o 1, 8), (opPtr o 2, 8)]

def opWrites (o : TileOp) : List (Nat × Nat) :=
  match o.major with
  | 0x38 => [(opPtr o 2, if o.sub.testBit 0 then 1024 else elemBytes (opFmtOut o) 64 + scaleCount (opFmtOut o) 64)]
  | 0x39 =>
    [(opPtr o 1, if opMode o = 0 then opN o / (8 * opK o) * 16 else if opMode o = 1 then ceilDiv (opN o) 256 else 2)]
  | 0x3A => [(opPtr o 1, if opMode o = 0 then (if o.sub.testBit 2 then 16 else elemBytes (opFmtOut o) 1) else laneBytes (opWidth o) * opN o)]
  | 0x3B =>
    if opMode o = 1 then [(opPtr o 1, laneBytes (opWidth o) * opN o)]
    else (opPtr o 1, elemBytes (opFmtOut o) (opN o)) ::
      (if isMx (opFmtOut o) then [(opPtr o 6, scaleCount (opFmtOut o) (opN o))] else [])
  | _ => [(opPtr o 1, 8)]

/-- Every range lies in the scratchpad. -/
def rangesIn (l : List (Nat × Nat)) : Bool := l.all fun r => decide (r.1 + r.2 ≤ 0x100000)

/-- The cause with which the operation traps at issue (R213, R215): illegal parameter bits or mode 0x01, format 0x05, limit
0x06; 0 when it is issued. A Churn core also traps with 0x03 for an operand outside the scratchpad. -/
def issueCauseAnywhere (o : TileOp) : Nat :=
  if !bitsListed o || !modeOk o then 0x01
  else if !formatsOk o then 0x05
  else if !limitsOk o then 0x06
  else 0

/-- As `issueCauseAnywhere`, with operands in the scratchpad of a Churn core. -/
def issueCause (o : TileOp) : Nat :=
  if issueCauseAnywhere o ≠ 0 then issueCauseAnywhere o
  else if !rangesIn (opReads o ++ opReads2 o ++ opWrites o) then 0x03
  else 0

/-- Tile cycles of an operation (R154). B counts the operand's elements with their scale and anchor bytes; the 8-byte digest and
seed of DIGEST are no part of its byte range (log entry 47). -/
def opCycles (o : TileOp) : Nat :=
  let b := (((if o.major = 0x3C then opReads o else opReads o ++ opReads2 o)).map (·.2)).sum
  match o.major with
  | 0x38 =>
    let a := opFmtA o; let f := opFmtB o
    let wide := fun x => x == 1 || x == 2
    let narrow := fun x => decide (elemBits x ≤ 6)
    let r := if wide a || wide f then 1 else if narrow a && narrow f then 4 else 2
    8 + ceilDiv (opK o) r + (if o.sub.testBit 0 then 16 else 12)
  | 0x3B => 4 + ceilDiv (max b (((opWrites o).map (·.2)).sum)) 64
  | _ => 4 + ceilDiv b 64

/-- The bytes of a scratchpad range as a function of the index. -/
def spadBytes (n addr len : Nat) (c : Chip) : Nat → Nat :=
  let a := (ldBytes (spSpad n) addr len c).toArray
  fun i => a.getD i 0

/-- A 16-bit signed exponent; 0x8000 means that no element is finite and nonzero (R229). -/
def exp16 (byte : Nat → Nat) (i : Nat) : Option Int :=
  let v := byte (2 * i) + 256 * byte (2 * i + 1)
  if v = 0x8000 then none else some (toSigned 16 v)

/-- An optional exponent as 16 bits (R229). -/
def exp16Of : Option Int → Nat
  | some e => ofSigned 16 e
  | none => 0x8000

/-- What an operation leaves: writes to the scratchpad, whether an element saturated, whether it traps with 0x06 (R231),
and how many free values its result takes. -/
structure TileRes where
  writes : List (Nat × List Nat)
  sat : Bool
  limit : Bool
  frees : Nat
deriving DecidableEq, Repr

/-- The `i`-th fresh free value. -/
def freeAt (c : Chip) (i : Nat) : Nat := (Config.freeValue (c.free + i)).toNat

/-- 16 bytes of a raw accumulator. A sum that met an infinity or a NaN has no raw integer; its 16 bytes are free values
(log entry 14). -/
def rawBytes (c : Chip) (i : Nat) (t : Sum) : List Nat :=
  if t.nan || t.pinf || t.ninf then leBytes 8 (freeAt c (2 * i)) ++ leBytes 8 (freeAt c (2 * i + 1))
  else leBytes 16 (ofSigned 128 t.acc)

/-- The results of sums in an output format, packed, with the scale bytes of an MX format in order. -/
def roundAll (f : Nat) (sat : Bool) (rs : List (Sum × Int)) : List Nat × List Nat × Bool :=
  if isMx f then
    let blocks := (List.range (ceilDiv rs.length 32)).map fun b => mxBlock f sat ((rs.drop (32 * b)).take 32)
    (packCodes f (blocks.flatMap (·.2.1)), blocks.map (·.1), blocks.any (·.2.2))
  else
    let xs := rs.map fun r => sumResult f sat r.2 r.1
    (packCodes f (xs.map (·.1)), [], xs.any (·.2))

/-- The GEMM block (R155–R157, R111, R112, R118, R119, R126, R229). Elements are k-major, the scale of block b of row or
column i at byte 8 b + i (log entry 15). C_in is read in `FMT_OUT`, or as raw accumulators on the same grid (log entry 16). -/
def gemmResult (n : Nat) (o : TileOp) (c : Chip) : TileRes :=
  let k := opK o; let fa := opFmtA o; let fb := opFmtB o; let fo := opFmtOut o
  let raw := o.sub.testBit 0; let cin := o.sub.testBit 1; let sat := o.sub.testBit 2
  let a := spadBytes n (opPtr o 0) (elemBytes fa (8 * k)) c
  let b := spadBytes n (opPtr o 1) (elemBytes fb (8 * k)) c
  let sa := spadBytes n (opPtr o 5) (if isMx fa then k / 32 * 8 else 0) c
  let sb := spadBytes n (opPtr o 6) (if isMx fb then k / 32 * 8 else 0) c
  let ro := spadBytes n (opPtr o 3) 16 c
  let ga := spadBytes n (opPtr o 4) 16 c
  let ci := spadBytes n (opPtr o 2) 1024 c
  let anchored := isAnchored fa || isAnchored fb || (cin && !raw && isAnchored fo)
  let avals := ((List.range (8 * k)).map fun e => decodeNum fa (elemCode fa a e) (sa (8 * (e / 8 / 32) + e % 8))).toArray
  let bvals := ((List.range (8 * k)).map fun e => decodeNum fb (elemCode fb b e) (sb (8 * (e / 8 / 32) + e % 8))).toArray
  let rs := (List.range 64).map fun ij =>
    let i := ij / 8; let j := ij % 8
    let cnum : Num := if isMx fo then decodeNum fo (elemCode fo ci ij) (ci (elemBytes fo 64 + ij / 32)) else decodeElem fo (elemCode fo ci ij)
    let e0 : Option Int := match exp16 ro i, exp16 ga j with
      | some r, some g => some (r + g + 1)
      | _, _ => none
    let ea := if cin && !raw then optMax e0 (epsOf fo cnum) else e0
    let l : Int := if anchored then ea.getD 0 - 100 else gridL fa + gridL fb
    let add := fun (t : Sum) (x : Num) => if anchored && ea.isNone then sumAddNoGrid t x else sumAdd l t x
    let t := (List.range k).foldl (fun t kk =>
      add t (numMul (avals.getD (8 * kk + i) .nan) (bvals.getD (8 * kk + j) .nan))) Sum.empty
    let t := if cin then (if raw then { t with allNegZero := false, acc := t.acc + toSigned 128 (leNat ((List.range 16).map fun q => ci (16 * ij + q))) }
      else add t cnum) else t
    (t, l)
  if raw then
    ⟨[(opPtr o 2, (rs.zipIdx).flatMap fun r => rawBytes c r.2 r.1.1)], false, false,
      if rs.any (fun r => r.1.nan || r.1.pinf || r.1.ninf) then 128 else 0⟩
  else
    let y := roundAll fo sat rs
    ⟨[(opPtr o 2, y.1 ++ y.2.1)], y.2.2, false, 0⟩

/-- ANCHOR (R137, R154, R228): the greatest ε of each row of each panel, of the vector, or one anchor byte per 256 elements. -/
def anchorResult (n : Nat) (o : TileOp) (c : Chip) : TileRes :=
  let f := opFmtA o; let nn := opN o; let k := opK o
  let b := spadBytes n (opPtr o 0) (elemBytes f nn) c
  let s := spadBytes n (opPtr o 5) (scaleCount f nn) c
  let val := fun (e scaleIx : Nat) => decodeNum f (elemCode f b e) (s scaleIx)
  match opMode o with
  | 0 =>
    let out := (List.range (nn / (8 * k))).flatMap fun p => (List.range 8).flatMap fun i =>
      leBytes 2 (exp16Of ((List.range k).foldl (fun m kk =>
        optMax m (epsOf f (val (8 * k * p + 8 * kk + i) (8 * (k / 32) * p + 8 * (kk / 32) + i)))) none))
    ⟨[(opPtr o 1, out)], false, false, 0⟩
  | 1 =>
    let bias : Int := 1 - (floatFmt f).emin
    let out := (List.range (ceilDiv nn 256)).map fun bl =>
      if isIntFmt f then freeAt c bl % 256
      else match (List.range (min 256 (nn - 256 * bl))).foldl (fun m e => optMax m (epsOf f (val (256 * bl + e) 0))) none with
        | some e => (e + bias).toNat % 256
        | none => 0
    ⟨[(opPtr o 1, out)], false, false, if isIntFmt f then ceilDiv nn 256 else 0⟩
  | _ =>
    ⟨[(opPtr o 1, leBytes 2 (exp16Of ((List.range nn).foldl (fun m e => optMax m (epsOf f (val e (e / 32)))) none)))], false, false, 0⟩

/-- A signed value of `w` bytes from a byte function. -/
def laneAt (byte : Nat → Nat) (w i : Nat) : Int := toSigned (8 * w) (leNat ((List.range w).map fun q => byte (w * i + q)))

/-- VREDUCE (R231, R119, R126): the sum of a vector, or the lane-by-lane sum of partial vectors. -/
def vreduceResult (n : Nat) (o : TileOp) (c : Chip) : TileRes :=
  let nn := opN o
  if opMode o = 0 then
    let f := opFmtA o
    let b := spadBytes n (opPtr o 0) (elemBytes f nn) c
    let ea := exp16 (fun i => bits o.dn (39 + 8 * i) (32 + 8 * i)) 0
    let l : Int := if isAnchored f then ea.getD 0 - 100 else gridL f
    let t := (List.range nn).foldl (fun t e =>
      let x := decodeElem f (elemCode f b e)
      if isAnchored f && ea.isNone then sumAddNoGrid t x else sumAdd l t x) Sum.empty
    if o.sub.testBit 2 then ⟨[(opPtr o 1, rawBytes c 0 t)], false, false, if t.nan || t.pinf || t.ninf then 2 else 0⟩
    else
      let y := roundAll (opFmtOut o) (o.sub.testBit 3) [(t, l)]
      ⟨[(opPtr o 1, y.1)], y.2.2, false, 0⟩
  else
    let w := opWidth o; let lb := laneBytes w
    let b := spadBytes n (opPtr o 0) (lb * nn * opM o) c
    if w = 2 then
      let out := (List.range nn).map fun i => (List.range (opM o)).foldl (fun a m => a + laneAt b lb (m * nn + i)) 0
      if out.all (fun v => decide (-(2 ^ 127) ≤ v) && decide (v < 2 ^ 127)) then
        ⟨[(opPtr o 1, out.flatMap fun v => leBytes 16 (ofSigned 128 v))], false, false, 0⟩
      else ⟨[], false, true, 0⟩
    else
      let lanes := (List.range nn).map fun i => (List.range (opM o)).foldl (fun (a : Option Wire) m =>
        match a, wireRead w (laneAt b lb (m * nn + i)) with
        | some x, some y => some (if m = 0 then y else wireAdd x y)
        | _, _ => none) (some (.int 0))
      let ok := lanes.all fun x => match x with
        | some (.int v) => decide (wireLeast w ≤ v) && decide (v < 2 ^ (wireBits w - 1))
        | some _ => true
        | none => false
      if ok then
        ⟨[(opPtr o 1, lanes.flatMap fun x => leBytes lb (ofSigned (8 * lb) (wireInt w (x.getD (.int 0)))))], false, false, 0⟩
      else ⟨[], false, true, 0⟩

/-- CONVERT (R97, R136, R230, R397): between formats, onto a wire grid, from a wire grid. A value that FROM_WIRE cannot
read as a partial, or a nonzero partial without an anchor, gives a free value (log entry 14). -/
def convertResult (n : Nat) (o : TileOp) (c : Chip) : TileRes :=
  let f := opFmtA o; let nn := opN o; let w := opWidth o; let lb := laneBytes w; let sat := o.sub.testBit 3
  match opMode o with
  | 0 =>
    let b := spadBytes n (opPtr o 0) (elemBytes f nn) c
    let s := spadBytes n (opPtr o 5) (scaleCount f nn) c
    let rs := (List.range nn).map fun e =>
      let x := decodeNum f (elemCode f b e) (s (e / 32))
      if isAnchored f then (match epsOf f x with
        | some ep => (sumAdd (ep - 100) Sum.empty x, ep - 100)
        | none => (sumAddNoGrid Sum.empty x, (0 : Int)))
      else (sumAdd (gridL f) Sum.empty x, gridL f)
    let y := roundAll (opFmtOut o) sat rs
    ⟨(opPtr o 1, y.1) :: (if isMx (opFmtOut o) then [(opPtr o 6, y.2.1)] else []), y.2.2, false, 0⟩
  | 1 =>
    let b := spadBytes n (opPtr o 0) (elemBytes f nn) c
    let an := spadBytes n (opPtr o 2) (ceilDiv nn 256) c
    let out := (List.range nn).flatMap fun e =>
      let x := decodeElem f (elemCode f b e)
      let ab := an (e / 256)
      let wv : Wire :=
        if f ≤ 2 ∧ ab = 0 then (match x with
          | .fin s m _ => if s && m == 0 then .negZero else .int 0
          | y => wireOf 0 y)
        else wireOf (wireL w f (anchorOfByte f ab)) x
      leBytes lb (ofSigned (8 * lb) (wireInt w wv))
    ⟨[(opPtr o 1, out)], false, false, 0⟩
  | _ =>
    let b := spadBytes n (opPtr o 0) (lb * nn) c
    let an := spadBytes n (opPtr o 2) (ceilDiv nn 256) c
    let fo := opFmtOut o
    let rs := (List.range nn).map fun e =>
      let ab := an (e / 256)
      let l := wireL w f (anchorOfByte f ab)
      match wireRead w (laneAt b lb e) with
      | some (.int v) => if f ≤ 2 ∧ ab = 0 ∧ v ≠ 0 then (⟨false, false, false, false, toSigned 64 (freeAt c e)⟩, l) else (wireSum (.int v), l)
      | some x => (wireSum x, l)
      | none => (⟨false, false, false, false, toSigned 64 (freeAt c e)⟩, l)
    let y := roundAll fo sat rs
    ⟨(opPtr o 1, y.1) :: (if isMx fo then [(opPtr o 6, y.2.1)] else []), y.2.2, false,
      if (List.range nn).any (fun e => (wireRead w (laneAt b lb e)).isNone || an (e / 256) == 0) then nn else 0⟩

/-- DIGEST (R228, R554–R557): the digest of N elements, or of N scale bytes for an MX format, added to the 8-byte digest. -/
def digestResult (n : Nat) (o : TileOp) (c : Chip) : TileRes :=
  let f := bits o.dn1 43 40; let nn := opN o
  let b := spadBytes n (opPtr o 0) (if isMx f then nn else elemBytes f nn) c
  let old := ld (spSpad n) (opPtr o 1) 8 c
  let seed := ld (spSpad n) (opPtr o 2) 8 c
  let d := if isMx f then digestScales seed o.dn nn b else digestElems f seed o.dn nn b
  ⟨[(opPtr o 1, leBytes 8 ((old + d) % 2 ^ 64))], false, false, 0⟩

/-- The result of an operation (R154, R228). -/
def tileResult (n : Nat) (o : TileOp) (c : Chip) : TileRes :=
  match o.major with
  | 0x38 => gemmResult n o c
  | 0x39 => anchorResult n o c
  | 0x3A => vreduceResult n o c
  | 0x3B => convertResult n o c
  | _ => digestResult n o c

/-- Some operand line of the operation is poisoned (R158). -/
def opPoisoned (n : Nat) (o : TileOp) (c : Chip) : Bool :=
  (opReads o ++ opReads2 o).any fun r => anyPoison (spSpad n) r.1 r.2 c

/-- The running operation of core `n` meets a poisoned operand: no result; the core sets `POISON` and traps with 0x04 at
the operation's address (R158, R215). -/
def tilePoison (n : Fin 336) (o : TileOp) (val : Nat) (c : Chip) : Chip :=
  let k := getCore (.churn n) c
  trapEntry (.churn n) 0x04 val o.pc (raise (corePage n.val) 0x0106 2 (setCore (.churn n) { k with tile := none } c))

/-- The pulses that waited for the tile's writes leave (R150). -/
def flushSigs (n : Fin 336) (c : Chip) : Chip :=
  let k := getCore (.churn n) c
  k.sigs.foldl (fun c l => pulse l c) (setCore (.churn n) { k with sigs := [] } c)

/-- The running tile operation of a core ends: its result is written, saturation sets SAT (R159); a poisoned operand or a
lane out of range traps instead (R158, R231). A core without one is unchanged. -/
def finishTile (n : Fin 336) (c : Chip) : Chip :=
  let k := getCore (.churn n) c
  match k.tile with
  | none => c
  | some o =>
    flushSigs n <|
    if opPoisoned n.val o c then tilePoison n o 0 c
    else
      let r := tileResult n.val o c
      let k := { k with tile := none }
      if r.limit then trapEntry (.churn n) 0x06 0 o.pc (setCore (.churn n) k c)
      else
        let c := setCore (.churn n) (if r.sat then setStatus k 0 true else k) c
        let c := r.writes.foldl (fun c w => put (spSpad n.val) w.1 w.2 c) c
        { c with free := c.free + r.frees }

/-- The tile cycles of a core move on to the end of its running operation, which it waits for (R152, R153). -/
def waitTile (n : Fin 336) (c : Chip) : Chip :=
  match (getCore (.churn n) c).tile with
  | none => c
  | some o => finishTile n (wr (Reg.CC_CYCLES n.val) (max (rd (Reg.CC_CYCLES n.val) c) o.endCycle) c)

/-- A range overlaps what the running operation of a core writes (R153). -/
def tileWriteOverlap (n : Fin 336) (addr len : Nat) (c : Chip) : Bool :=
  match (getCore (.churn n) c).tile with
  | none => false
  | some o => (opWrites o).any fun r => overlaps addr len r.1 r.2

end Sys2Proof.Machine
end

