-- ==== Sys2Proof/Machine/Sterok.lean ====
section
/-! DEFINITION. Running one Sterok instruction (chapter 05): the wrapper every meaning is written over, the encodings (R197), branches (R198, R199), addressing modes (R201–R204), loads and stores, accumulators, control registers. -/

namespace Sys2Proof.Machine

/-! ### Encodings (R197): the instruction word, which TRAP_VAL records -/

def encT (major minor : Nat) (x y z : Fin 16) : Nat :=
  major * 2 ^ 26 + x.val * 2 ^ 22 + y.val * 2 ^ 18 + z.val * 2 ^ 14 + minor
def encI (major : Nat) (x y : Fin 16) (imm : BitVec 18) : Nat :=
  major * 2 ^ 26 + x.val * 2 ^ 22 + y.val * 2 ^ 18 + imm.toNat
def encM (major : Nat) (x y : Fin 16) (mode : BitVec 2) (disp : BitVec 16) : Nat :=
  major * 2 ^ 26 + x.val * 2 ^ 22 + y.val * 2 ^ 18 + mode.toNat * 2 ^ 16 + disp.toNat
def encJ (major : Nat) (off : BitVec 26) : Nat := major * 2 ^ 26 + off.toNat
def encK (minor : Nat) (x : Fin 16) (ct : BitVec 6) (imm : BitVec 10) : Nat :=
  0x30 * 2 ^ 26 + x.val * 2 ^ 22 + ct.toNat * 2 ^ 16 + imm.toNat * 2 ^ 6 + minor
def encE (minor : Nat) (x : Fin 16) (slot : BitVec 3) (imm : BitVec 16) : Nat :=
  0x31 * 2 ^ 26 + x.val * 2 ^ 22 + slot.toNat * 2 ^ 19 + imm.toNat * 2 ^ 3 + minor
def encA (minor : Nat) (x y z : Fin 16) (sh : BitVec 7) : Nat :=
  0x34 * 2 ^ 26 + x.val * 2 ^ 22 + y.val * 2 ^ 18 + z.val * 2 ^ 14 + sh.toNat * 2 ^ 7 + minor
def encX (major : Nat) (sub : BitVec 6) (dn : Fin 16) (g : Bool) : Nat :=
  major * 2 ^ 26 + sub.toNat * 2 ^ 20 + dn.val * 2 ^ 16 + b2n g * 2 ^ 15

/-! ### Running an instruction -/

/-- What an instruction does: it completes, with the registers and the chip it leaves, where execution goes on when not at
the next word, and its tile cycles; it stays at the instruction until an event ends it (WAIT, MARK);
it completes in
one cycle and pulses a line (SIGNAL); or it traps (R211: nothing else changes). -/
inductive IRes
  | ok (k : CoreSt) (c : Chip) (next : Option Nat) (cycles : Nat)
  | hold (k : CoreSt) (c : Chip)
  | pulsed (line : Nat)
  | trap (cause val : Nat)
deriving DecidableEq, Repr

/-- The instruction is counted: RETIRED on every core, CYCLES on a Churn core (R168, R209, R210). -/
def retire (i : CoreId) (cycles : Nat) (c : Chip) : Chip :=
  match i with
  | .churn n => bump (Reg.CC_RETIRED n.val) 1 (bump (Reg.CC_CYCLES n.val) cycles c)
  | _ => let k := getCore i c; setCore i { k with retired := k.retired + 1 } c

/-- A Churn target outside 0x0000–0xFFFC, or off a word (R199). -/
def badTarget (i : CoreId) (t : Nat) : Bool := isChurn i && (decide (0xFFFC < t) || t % 4 != 0)

/-- A pending enabled interrupt taken at an instruction boundary while `IE` is 1 (R216, R218). Taking it clears its pending
bit (DESIGN CHOICE, log entry 23). -/
def takeInterrupt (i : CoreId) (line : Nat) (c : Chip) : Chip :=
  let k := getCore i c
  if k.irqPending.getLsbD line && k.irqEnable.getLsbD line then
    let k := { k with wfi := false }
    if statusBit k 3 then
      trapEntry i 0x80 line k.pc (setCore i { k with irqPending := k.irqPending &&& ~~~(1#64 <<< line) } c)
    else setCore i k c
  else c

/-- The interrupts that wait, pending and enabled while `IE` is 1, ascending; a Churn core has none (R188, R218). -/
def waitingIrqs (i : CoreId) (c : Chip) : List Nat :=
  let k := getCore i c
  if !isChurn i && statusBit k 3 then bitList 64 (k.irqPending &&& k.irqEnable).toNat else []

/-- The boundary after an instruction: an interrupt that waits is taken before the next instruction starts (R218). Which of
several is taken first the spec does not say: a free value chooses (log entry 44). -/
def boundary (i : CoreId) (c : Chip) : Chip :=
  match waitingIrqs i c with
  | [] => c
  | [l] => takeInterrupt i l c
  | ls => takeInterrupt i (ls.getD ((freeVal c).toNat % ls.length) 0) (useFree c)

/-- The fetch of an instruction: on a Wayside core its address is translated first (cause 0x08, R213, R219); answers the
registers that the instruction finds, or the trap. -/
def fetchAt (i : CoreId) (c : Chip) : Except (Nat × Nat) CoreSt :=
  let k := getCore i c
  match i with
  | .wayside _ =>
    match locate i k .fetch k.pc 4 c with
    | .trap cause val => .error (cause, val)
    | .at k' _ => .ok k'
    | .dropped _ => .ok k
  | _ => .ok k

/-- What an instruction of word `w`, begun with registers `k` on chip `c`, leaves: a trap leaves everything but the trap state
(R211); otherwise the effect stands, the PC moves on, the instruction is counted, and an interrupt that waits is taken. One that would go
on past 0xFFFC traps (R199); one that traps for another cause does not go on (log entry 46). -/
def instrEnd (i : CoreId) (w : Nat) (k : CoreSt) (c : Chip) : IRes → Chip
  | .trap cause val => trapEntry i cause val k.pc c
  | .hold k' c' => if badTarget i (k.pc + 4) then trapEntry i 0x01 w k.pc c else setCore i k' c'
  | .pulsed line =>
    if badTarget i (k.pc + 4) then trapEntry i 0x01 w k.pc c
    else pulse line (retire i 1 (setCore i { k with pc := k.pc + 4 } c))
  | .ok k' c' next cycles =>
    let t := next.getD (k.pc + 4)
    if badTarget i t then trapEntry i 0x01 w k.pc c
    else boundary i (retire i cycles (setCore i { k' with pc := t % 2 ^ 64 } c'))

/-- One instruction of word `w` on core `i`, at its PC: nothing happens when the core is not at an instruction boundary. -/
def runInstr (i : CoreId) (w : Nat) (f : CoreSt → Chip → IRes) (c : Chip) : Chip :=
  if canExecute i c then
    match fetchAt i c with
    | .error e => trapEntry i e.1 e.2 (getCore i c).pc c
    | .ok k => instrEnd i w k c (f k c)
  else c

/-- An instruction that is illegal on this core (R189, R207). -/
def illegal (w : Nat) : IRes := .trap 0x01 w

/-- A register instruction that writes a value register from two value registers, in `cyc` tile cycles (R206). -/
def valOp (i : CoreId) (minor : Nat) (x y z : Fin 16) (cyc : Nat) (f : Word → Word → Word) : Chip → Chip :=
  runInstr i (encT 0x00 minor x y z) fun k c => .ok (setV k x (f (getV k y) (getV k z))) c none cyc

/-- An immediate instruction that writes a value register from a value register and IMM18 (R206). -/
def immOp (i : CoreId) (major : Nat) (x y : Fin 16) (imm : BitVec 18) (f : Word → Word) : Chip → Chip :=
  runInstr i (encI major x y imm) fun k c => .ok (setV k x (f (getV k y))) c none 1

/-- 1 or 0 as a word (R206). -/
def word1 (b : Bool) : Word := if b then 1 else 0

/-- A pointer instruction that writes a pointer register (R193, R206). -/
def ptrOp (i : CoreId) (minor : Nat) (x y z : Fin 16) (f : CoreSt → Word) : Chip → Chip :=
  runInstr i (encT 0x10 minor x y z) fun k c => .ok (setP k x (f k)) c none 1

/-- Quotient rounded towards 0; all ones for a divisor 0 (R206, R208). -/
def divS (a b : Word) : Word := if b = 0 then BitVec.allOnes 64 else BitVec.sdiv a b
def divU (a b : Word) : Word := if b = 0 then BitVec.allOnes 64 else a / b
/-- Remainder with the sign of the dividend; the dividend for a divisor 0 (R206, R208). -/
def remS (a b : Word) : Word := if b = 0 then a else BitVec.srem a b
def remU (a b : Word) : Word := if b = 0 then a else a % b

/-- The high 64 bits of the 128-bit product (R206). -/
def mulHS (a b : Word) : Word := BitVec.ofInt 64 (a.toInt * b.toInt / 2 ^ 64)
def mulHU (a b : Word) : Word := BitVec.ofNat 64 (a.toNat * b.toNat / 2 ^ 64)

/-- Leading zeros and one-bits (R206). -/
def clz64 (a : Word) : Word := BitVec.ofNat 64 (if a.toNat = 0 then 64 else 63 - a.toNat.log2)
def popc64 (a : Word) : Word := BitVec.ofNat 64 (popCount 64 a.toNat)

/-! ### Branches and jumps -/

/-- A branch target (R198). -/
def branchTarget (k : CoreSt) (off : BitVec 18) : Nat := (((k.pc : Int) + 4 * off.toInt) % (2 ^ 64 : Nat)).toNat

/-- A branch on two value registers (R198, R206): 2 tile cycles taken, 1 untaken (R209). -/
def branchOp (i : CoreId) (major : Nat) (x y : Fin 16) (off : BitVec 18) (f : Word → Word → Bool) : Chip → Chip :=
  runInstr i (encI major x y off) fun k c =>
    if f (getV k x) (getV k y) then
      .ok k c (some (branchTarget k off)) 2
    else .ok k c none 1

/-- The target of a jump (R198). -/
def jumpTarget (k : CoreSt) (off : BitVec 26) : Nat := (((k.pc : Int) + 4 * off.toInt) % (2 ^ 64 : Nat)).toNat

/-! ### Loads and stores -/

/-- The pointer after a post-step or wrap access (R201, R203). -/
def steppedPtr (k : CoreSt) (y : Fin 16) (mode : BitVec 2) (disp : BitVec 16) : Word :=
  let p := getP k y + disp.signExtend 64
  if mode = 2 then
    let s : Word := mapGet 0 k.wrap (2 * y.val)
    let len : Word := mapGet 0 k.wrap (2 * y.val + 1)
    if len = 0 then p
    else if (s.toNat + len.toNat : Nat) ≤ p.toNat then p - len
    else if p.toNat < s.toNat then p + len
    else p
  else p

/-- The access address of form M (R201). -/
def memAddr (k : CoreSt) (y : Fin 16) (mode : BitVec 2) (disp : BitVec 16) : Word :=
  if mode = 0 then getP k y + disp.signExtend 64 else getP k y

/-- The form is illegal: MODE 3, or wrap mode on a base above P7 (R201, R202). -/
def memIllegal (y : Fin 16) (mode : BitVec 2) : Bool := mode == 3 || (mode == 2 && decide (7 < y.val))

/-- The registers after the update of the base (R201). -/
def stepBase (k : CoreSt) (y : Fin 16) (mode : BitVec 2) (disp : BitVec 16) : CoreSt :=
  if mode = 0 then k else setP k y (steppedPtr k y mode disp)

/-- Tile cycles of an access of `n` bytes at `a`: one more when it crosses a 64 B line (R209). -/
def memCycles (base a n : Nat) : Nat := if a / 64 = (a + n - 1) / 64 then base else base + 1

/-- An access of a Churn core that overlaps the output of its running tile operation waits for it (R153). -/
def waitOverlap (i : CoreId) (y : Fin 16) (mode : BitVec 2) (disp : BitVec 16) (n : Nat) (c : Chip) : Chip :=
  match i with
  | .churn m => if canExecute i c && tileWriteOverlap m (memAddr (getCore i c) y mode disp).toNat n c then waitTile m c else c
  | _ => c

/-- A load of `n` bytes (R201, R205, R209): `put` takes the bytes' value into the registers after the base update. A
poisoned line traps with 0x04 (R212). -/
def loadOp (i : CoreId) (major n : Nat) (x y : Fin 16) (mode : BitVec 2) (disp : BitVec 16)
    (put : CoreSt → Nat → CoreSt) (c : Chip) : Chip :=
  let w := encM major x y mode disp
  runInstr i w (fun k c =>
    if memIllegal y mode then illegal w
    else
      let a := (memAddr k y mode disp).toNat
      match locate i k .load a n c with
      | .trap cause val => .trap cause val
      | .dropped k => .ok (put (stepBase k y mode disp) 0) c none (memCycles 2 a n)
      | .at k ps =>
        match piecesPoison ps c with
        | some line => .trap 0x04 line
        | none => .ok (put (stepBase k y mode disp) (leNat (ldPieces ps c))) c none (memCycles 2 a n))
    (waitOverlap i y mode disp n c)

/-- A load into a value register, sign-extended or zero-extended (R206). -/
def loadV (i : CoreId) (major n : Nat) (signed : Bool) (x y : Fin 16) (mode : BitVec 2) (disp : BitVec 16) : Chip → Chip :=
  loadOp i major n x y mode disp fun k v =>
    setV k x (if signed then BitVec.ofInt 64 (toSigned (8 * n) v) else BitVec.ofNat 64 v)

/-- A store of the low `n` bytes of a register (R201, R204, R205, R209). -/
def storeOp (i : CoreId) (major n : Nat) (x y : Fin 16) (mode : BitVec 2) (disp : BitVec 16)
    (val : CoreSt → Word) (c : Chip) : Chip :=
  let w := encM major x y mode disp
  runInstr i w (fun k c =>
    if memIllegal y mode then illegal w
    else
      let a := (memAddr k y mode disp).toNat
      match locate i k .store a n c with
      | .trap cause val => .trap cause val
      | .dropped k' => .ok (stepBase k' y mode disp) c none (memCycles 1 a n)
      | .at k' ps => .ok (stepBase k' y mode disp) (stPieces ps (leBytes n (val k).toNat) c) none (memCycles 1 a n))
    (waitOverlap i y mode disp n c)

/-! ### Atomics -/

/-- An atomic on the 8 bytes at Py (R206, R189, R205, R212, R224): absent on Churn (0x01), misaligned 0x07, uncached 0x0C.
`f` gives the new contents, when it writes, from the old. -/
def atomicOp (i : CoreId) (minor : Nat) (x y z : Fin 16) (f : CoreSt → Word → Option Word) : Chip → Chip :=
  let w := encT 0x32 minor x y z
  runInstr i w fun k c =>
    if isChurn i then illegal w
    else
      let a := (getP k y).toNat
      if a % 8 ≠ 0 then .trap 0x07 a
      else match locate i k .store a 8 c with
        | .trap cause val => .trap cause val
        | .dropped _ => .trap 0x04 (alignDown a 64)
        | .at k' ps =>
          let unc := match i with
            | .wayside _ => (match translate k .store a c with
              | some (_, _, u) => u
              | none => false)
            | _ => false
          if unc then .trap 0x0C ((ps.head?.map (·.2.1)).getD a)
          else match piecesPoison ps c with
            | some line => .trap 0x04 line
            | none =>
              let old : Word := BitVec.ofNat 64 (leNat (ldPieces ps c))
              let c' := match f k old with
                | some nw => stPieces ps (leBytes 8 nw.toNat) c
                | none => c
              .ok (setV k' x old) c' none 1

/-! ### Accumulators -/

/-- An accumulator with an exact total, wrapped to 128 bits; a wrap sets ACC_OVF (R194). -/
def accPut (k : CoreSt) (x : Nat) (v : Int) : CoreSt :=
  let k := if v < -(2 ^ 127) ∨ 2 ^ 127 ≤ v then setStatus k 2 true else k
  setA k x (BitVec.ofInt 128 v)

/-- An accumulator operation (R191): field X names ACC0–ACC3. -/
def accOp (i : CoreId) (minor : Nat) (x y z : Fin 16) (sh : BitVec 7) (ok : Bool) (f : CoreSt → CoreSt) : Chip → Chip :=
  let w := encA minor x y z sh
  runInstr i w fun k c => if ok then .ok (f k) c none 2 else illegal w

/-- Half-even division of an integer by 2^d (R206). -/
def roundHalfEven (v : Int) (d : Nat) : Int :=
  let m := roundShift v.natAbs d
  if v < 0 then -(m : Int) else m

/-- A read move from an accumulator, saturating to 64 bits; saturation sets SAT (R195, R206). -/
def accRead (k : CoreSt) (x : Nat) (v : Int) (signed : Bool) : CoreSt :=
  let lo : Int := if signed then -(2 ^ 63) else 0
  let hi : Int := if signed then 2 ^ 63 - 1 else 2 ^ 64 - 1
  let r := if v < lo then lo else if hi < v then hi else v
  let k := if r = v then k else setStatus k 0 true
  setV k x (BitVec.ofInt 64 r)

/-! ### Control registers -/

/-- A control register exists on a core (R210). -/
def ctExists (i : CoreId) (ct : Nat) : Bool :=
  let churn := isChurn i
  let way := match i with
    | .wayside _ => true
    | _ => false
  if ct ≤ 2 then true
  else if ct = 3 ∨ ct = 5 then churn
  else if ct = 4 ∨ ct = 7 ∨ ct = 8 then true
  else if ct = 6 ∨ (9 ≤ ct ∧ ct ≤ 15) then !churn
  else if ct ≤ 31 then true
  else if ct ≤ 35 then way
  else false

/-- A control register marked S (R210). -/
def ctSuper (ct : Nat) : Bool := (decide (9 ≤ ct) && decide (ct ≤ 15)) || decide (32 ≤ ct)

/-- The value of a control register (R210). `CYCLES` of a Wayside core or the Steward counts a clock the model does not
run: it reads a free value (log entry 17). TLB_INV reads 0. -/
def ctRead (i : CoreId) (k : CoreSt) (ct : Nat) (c : Chip) : Word :=
  match ct with
  | 0 => 3
  | 1 => match i with
    | .churn _ => 0x1F
    | .wayside _ => 0x30
    | .steward => 0
  | 2 => match i with
    | .churn n => BitVec.ofNat 64 (n.val * 2 ^ 16)
    | .wayside w => BitVec.ofNat 64 (1 + w.val * 2 ^ 16)
    | .steward => 2
  | 3 => match i with
    | .churn n => BitVec.ofNat 64 (rd (Reg.CC_POOL n.val) c + rd (Reg.CC_MEMBER n.val) c * 2 ^ 8)
    | _ => 0
  | 4 => k.status
  | 5 => match i with
    | .churn n => BitVec.ofNat 64 (rd (Reg.CC_CYCLES n.val) c)
    | _ => 0
  | 6 => freeVal c
  | 7 => match i with
    | .churn n => BitVec.ofNat 64 (rd (Reg.CC_RETIRED n.val) c)
    | _ => k.retired
  | 8 => BitVec.ofNat 64 (now c)
  | 9 => k.trapCause
  | 10 => k.trapPc
  | 11 => k.trapVal
  | 12 => k.trapVec
  | 13 => k.supSp
  | 14 => k.irqPending
  | 15 => k.irqEnable
  | 32 => k.ptRoot
  | 33 => k.asid
  | 34 => 0
  | 35 => k.mmuCtrl
  | n => mapGet 0 k.wrap (n - 16)

/-- The registers after a write of a control register (R210): a read-only one keeps its value; in user mode only STATUS [2:0]
change; TRAP_VEC keeps 4-byte alignment; TLB_INV drops translations (R210). -/
def ctWrite (k : CoreSt) (ct : Nat) (v : Word) : CoreSt :=
  match ct with
  | 4 =>
    let m : Word := if statusBit k 4 then 0x2F else 0x7
    { k with status := (k.status &&& ~~~m) ||| (v &&& m) }
  | 9 => { k with trapCause := v }
  | 10 => { k with trapPc := v }
  | 11 => { k with trapVal := v }
  | 12 => { k with trapVec := v &&& ~~~3 }
  | 13 => { k with supSp := v }
  | 15 => { k with irqEnable := v }
  | 32 => { k with ptRoot := v &&& ~~~0xFFF }
  | 33 => { k with asid := v &&& 0xFFFF }
  | 34 =>
    let a := k.asid.toNat % 2 ^ 16
    { k with tlb := k.tlb.filter fun t =>
        !(decide (t.asid = a) && (v == 0 || decide (v.toNat / 2 ^ t.log2 = t.vaddr))) }
  | 35 => { k with mmuCtrl := v &&& 1 }
  | n => if 16 ≤ n ∧ n ≤ 31 then { k with wrap := mapPut 0 k.wrap (n - 16) v } else k

/-- A control-register instruction (R210): a register that the core lacks is illegal; one marked S traps with 0x0B in user
mode. `rdOnly` marks CTRD. -/
def ctOp (i : CoreId) (minor : Nat) (x : Fin 16) (ct : BitVec 6) (imm : BitVec 10) (f : CoreSt → Chip → CoreSt) : Chip → Chip :=
  let w := encK minor x ct imm
  runInstr i w fun k c =>
    if !ctExists i ct.toNat then illegal w
    else if ctSuper ct.toNat && !statusBit k 4 then .trap 0x0B w
    else .ok (f k c) (if ct.toNat = 6 then useFree c else c) none 1

/-- An event instruction: absent outside Churn (R189). -/
def eventOp (i : CoreId) (minor : Nat) (x : Fin 16) (slot : BitVec 3) (imm : BitVec 16)
    (f : Fin 336 → CoreSt → Chip → IRes) : Chip → Chip :=
  let w := encE minor x slot imm
  runInstr i w fun k c =>
    match i with
    | .churn n => f n k c
    | _ => illegal w

/-- A Churn core that would wait for the tile does so first: HALT, a restart mark, FENCE, a further tile operation (R152,
R153, R226). -/
def afterTile (i : CoreId) (c : Chip) : Chip :=
  match i with
  | .churn n => if canExecute i c then waitTile n c else c
  | _ => c

/-- The operand pointers P[g]+0 to +6 (R227). -/
def opPtrs (k : CoreSt) (g : Bool) : List Nat := (List.range 7).map fun j => (getP k (8 * b2n g + j)).toNat

/-- A tile operation issued on a Churn core (R152, R154, R215, R227): it waits for the running one, is checked, and runs from
then on; the sequencer goes on. On a core without its major, cause 0x02 (R189). -/
def tileIssue (i : CoreId) (major : Nat) (sub : BitVec 6) (dn : Fin 16) (g : Bool) (c : Chip) : Chip :=
  let w := encX major sub dn g
  runInstr i w (fun k c =>
    if dn.val % 2 = 1 then illegal w
    else match i with
      | .churn n =>
        let o : TileOp := { pc := k.pc, major := major, sub := sub.toNat, dn := (getV k dn).toNat,
                            dn1 := (getV k (dn.val + 1)).toNat, ptrs := opPtrs k g, endCycle := 0 }
        let cause := issueCause o
        if cause ≠ 0 then .trap cause w
        else
          let start := rd (Reg.CC_CYCLES n.val) c
          .ok { k with tile := some { o with endCycle := start + opCycles o } } c none 1
      | _ => .trap 0x02 w) (afterTile i c)

/-! ### Traps and interrupts -/

/-- The registers after ERET (R217). -/
def eretRegs (k : CoreSt) : CoreSt :=
  let toUser := !statusBit k 5
  let k := setStatus (setStatus k 4 (!toUser)) 3 true
  if toUser then { setP k 15 k.supSp with supSp := getP k 15 } else k

/-- Interrupt line `line` of a core rises (R218, R796). A Churn core has none. -/
def interruptLine (i : CoreId) (line : Nat) (c : Chip) : Chip :=
  match i with
  | .churn _ => c
  | .wayside w =>
    if domAwake (357 + w.val) c then
      let k := getCore i c
      takeInterrupt i line (setCore i { k with irqPending := k.irqPending ||| (1#64 <<< line) } c)
    else requestWake (357 + w.val) (.irq w.val line) c
  | .steward =>
    let k := getCore i c
    takeInterrupt i line (setCore i { k with irqPending := k.irqPending ||| (1#64 <<< line) } c)

/-! ### Waits -/

/-- WAIT and WAIT.M issued on a consumer slot (R162, R164): a count already met is subtracted and costs four cycles, or
for WAIT.M holds the core to the Milestone edge; else the core is WAITING. -/
def waitIssue (n : Fin 336) (k : CoreSt) (slot count timeout : Nat) (edge : Bool) (c : Chip) : IRes :=
  let have' := rd (Reg.CC_IN_COUNT n.val slot) c
  if count ≤ have' then
    let c := wr (Reg.CC_IN_COUNT n.val slot) (have' - count) c
    if edge then .hold { k with wait := some ⟨slot, count, timeout, true, true⟩ } c
    else .ok (setStatus k 1 false) c none 4
  else .hold { k with wait := some ⟨slot, count, timeout, edge, false⟩ } (wr (Reg.CC_RUN_STATE n.val) 2 c)

/-- A wait ends: `WAITF`, the core EXECUTING at the next instruction, the tile cycles that passed counted (R162). -/
def waitResume (n : Fin 336) (timedOut : Bool) (cycles : Nat) (c : Chip) : Chip :=
  let k := getCore (.churn n) c
  let k := setStatus { k with wait := none, pc := k.pc + 4 } 1 timedOut
  retire (.churn n) cycles (wr (Reg.CC_RUN_STATE n.val) 1 (setCore (.churn n) k c))

/-! ### DIGEST on a Wayside core -/

/-- The places of a long range through the MMU, page by page (R234). -/
def locateAll (i : CoreId) (kind : MemKind) (c : Chip) : Nat → CoreSt → Nat → Nat → Place
  | 0, k, _, _ => .at k []
  | fuel + 1, k, a, n =>
    let m := min n (4096 - a % 4096)
    match locate i k kind a m c with
    | .at k ps =>
      if n ≤ m then .at k ps
      else match locateAll i kind c fuel k (a + m) (n - m) with
        | .at k qs => .at k (ps ++ qs)
        | r => r
    | r => r

/-- DIGEST (R152, R228, R234). -/
def digestIssue (i : CoreId) (sub : BitVec 6) (dn : Fin 16) (g : Bool) (c : Chip) : Chip :=
  let w := encX 0x3C sub dn g
  match i with
  | .wayside _ => runInstr i w (fun k c =>
      if dn.val % 2 = 1 then illegal w
      else
        let o : TileOp := { pc := k.pc, major := 0x3C, sub := sub.toNat, dn := (getV k dn).toNat,
                            dn1 := (getV k (dn.val + 1)).toNat, ptrs := opPtrs k g, endCycle := 0 }
        let cause := issueCauseAnywhere o
        if cause ≠ 0 then .trap cause w
        else
          let f := bits o.dn1 43 40
          let n := opN o
          let nb := if isMx f then n else elemBytes f n
          match locateAll i .load c (nb / 4096 + 2) k (opPtr o 0) nb with
          | .trap t v => .trap t v
          | .dropped _ => .trap 0x04 (opPtr o 0)
          | .at k ps => match locate i k .load (opPtr o 1) 8 c with
            | .trap t v => .trap t v
            | .dropped _ => .trap 0x04 (opPtr o 1)
            | .at k _ => match locate i k .store (opPtr o 1) 8 c, locate i k .load (opPtr o 2) 8 c with
              | .at k qs, .at _ ss =>
                match piecesPoison (ps ++ qs ++ ss) c with
                | some line => .trap 0x04 line
                | none =>
                  let bs := ldPieces ps c
                  let seed := leNat (ldPieces ss c)
                  let byte := fun j => bs.getD j 0
                  let dig := if isMx f then digestScales seed o.dn n byte else digestElems f seed o.dn n byte
                  .ok k (stPieces qs (leBytes 8 ((leNat (ldPieces qs c) + dig) % 2 ^ 64)) c) none 1
              | .trap _ v, _ => .trap 0x09 v
              | _, .trap t v => .trap t v
              | _, _ => .trap 0x04 (opPtr o 1)) c
  | _ => tileIssue i 0x3C sub dn g c

end Sys2Proof.Machine
end

