-- ==== Sys2Proof/Machine/Accumulator.lean ====
section
/-! DEFINITION. Accumulator instructions (R191, R194, R195, R206, major 0x34). -/

namespace Sys2Proof.Machine

/-- MAC: ACCx + ((Vy × Vz) << SH), signed (R206). -/
def execMac (i : CoreId) (x y z : Fin 16) (sh : BitVec 7) : State → Host.Outcome State Fault Refusal :=
  onChip (accOp i 0x0 x y z sh (decide (x.val < 4)) fun k =>
    accPut k x ((getA k x).toInt + (getV k y).toInt * (getV k z).toInt * 2 ^ sh.toNat))

/-- MACU: ACCx + ((Vy × Vz) << SH), unsigned (R206). -/
def execMacu (i : CoreId) (x y z : Fin 16) (sh : BitVec 7) : State → Host.Outcome State Fault Refusal :=
  onChip (accOp i 0x1 x y z sh (decide (x.val < 4)) fun k =>
    accPut k x ((getA k x).toInt + (getV k y).toNat * (getV k z).toNat * 2 ^ sh.toNat))

/-- MSB: ACCx − ((Vy × Vz) << SH), signed (R206). -/
def execMsb (i : CoreId) (x y z : Fin 16) (sh : BitVec 7) : State → Host.Outcome State Fault Refusal :=
  onChip (accOp i 0x2 x y z sh (decide (x.val < 4)) fun k =>
    accPut k x ((getA k x).toInt - (getV k y).toInt * (getV k z).toInt * 2 ^ sh.toNat))

/-- ACCADDS: ACCx + (sext(Vy) << SH) (R206). -/
def execAccadds (i : CoreId) (x y z : Fin 16) (sh : BitVec 7) : State → Host.Outcome State Fault Refusal :=
  onChip (accOp i 0x3 x y z sh (decide (x.val < 4)) fun k =>
    accPut k x ((getA k x).toInt + (getV k y).toInt * 2 ^ sh.toNat))

/-- ACCADDU: ACCx + (zext(Vy) << SH) (R206). -/
def execAccaddu (i : CoreId) (x y z : Fin 16) (sh : BitVec 7) : State → Host.Outcome State Fault Refusal :=
  onChip (accOp i 0x4 x y z sh (decide (x.val < 4)) fun k =>
    accPut k x ((getA k x).toInt + (getV k y).toNat * 2 ^ sh.toNat))

/-- ACCSUBS: ACCx − (sext(Vy) << SH) (R206). -/
def execAccsubs (i : CoreId) (x y z : Fin 16) (sh : BitVec 7) : State → Host.Outcome State Fault Refusal :=
  onChip (accOp i 0x5 x y z sh (decide (x.val < 4)) fun k =>
    accPut k x ((getA k x).toInt - (getV k y).toInt * 2 ^ sh.toNat))

/-- ACCCLR: ACCx = 0 (R206). -/
def execAccclr (i : CoreId) (x y z : Fin 16) (sh : BitVec 7) : State → Host.Outcome State Fault Refusal :=
  onChip (accOp i 0x6 x y z sh (decide (x.val < 4)) fun k =>
    setA k x 0)

/-- ACCADD: ACCx + ACCy (R206). -/
def execAccadd (i : CoreId) (x y z : Fin 16) (sh : BitVec 7) : State → Host.Outcome State Fault Refusal :=
  onChip (accOp i 0x7 x y z sh (decide (x.val < 4) && decide (y.val < 4)) fun k =>
    accPut k x ((getA k x).toInt + (getA k y).toInt))

/-- RNDS: half-even to signed 64 bits (R195, R206). -/
def execRnds (i : CoreId) (x y z : Fin 16) (sh : BitVec 7) : State → Host.Outcome State Fault Refusal :=
  onChip (accOp i 0x8 x y z sh (decide (y.val < 4)) fun k =>
    accRead k x (roundHalfEven (getA k y).toInt sh.toNat) true)

/-- RNDU: half-even to unsigned 64 bits (R195, R206). -/
def execRndu (i : CoreId) (x y z : Fin 16) (sh : BitVec 7) : State → Host.Outcome State Fault Refusal :=
  onChip (accOp i 0x9 x y z sh (decide (y.val < 4)) fun k =>
    accRead k x (roundHalfEven (getA k y).toInt sh.toNat) false)

/-- FLRS: floor to signed 64 bits (R195, R206). -/
def execFlrs (i : CoreId) (x y z : Fin 16) (sh : BitVec 7) : State → Host.Outcome State Fault Refusal :=
  onChip (accOp i 0xA x y z sh (decide (y.val < 4)) fun k =>
    accRead k x ((getA k y).toInt / 2 ^ sh.toNat) true)

/-- FLRU: floor to unsigned 64 bits (R195, R206). -/
def execFlru (i : CoreId) (x y z : Fin 16) (sh : BitVec 7) : State → Host.Outcome State Fault Refusal :=
  onChip (accOp i 0xB x y z sh (decide (y.val < 4)) fun k =>
    accRead k x ((getA k y).toInt / 2 ^ sh.toNat) false)

end Sys2Proof.Machine
end

