-- ==== Sys2Proof/Machine/Route.lean ====
section
/-! DEFINITION. The device address map (R36, R148, R699) and who reaches what in it (R32, R33, R238, R498, R700, R734, R839, R895): where a range of device addresses leads for an owner code, and moving bytes along it. -/

namespace Sys2Proof.Machine

/-! ### Stall entries (R734–R736) -/

/-- The address of the entry of stall `s`. -/
def stallBase (s : Nat) (c : Chip) : Nat := rd Reg.STL_STALL_TABLE c + 512 * s

/-- Bits `[hi:lo]` of the word at offset `off` of the entry of stall `s`. -/
def stallF (s off hi lo : Nat) (c : Chip) : Nat := ldF spDev (stallBase s c + off) hi lo c

/-- Those bits replaced. -/
def stallPut (s off hi lo v : Nat) (c : Chip) : Chip := putF spDev (stallBase s c + off) hi lo v c

def stallState (s : Nat) (c : Chip) : Nat := stallF s 0 2 0 c
def stallHome (s : Nat) (c : Chip) : Nat := stallF s 0 8 8 c
def stallGen (s : Nat) (c : Chip) : Nat := stallF s 0 31 16 c

/-- Work of an owner may start: a stall must be ACTIVE and not freezing (R749). -/
def ownerRuns (o : Nat) (c : Chip) : Bool :=
  !decide (o < 0x800) || (stallState o c == 1 && !c.freezing.elem o)

/-- Function `f` issues requests for the owner: a host port's or a stall's goes out under its home's function (R698, R723, R749). -/
def ownerIssues (f o : Nat) (c : Chip) : Bool :=
  ownerRuns o c && (if o < 0x800 then funcLive (stallHome o c) f c
    else if o = 0x8000 then funcLive 0 f c else if o = 0x8001 then funcLive 1 f c else true)

/-- The mapped ranges of a stall, as (base, size) (R734). -/
def stallMaps (s : Nat) (c : Chip) : List (Nat × Nat) :=
  ((List.range 8).map fun i => (ld spDev (stallBase s c + 0x40 + 16 * i) 8 c, stallF s (0x48 + 16 * i) 47 0 c)).filter
    fun r => decide (r.2 ≠ 0)

/-! ### Churn pools -/

/-- The owner code of pool `p` (R175, R895). -/
def poolOwner (p : Nat) (c : Chip) : Option Nat :=
  match rd (Reg.CHN_KIND p) c with
  | 1 => some 0x9007
  | 2 => some 0x9003
  | 3 => some (rd (Reg.CHN_STALL p) c)
  | _ => none

/-- The cores of pool `p`, ascending. -/
def poolCores (p : Nat) (c : Chip) : List Nat := (List.range 336).filter fun n => rd (Reg.CHN_POOL_OF n) c == p

/-- The member number of a core of pool `p`: the one its page holds once it has enabled or joined, else its place among
the pool's cores in ascending order (R167). -/
def memberOf (p n : Nat) (c : Chip) : Nat :=
  if c.numbered.elem n then rd (Reg.CC_MEMBER n) c else ((poolCores p c).filter fun m => decide (m < n)).length

/-- The core behind member `m` of pool `p`; a member whose reissue is not complete has none (R181). -/
def coreOfMember (p m : Nat) (c : Chip) : Option Nat :=
  (poolCores p c).find? fun n => memberOf p n c == m && !(c.reissues.any fun r => r.repl == n && !r.ready)

/-! ### The map -/

/-- Where a device address leads. -/
inductive Dest
  /-- A byte of a space of memory. -/
  | mem (sp addr : Nat)
  /-- The instruction memory of a core, subject to R149. -/
  | imem (core addr : Nat)
  /-- The instruction memory of every member of a pool (R148). -/
  | imemAll (pool addr : Nat)
  /-- The window of a member whose core is fenced or being replaced (R181): reads poisoned, writes dropped. -/
  | fencedWin
  /-- A block retired from service (R839): reads poisoned, writes dropped. -/
  | retired
  /-- Blocked at a port (R699, R715, R819). -/
  | blocked
  /-- Outside what the requester reaches (R33). -/
  | outside
deriving DecidableEq, Repr

/-- The owner code under which the device-memory aperture reaches (R696, R895); no owner register holds it. -/
def apertureCode : Nat := 0x10000

/-- The owner code is a stall's. -/
def isStallCode (o : Nat) : Bool := decide (o < 0x800)
/-- The owner code is a device block's (R244). -/
def isBlockCode (o : Nat) : Bool := decide (0x9001 ≤ o) && decide (o ≤ 0x900B)

/-- An owner reaches the channels of an activity (R32, R238, R498, R696): its own; Layby both of its two; Herd also
CHURN_POOL. -/
def reachesActivity (o act : Nat) : Bool :=
  act != 0 && (o == apertureCode || o == 0x9000 + act || (o == 0x9008 && act == 9) || (o == 0x9003 && act == 4))

/-- An owner reaches the windows of pool `p` (R895). -/
def reachesPool (o p : Nat) (c : Chip) : Bool := o == apertureCode || poolOwner p c == some o

/-- An owner reaches the accelerator window of Spur port `a` (R700, R734). -/
def reachesSpur (o a : Nat) (c : Chip) : Bool :=
  if isStallCode o then (stallF o 8 7 0 c).testBit a
  else if o = 0x8000 ∨ o = 0x8001 then rd (Reg.SPR_BIND_HOST a) c == o - 0x8000
  else isBlockCode o

/-- LINK_UP of the port of an SPR or SSD page. -/
def portUp (page : Nat) (c : Chip) : Bool :=
  if page < 0x18 then rd (Reg.SPR_LINK_FIELDS (page - 0x10)) c % 2 == 1 else rd (Reg.SSD_LINK_FIELDS (page - 0x18)) c % 2 == 1

/-- Spur port `a` takes no request (R715, R819). -/
def spurBlocked (a : Nat) (c : Chip) : Bool := !portUp (0x10 + a) c || rdb Reg.RST_SAFE_STATE c

/-- The first address above `a` among `l`, as a distance; `d` when there is none. -/
def nextAbove (a d : Nat) : List Nat → Nat
  | [] => d
  | x :: t => nextAbove a (if a < x then min d (x - a) else d) t

/-- The addresses at which the parts of the map begin and end. -/
def mapEdges : List Nat :=
  [0x4000000000, 0xA000000000, 0xC000000000, 0xE000000000] ++ (List.range 9).map (fun i => 0x10000000000 * (i + 1)) ++
  [0xA0000000000, 0xC0000000000, 2 ^ 62, 2 ^ 63, 3 * 2 ^ 62, 2 ^ 64]

/-- A host-port address (R699) for an owner, with the bytes for which the answer holds. -/
def hostRegion (o h a : Nat) (c : Chip) : Dest × Nat :=
  let ext := 2 ^ 62 - a
  let there := if rdb Reg.RST_SAFE_STATE c then Dest.blocked else .mem (spHost h) a
  if isStallCode o then
    if stallHome o c ≠ h then (.outside, ext)
    else match (stallMaps o c).find? fun r => decide (r.1 ≤ a) && decide (a < r.1 + r.2) with
      | some r => (there, min ext (r.1 + r.2 - a))
      | none => (.outside, nextAbove a ext ((stallMaps o c).map (·.1)))
  else if o = 0x8000 + h ∨ isBlockCode o then (there, ext)
  else (.outside, ext)

/-- An accelerator-window offset (R699) for an owner. -/
def spurRegion (o a off : Nat) (c : Chip) : Dest × Nat :=
  let ext := 0x10000000000 - off
  let win := rd (Reg.SPR_ACC_WIN_SIZE a) c
  if !reachesSpur o a c then (.outside, ext)
  else if win ≤ off then (.blocked, ext)
  else if spurBlocked a c then (.blocked, win - off)
  else (.mem (spAcc a) (rd (Reg.SPR_ACC_BAR_ADDR a) c + off), win - off)

/-- A Churn window address for an owner (R148, R181, R895). -/
def windowRegion (o a : Nat) (imem : Bool) (c : Chip) : Dest × Nat :=
  let p := a / 0x100000000 % 32
  let sz := if imem then 0x10000 else 0x100000
  let m := a % 0x100000000 / sz
  let ext := sz - a % sz
  if !reachesPool o p c then (.outside, ext)
  else if imem && m = 0xFFF then (.imemAll p (a % sz), ext)
  else match coreOfMember p m c with
    | some n =>
      if pageState (0x2000 + n) c = 4 then (.fencedWin, ext)
      else if imem then (.imem n (a % sz), ext)
      else (.mem (spSpad n) (a % sz), ext)
    | none =>
      if (c.reissues.any fun r => !r.ready && rd (Reg.CC_POOL r.failed) c == p && rd (Reg.CC_MEMBER r.failed) c == m) ||
         (c.folded.any fun f => rd (Reg.CC_POOL f.1) c == p && rd (Reg.CC_MEMBER f.1) c == m)
      then (.fencedWin, ext) else (.outside, ext)

/-- A device-memory address for an owner (R32, R36, R839). -/
def memRegion (o a : Nat) (c : Chip) : Dest × Nat :=
  match devChannel a with
  | none => (.outside, min (0x80000000 - a % 0x80000000) (nextAbove a (2 ^ 64) mapEdges))
  | some (m, n) =>
    let r := channelRange m n
    let ext := r.1 + r.2 - a
    if !reachesActivity o (rd (Reg.MEM_ACTIVITY m n) c) || rdb (Reg.MEM_SCRUBBING m n) c then (.outside, ext)
    else
      let bad := ((List.range 128).filter fun e => rdb (Reg.MEM_RETIRED_VALID m e) c).map fun e => rd (Reg.MEM_RETIRED_ADDR m e) c
      if bad.elem (alignDown a 0x10000) then (.retired, 0x10000 - a % 0x10000)
      else (.mem spDev a, nextAbove a ext bad)

/-- Where device address `a` leads for owner `o`, and for how many bytes from there on (R33, R36, R148, R699). -/
def regionAt (o a : Nat) (c : Chip) : Dest × Nat :=
  if 2 ^ 62 ≤ a ∧ a < 3 * 2 ^ 62 then hostRegion o (a / 2 ^ 62 - 1) (a % 2 ^ 62) c
  else if 0x10000000000 ≤ a ∧ a < 0x90000000000 then spurRegion o (a / 0x10000000000 - 1) (a % 0x10000000000) c
  else if 0xC000000000 ≤ a ∧ a < 0xE000000000 then windowRegion o a false c
  else if 0xE000000000 ≤ a ∧ a < 0x10000000000 then windowRegion o a true c
  else if (0x4000000000 ≤ a ∧ a < 0xA000000000) ∨ (0xA0000000000 ≤ a ∧ a < 0xC0000000000) then memRegion o a c
  else (.outside, nextAbove a (2 ^ 64) mapEdges)

/-- A piece of a range: where it leads, and its bytes. -/
structure Piece where
  dest : Dest
  len : Nat
deriving DecidableEq, Repr

/-- The pieces of `[a, a + n)` for an owner, in ascending order. -/
def piecesOf (o : Nat) (c : Chip) : Nat → Nat → Nat → List Piece
  | 0, _, n => if n = 0 then [] else [⟨.outside, n⟩]
  | fuel + 1, a, n =>
    if n = 0 then []
    else
      let r := regionAt o (a % 2 ^ 64) c
      let k := max 1 (min n r.2)
      ⟨r.1, k⟩ :: piecesOf o c fuel (a + k) (n - k)

/-- The pieces of a range. -/
def route (o a n : Nat) (c : Chip) : List Piece := piecesOf o c (n / 0x1000 + 8) a n

/-- The destination `k` bytes further on. -/
def Dest.plus (d : Dest) (k : Nat) : Dest :=
  match d with
  | .mem sp a => .mem sp (a + k)
  | .imem n a => .imem n (a + k)
  | .imemAll p a => .imemAll p (a + k)
  | d => d

/-- The first `n` bytes of a list of pieces. -/
def takePieces : Nat → List Piece → List Piece
  | _, [] => []
  | n, p :: t => if n = 0 then [] else if n ≤ p.len then [⟨p.dest, n⟩] else p :: takePieces (n - p.len) t

/-- A write to the piece cannot leave the device (R33, R715): its requester is told. -/
def pieceBlocked (p : Piece) : Bool := p.dest == .outside || p.dest == .blocked

/-- Bytes before the first piece that satisfies `f`; `none` when none does. -/
def bytesBefore (f : Piece → Bool) : List Piece → Option Nat
  | [] => none
  | p :: t => if f p then some 0 else (bytesBefore f t).map (p.len + ·)

/-- The space and address that a piece reads from. -/
def readFrom : Dest → Option (Nat × Nat)
  | .mem sp a => some (sp, a)
  | .imem n a => some (spImem n, a)
  | _ => none

/-- A piece reads poisoned, in part or whole. -/
def piecePoison (p : Piece) (c : Chip) : Bool :=
  match readFrom p.dest with
  | some (sp, a) => anyPoison sp a p.len c
  | none => true

/-- The bytes of a piece; 0 where it is not readable. -/
def pieceBytes (p : Piece) (c : Chip) : List Nat :=
  match readFrom p.dest with
  | some (sp, a) => ldBytes sp a p.len c
  | none => List.replicate p.len 0

/-- The bytes that a range reads, and whether any of them is poisoned (R33). -/
def readRange (o a n : Nat) (c : Chip) : List Nat × Bool :=
  let ps := route o a n c
  (ps.flatMap (pieceBytes · c), ps.any (piecePoison · c))

/-- The instruction memory of core `n` takes a write (R149). -/
def imemTakes (n : Nat) (c : Chip) : Bool :=
  let r := rd (Reg.CC_RUN_STATE n) c
  r == 0 || r == 3 || r == 4 || pageState (0x2000 + n) c == 0

/-- One core's instruction memory updated by `f`, or `IMEM_DROP` (R149). -/
def imemWriteTo (n : Nat) (f : Chip → Chip) (c : Chip) : Chip :=
  if pageState (0x2000 + n) c = 4 then c
  else if imemTakes n c then f c else raise (0x2000 + n) 0x0109 0 c

/-- A destination updated by `f`, which is given the space and address; a dropped or blocked write does nothing. -/
def writeTo (d : Dest) (f : Nat → Nat → Chip → Chip) (c : Chip) : Chip :=
  match d with
  | .mem sp a => f sp a c
  | .imem n a => imemWriteTo n (f (spImem n) a) c
  | .imemAll p a => (poolCores p c).foldl (fun c n => imemWriteTo n (f (spImem n) a) c) c
  | _ => c

/-- One run of `k` bytes from a source place to a destination, with poison kept (R263, R894). -/
def moveRun (src : Dest) (dst : Dest) (k : Nat) (c : Chip) : Chip :=
  writeTo dst (fun sp a c => match readFrom src with
    | some (sps, as) => copyMem sps as sp a k c
    | none => poisonRange sp a k c) c

/-- Bytes moved along two lists of pieces, in ascending order. -/
def movePieces : Nat → List Piece → List Piece → Chip → Chip
  | 0, _, _, c => c
  | _, [], _, c => c
  | _, _, [], c => c
  | fuel + 1, s :: ss, d :: ds, c =>
    let k := min s.len d.len
    let rest := fun (p : Piece) (t : List Piece) => if p.len = k then t else ⟨p.dest.plus k, p.len - k⟩ :: t
    movePieces fuel (rest s ss) (rest d ds) (moveRun s.dest d.dest k c)

/-- `n` bytes moved from `src` to `dst` for an owner (R239). -/
def moveBytes (o src dst n : Nat) (c : Chip) : Chip :=
  let s := route o src n c
  let d := route o dst n c
  movePieces (s.length + d.length) s d c

/-- Bytes written to a device address for an owner; a part it does not reach is dropped (R33). -/
def writePieces : List Piece → List Nat → Chip → Chip
  | [], _, c => c
  | p :: t, bs, c => writePieces t (bs.drop p.len) (writeTo p.dest (fun sp a => put sp a (bs.take p.len)) c)

def writeRange (o a : Nat) (bs : List Nat) (c : Chip) : Chip := writePieces (route o a bs.length c) bs c

/-! ### Structures that carry a `TARGET` code (R699) -/

/-- The device address at which a party's own queue memory lies, for a structure named by its owner code: a host port's
memory for a host-owned or stall-owned structure (R734), device memory for a device block's. -/
def ownerSpace (o : Nat) (c : Chip) : Nat :=
  if o = 0x8000 then spHost 0 else if o = 0x8001 then spHost 1
  else if isStallCode o then spHost (stallHome o c) else spDev

end Sys2Proof.Machine
end

