-- ==== Sys2Proof/Machine/Access.lean ====
section
/-! DEFINITION. What every register command checks before its effect: the guard of the page (R65, R91) and a page that sleeps (R78). -/

namespace Sys2Proof.Machine

/-- A party passes the guard of a page (R65, R91). -/
def guardOk (p : Party) (page : Nat) (c : Chip) : Bool :=
  !rdb (Hdr.GUARDED page) c || holdsSem p (rd (Hdr.SEM page) c) c

/-- An access to a sleeping page: it waits for the wake, or is dropped with code 0x0A when the wake is refused for SPARE,
TRIP or PLL; a read then returns 0 (R78, R799). -/
def holdAccess (p : Party) (page off width : Nat) (w : Option Nat) (c : Chip) : Chip :=
  let d := if inRuleWindow page then pageDomain 0x28 else pageDomain page
  let cause := wakeRefusal d .work c
  if cause = 0 then requestWake d (.access p page off width w) c
  else
    let c := refuse page 0x0A off (recordWakeRefusal d cause c)
    match w with
    | none => emit (.readData p 0) c
    | some _ => c

/-- A register command of a party at an offset of a page: held while the page sleeps (R78), dropped with code 0x07 when the
guard is not passed (R65), else `f`. -/
def regAccess (p : Party) (page off value : Nat) (f : Chip → Chip) (c : Chip) : Chip :=
  if pageState page c = 6 then holdAccess p page off 32 (some value) c
  else if !guardOk p page c then refuse page 0x07 off c
  else f c

end Sys2Proof.Machine
end

