-- ==== Sys2Proof/Machine/Crypto.lean ====
section
/-! DEFINITION. The cryptographic functions that chapter 17 and chapter 20 take from named standards: AES (FIPS 197), GCM (NIST SP 800-38D), XTS (IEEE 1619), SHA-384 (FIPS 180-4) and ECDSA P-384 verification (FIPS 186-5). PRESUMED from those standards, log entry 8; the spec names them and does not restate them. -/

namespace Sys2Proof.Machine

/-! ### AES -/

/-- The AES S-box. -/
def aesSbox : List Nat :=
  ([99, 124, 119, 123, 242, 107, 111, 197, 48, 1, 103, 43, 254, 215, 171, 118, 202, 130, 201, 125, 250, 89, 71, 240, 173, 212, 162, 175, 156, 164, 114, 192] ++
   [183, 253, 147, 38, 54, 63, 247, 204, 52, 165, 229, 241, 113, 216, 49, 21, 4, 199, 35, 195, 24, 150, 5, 154, 7, 18, 128, 226, 235, 39, 178, 117] ++
   [9, 131, 44, 26, 27, 110, 90, 160, 82, 59, 214, 179, 41, 227, 47, 132, 83, 209, 0, 237, 32, 252, 177, 91, 106, 203, 190, 57, 74, 76, 88, 207] ++
   [208, 239, 170, 251, 67, 77, 51, 133, 69, 249, 2, 127, 80, 60, 159, 168, 81, 163, 64, 143, 146, 157, 56, 245, 188, 182, 218, 33, 16, 255, 243, 210] ++
   [205, 12, 19, 236, 95, 151, 68, 23, 196, 167, 126, 61, 100, 93, 25, 115, 96, 129, 79, 220, 34, 42, 144, 136, 70, 238, 184, 20, 222, 94, 11, 219] ++
   [224, 50, 58, 10, 73, 6, 36, 92, 194, 211, 172, 98, 145, 149, 228, 121, 231, 200, 55, 109, 141, 213, 78, 169, 108, 86, 244, 234, 101, 122, 174, 8] ++
   [186, 120, 37, 46, 28, 166, 180, 198, 232, 221, 116, 31, 75, 189, 139, 138, 112, 62, 181, 102, 72, 3, 246, 14, 97, 53, 87, 185, 134, 193, 29, 158] ++
   [225, 248, 152, 17, 105, 217, 142, 148, 155, 30, 135, 233, 206, 85, 40, 223, 140, 161, 137, 13, 191, 230, 66, 104, 65, 153, 45, 15, 176, 84, 187, 22])

/-- A byte through the S-box, and back. -/
def subByte (b : Nat) : Nat := aesSbox.getD b 0
def invSubByte (b : Nat) : Nat := aesSbox.findIdx (fun x => x == b)

/-- Multiplication by x in GF(2^8). -/
def gfDouble (a : Nat) : Nat := if a < 128 then 2 * a else (2 * a) ^^^ 0x11b

/-- Multiplication in GF(2^8) by a factor below 16. -/
def gfTimes (k a : Nat) : Nat :=
  let a2 := gfDouble a
  let a4 := gfDouble a2
  let a8 := gfDouble a4
  (if k.testBit 0 then a else 0) ^^^ (if k.testBit 1 then a2 else 0) ^^^ (if k.testBit 2 then a4 else 0) ^^^ (if k.testBit 3 then a8 else 0)

/-- Exclusive or of two byte lists. -/
def xorBytes (a b : List Nat) : List Nat := List.zipWith (· ^^^ ·) a b

/-- The state after ShiftRows and its inverse: byte 4c + r of column c and row r. -/
def shiftRows (s : List Nat) : List Nat := (List.range 16).map fun i => s.getD ((i + 4 * (i % 4)) % 16) 0
def invShiftRows (s : List Nat) : List Nat := (List.range 16).map fun i => s.getD ((i + 16 - 4 * (i % 4)) % 16) 0

/-- MixColumns with the circulant coefficients `m`. -/
def mixColumns (m : List Nat) (s : List Nat) : List Nat :=
  (List.range 16).map fun i =>
    let c := i / 4 * 4
    (List.range 4).foldl (fun a j => a ^^^ gfTimes (m.getD ((j + 4 - i % 4) % 4) 0) (s.getD (c + j) 0)) 0

/-- The round keys, 16 bytes each: words are generated backwards, newest first. -/
def aesExpand (nk : Nat) : Nat → Nat → Nat → List (List Nat) → List (List Nat)
  | 0, _, _, ws => ws
  | fuel + 1, i, rcon, ws =>
    let t := ws.headD []
    let u := if i % nk = 0 then
        xorBytes ((t.drop 1 ++ t.take 1).map subByte) [rcon, 0, 0, 0]
      else if nk = 8 ∧ i % 8 = 4 then t.map subByte else t
    aesExpand nk fuel (i + 1) (if i % nk = 0 then gfDouble rcon else rcon) (xorBytes (ws.getD (nk - 1) []) u :: ws)

/-- The round keys of a 16 or 32 byte key. -/
def aesKeys (key : List Nat) : List (List Nat) :=
  let nk := key.length / 4
  let w0 := (List.range nk).map fun i => (key.drop (4 * i)).take 4
  let ws := (aesExpand nk (4 * (nk + 7) - nk) nk 1 w0.reverse).reverse
  (List.range (nk + 7)).map fun r => ((ws.drop (4 * r)).take 4).flatten

/-- One AES block encrypted under round keys. -/
def aesEncWith : List (List Nat) → List Nat → List Nat
  | [], s => s
  | [k], s => xorBytes (shiftRows (s.map subByte)) k
  | k :: ks, s => aesEncWith ks (xorBytes (mixColumns [2, 3, 1, 1] (shiftRows (s.map subByte))) k)

/-- AES encryption of one block. -/
def aesEnc (key block : List Nat) : List Nat :=
  match aesKeys key with
  | [] => block
  | k :: ks => aesEncWith ks (xorBytes block k)

/-- The inverse cipher, under round keys in reverse order. -/
def aesDecWith : List (List Nat) → List Nat → List Nat
  | [], s => s
  | [k], s => xorBytes ((invShiftRows s).map invSubByte) k
  | k :: ks, s => aesDecWith ks (mixColumns [14, 11, 13, 9] (xorBytes ((invShiftRows s).map invSubByte) k))

/-- AES decryption of one block. -/
def aesDec (key block : List Nat) : List Nat :=
  match (aesKeys key).reverse with
  | [] => block
  | k :: ks => aesDecWith ks (xorBytes block k)

/-! ### GCM -/

/-- A byte list as a big-endian number, and back. -/
def beNat (b : List Nat) : Nat := leNat b.reverse
def beBytes (n v : Nat) : List Nat := (leBytes n v).reverse

/-- Multiplication in GF(2^128) as GHASH defines it, bit by bit of `x` from its highest. -/
def ghashMul (x : Nat) : Nat → Nat → Nat → Nat
  | 0, _, z => z
  | k + 1, v, z =>
    ghashMul x k (if v % 2 = 1 then (v / 2) ^^^ (0xe1 * 2 ^ 120) else v / 2) (if x.testBit k then z ^^^ v else z)

/-- The 16-byte blocks of a byte list, the last padded with zeros. -/
def blocks16 (b : List Nat) : List (List Nat) :=
  (List.range ((b.length + 15) / 16)).map fun i => let x := (b.drop (16 * i)).take 16; x ++ List.replicate (16 - x.length) 0

/-- GHASH continued over more bytes (padded to whole blocks). -/
def ghash (h acc : Nat) (b : List Nat) : Nat := (blocks16 b).foldl (fun y x => ghashMul (y ^^^ beNat x) 128 h 0) acc

/-- The counter block after one increment of its low 32 bits. -/
def incCtr (b : List Nat) : List Nat := b.take 12 ++ beBytes 4 ((beNat (b.drop 12) + 1) % 2 ^ 32)

/-- Counter mode from the block after `ctr`: the output and the last counter block used. -/
def gctr (keys : List (List Nat)) : List (List Nat) → List Nat → List Nat × List Nat
  | [], ctr => ([], ctr)
  | x :: t, ctr =>
    let c := incCtr ctr
    let e := match keys with
      | [] => c
      | k :: ks => aesEncWith ks (xorBytes c k)
    let r := gctr keys t c
    (xorBytes x e ++ r.1, r.2)

/-- The hash key and the first counter block of a 96-bit IV. -/
def gcmH (key : List Nat) : Nat := beNat (aesEnc key (List.replicate 16 0))
def gcmJ0 (iv : List Nat) : List Nat := iv.take 12 ++ [0, 0, 0, 1]

/-- The tag from the hash of AAD and ciphertext. -/
def gcmTag (key iv : List Nat) (acc aadLen len : Nat) : List Nat :=
  let s := ghashMul (acc ^^^ (aadLen * 8 * 2 ^ 64 + len * 8)) 128 (gcmH key) 0
  xorBytes (beBytes 16 s) (aesEnc key (gcmJ0 iv))

/-- GCM encryption: ciphertext and tag. -/
def gcmEnc (key iv aad data : List Nat) : List Nat × List Nat :=
  let c := ((gctr (aesKeys key) (blocks16 data) (gcmJ0 iv)).1).take data.length
  (c, gcmTag key iv (ghash (gcmH key) (ghash (gcmH key) 0 aad) c) aad.length data.length)

/-- GCM decryption: plaintext, and whether the tag matches. -/
def gcmDec (key iv aad data tag : List Nat) : List Nat × Bool :=
  let p := ((gctr (aesKeys key) (blocks16 data) (gcmJ0 iv)).1).take data.length
  (p, gcmTag key iv (ghash (gcmH key) (ghash (gcmH key) 0 aad) data) aad.length data.length == tag)

/-! ### XTS -/

/-- The next tweak: multiplication by the primitive element, in the byte order of the standard. -/
def xtsNext (t : List Nat) : List Nat :=
  let v := 2 * leNat t
  leBytes 16 (if v < 2 ^ 128 then v else (v - 2 ^ 128) ^^^ 0x87)

/-- Whole blocks through XTS from tweak `t`: the output and the next tweak. -/
def xtsBlocks (dec : Bool) (key1 : List Nat) : List (List Nat) → List Nat → List Nat × List Nat
  | [], t => ([], t)
  | x :: r, t =>
    let y := xorBytes (if dec then aesDec key1 (xorBytes x t) else aesEnc key1 (xorBytes x t)) t
    let q := xtsBlocks dec key1 r (xtsNext t)
    (y ++ q.1, q.2)

/-- The first tweak of a data unit. -/
def xtsTweak (key2 unit : List Nat) : List Nat := aesEnc key2 unit

/-! ### SHA-384 -/

/-- The round constants and the initial hash value. -/
def shaK : List Nat :=
  ([0x428a2f98d728ae22, 0x7137449123ef65cd, 0xb5c0fbcfec4d3b2f, 0xe9b5dba58189dbbc, 0x3956c25bf348b538] ++
   [0x59f111f1b605d019, 0x923f82a4af194f9b, 0xab1c5ed5da6d8118, 0xd807aa98a3030242, 0x12835b0145706fbe] ++
   [0x243185be4ee4b28c, 0x550c7dc3d5ffb4e2, 0x72be5d74f27b896f, 0x80deb1fe3b1696b1, 0x9bdc06a725c71235] ++
   [0xc19bf174cf692694, 0xe49b69c19ef14ad2, 0xefbe4786384f25e3, 0x0fc19dc68b8cd5b5, 0x240ca1cc77ac9c65] ++
   [0x2de92c6f592b0275, 0x4a7484aa6ea6e483, 0x5cb0a9dcbd41fbd4, 0x76f988da831153b5, 0x983e5152ee66dfab] ++
   [0xa831c66d2db43210, 0xb00327c898fb213f, 0xbf597fc7beef0ee4, 0xc6e00bf33da88fc2, 0xd5a79147930aa725] ++
   [0x06ca6351e003826f, 0x142929670a0e6e70, 0x27b70a8546d22ffc, 0x2e1b21385c26c926, 0x4d2c6dfc5ac42aed] ++
   [0x53380d139d95b3df, 0x650a73548baf63de, 0x766a0abb3c77b2a8, 0x81c2c92e47edaee6, 0x92722c851482353b] ++
   [0xa2bfe8a14cf10364, 0xa81a664bbc423001, 0xc24b8b70d0f89791, 0xc76c51a30654be30, 0xd192e819d6ef5218] ++
   [0xd69906245565a910, 0xf40e35855771202a, 0x106aa07032bbd1b8, 0x19a4c116b8d2d0c8, 0x1e376c085141ab53] ++
   [0x2748774cdf8eeb99, 0x34b0bcb5e19b48a8, 0x391c0cb3c5c95a63, 0x4ed8aa4ae3418acb, 0x5b9cca4f7763e373] ++
   [0x682e6ff3d6b2b8a3, 0x748f82ee5defb2fc, 0x78a5636f43172f60, 0x84c87814a1f0ab72, 0x8cc702081a6439ec] ++
   [0x90befffa23631e28, 0xa4506cebde82bde9, 0xbef9a3f7b2c67915, 0xc67178f2e372532b, 0xca273eceea26619c] ++
   [0xd186b8c721c0c207, 0xeada7dd6cde0eb1e, 0xf57d4f7fee6ed178, 0x06f067aa72176fba, 0x0a637dc5a2c898a6] ++
   [0x113f9804bef90dae, 0x1b710b35131c471b, 0x28db77f523047d84, 0x32caab7b40c72493, 0x3c9ebe0a15c9bebc] ++
   [0x431d67c49c100d4c, 0x4cc5d4becb3e42b6, 0x597f299cfc657e2a, 0x5fcb6fab3ad6faec, 0x6c44198c4a475817])

def shaInit : List Nat := [0xcbbb9d5dc1059ed8, 0x629a292a367cd507, 0x9159015a3070dd17, 0x152fecd8f70e5939, 0x67332667ffc00b31, 0x8eb44a8768581511, 0xdb0c2e0d64f98fa7, 0x47b5481dbefa4fa4]

def rotr64 (n v : Nat) : Nat := v / 2 ^ n ||| (v * 2 ^ (64 - n)) % 2 ^ 64

/-- The message schedule, newest word first. -/
def shaExpand : Nat → List Nat → List Nat
  | 0, w => w
  | n + 1, w =>
    let a := w.getD 14 0
    let b := w.getD 1 0
    let s0 := rotr64 1 a ^^^ rotr64 8 a ^^^ (a / 2 ^ 7)
    let s1 := rotr64 19 b ^^^ rotr64 61 b ^^^ (b / 2 ^ 6)
    shaExpand n ((w.getD 15 0 + s0 + w.getD 6 0 + s1) % 2 ^ 64 :: w)

/-- One round on (a, …, h). -/
def shaRound (s : List Nat) (kw : Nat × Nat) : List Nat :=
  match s with
  | [a, b, c, d, e, f, g, h] =>
    let s1 := rotr64 14 e ^^^ rotr64 18 e ^^^ rotr64 41 e
    let ch := (e &&& f) ^^^ ((2 ^ 64 - 1 - e) &&& g)
    let t1 := h + s1 + ch + kw.1 + kw.2
    let s0 := rotr64 28 a ^^^ rotr64 34 a ^^^ rotr64 39 a
    let mj := (a &&& b) ^^^ (a &&& c) ^^^ (b &&& c)
    [(t1 + s0 + mj) % 2 ^ 64, a, b, c, (d + t1) % 2 ^ 64, e, f, g]
  | _ => s

/-- One 128-byte block. -/
def shaBlock (h : List Nat) (b : List Nat) : List Nat :=
  let w0 := (List.range 16).map fun i => beNat ((b.drop (8 * i)).take 8)
  let w := (shaExpand 64 w0.reverse).reverse
  List.zipWith (fun x y => (x + y) % 2 ^ 64) h ((shaK.zip w).foldl shaRound h)

/-- SHA-384 of a byte string. -/
def sha384 (m : List Nat) : Nat :=
  let p := m ++ [0x80] ++ List.replicate ((239 - m.length % 128) % 128) 0 ++ beBytes 16 (8 * m.length)
  let h := (List.range (p.length / 128)).foldl (fun h i => shaBlock h ((p.drop (128 * i)).take 128)) shaInit
  beNat ((h.take 6).flatMap (beBytes 8))

/-! ### ECDSA over P-384 -/

def p384P : Nat := 2 ^ 384 - 2 ^ 128 - 2 ^ 96 + 2 ^ 32 - 1
def p384N : Nat := 0xffffffffffffffffffffffffffffffffffffffffffffffffc7634d81f4372ddf581a0db248b0a77aecec196accc52973
def p384B : Nat := 0xb3312fa7e23ee7e4988e056be3f82d19181d9c6efe8141120314088f5013875ac656398d8a2ed19d2a85c8edd3ec2aef
def p384Gx : Nat := 0xaa87ca22be8b05378eb1c71ef320ad746e1d3b628ba79b9859f741e082542a385502f25dbf55296c3a545e3872760ab7
def p384Gy : Nat := 0x3617de4a96262c6f5d9e98bf9292dc29f8f41dbd289a147ce9da3113b5f0b8c00a60b1ce1d7e819d7a431d7c90ea0e5f

/-- `b` to the power `e` modulo `m`. -/
def powMod (m : Nat) : Nat → Nat → Nat → Nat → Nat
  | 0, _, _, r => r
  | fuel + 1, b, e, r => if e = 0 then r else powMod m fuel (b * b % m) (e / 2) (if e % 2 = 1 then r * b % m else r)

/-- The inverse modulo a prime. -/
def invMod (m a : Nat) : Nat := powMod m 400 (a % m) (m - 2) 1

/-- Addition of affine points; `none` is the point at infinity. -/
def p384Add : Option (Nat × Nat) → Option (Nat × Nat) → Option (Nat × Nat)
  | none, q => q
  | p, none => p
  | some (x1, y1), some (x2, y2) =>
    if x1 = x2 ∧ (y1 + y2) % p384P = 0 then none
    else
      let l := if x1 = x2 then 3 * (x1 * x1 + p384P - 1) % p384P * invMod p384P (2 * y1) % p384P
        else (y2 + p384P - y1) * invMod p384P (x2 + p384P - x1) % p384P
      let x3 := (l * l + 2 * p384P - x1 - x2) % p384P
      some (x3, (l * (x1 + p384P - x3) + p384P - y1) % p384P)

/-- A multiple of a point. -/
def p384Mul : Nat → Nat → Option (Nat × Nat) → Option (Nat × Nat) → Option (Nat × Nat)
  | 0, _, _, r => r
  | fuel + 1, k, q, r => if k = 0 then r else p384Mul fuel (k / 2) (p384Add q q) (if k % 2 = 1 then p384Add r q else r)

/-- The point lies on the curve. -/
def p384On (x y : Nat) : Bool :=
  decide (x < p384P) && decide (y < p384P) && (y * y) % p384P == (x * x * x + (p384P - 3) * x + p384B) % p384P

/-- An ECDSA signature (r, s) over a digest verifies under a public key (x, y); each pair is one 96-byte big-endian number. -/
def ecdsaVerify (pub sig digest : Nat) : Bool :=
  let x := pub / 2 ^ 384
  let y := pub % 2 ^ 384
  let r := sig / 2 ^ 384
  let s := sig % 2 ^ 384
  if !p384On x y || r == 0 || s == 0 || decide (p384N ≤ r) || decide (p384N ≤ s) then false
  else
    let w := invMod p384N s
    let u := p384Mul 400 (digest * w % p384N) (some (p384Gx, p384Gy)) none
    match p384Add u (p384Mul 400 (r * w % p384N) (some (x, y)) none) with
    | none => false
    | some (x3, _) => x3 % p384N == r

end Sys2Proof.Machine
end

