-- ==== Sys2Proof/Machine/Cipher.lean ====
section
/-! DEFINITION. The cipher engine (chapter 17): key pages and slots, CIPHER SUBMIT descriptors, alarms. -/

namespace Sys2Proof.Machine

/-! ### Slots -/

/-- Page of key page `n`. -/
def keyPage (n : Nat) : Nat := 0x1000 + n

/-- The four state bits of slot `s` (`SLOT_STATE`): the type in [1:0], `EXHAUSTED` in [2]. -/
def slotState (n s : Nat) (c : Chip) : Nat := bits (rd (Reg.KEY_SLOT_STATE n) c) (4 * s + 3) (4 * s)
def setSlotState (n s v : Nat) (c : Chip) : Chip :=
  wr (Reg.KEY_SLOT_STATE n) (setBits (rd (Reg.KEY_SLOT_STATE n) c) (4 * s) 4 v) c
def slotType (n s : Nat) (c : Chip) : Nat := slotState n s c % 4
def slotExhausted (n s : Nat) (c : Chip) : Bool := (slotState n s c).testBit 2

/-- The key bytes in a slot. -/
def slotKey (n s : Nat) (c : Chip) : List Nat := mapGet [] c.keys (8 * n + s)

/-- `KEY_GEN` of a slot. -/
def slotGen (n s : Nat) (c : Chip) : Nat := bits (rd (Reg.KEY_KEY_GEN n) c) (8 * s + 7) (8 * s)

/-- One slot made EMPTY. -/
def keyErase (n s : Nat) (c : Chip) : Chip :=
  setSlotState n s 0 { c with keys := mapPut [] c.keys (8 * n + s) [], keyTx := setDel c.keyTx (8 * n + s) }

/-- Every slot of a page made EMPTY: entry to OFF (R672). -/
def keyErasePage (n : Nat) (c : Chip) : Chip := (List.range 8).foldl (fun c s => keyErase n s c) c

/-- Every slot of every page that an owner code holds made EMPTY (R672: FLR of PF0, removal of a stall). -/
def keyEraseOwner (o : Nat) (c : Chip) : Chip :=
  (List.range 256).foldl (fun c n => if rd (Reg.KEY_OWNER n) c = o then keyErasePage n c else c) c

/-- `EXHAUSTED` set on a slot, with its error (R674, R676, R689). -/
def keyExhaust (n s : Nat) (c : Chip) : Chip :=
  raise 0x88 0x1004 0 (setSlotState n s (slotState n s c ||| 4) c)

/-- Every slot that has served Ahnam as `TX_SLOT` exhausted: AHN enters OFF (R676). -/
def keyExhaustTx (c : Chip) : Chip :=
  c.keyTx.foldl (fun c k => if slotExhausted (k / 8) (k % 8) c then c else keyExhaust (k / 8) (k % 8) c) { c with keyTx := [] }

/-- The slot refuses an invocation (R674). -/
def keyRefuses (n s : Nat) (c : Chip) : Bool :=
  slotExhausted n s c || decide (rd (Reg.KEY_USE_LIMIT n) c ≤ rd (Reg.KEY_USES n s) c)

/-- One invocation counted; the slot is `EXHAUSTED` at `USE_LIMIT` (R674). -/
def keyUse (n s : Nat) (c : Chip) : Chip :=
  let c := bump (Reg.KEY_USES n s) 1 c
  if rd (Reg.KEY_USE_LIMIT n) c ≤ rd (Reg.KEY_USES n s) c then keyExhaust n s c else c

/-- An invocation refused, counted. -/
def keyRefused (c : Chip) : Chip := bump (Reg.CPH_CTR 4) 1 c

/-! ### Register commands -/

/-- An owner code of a service image (R668). -/
def isServiceCode (o : Nat) : Bool := decide (0xB000 ≤ o) && decide (o ≤ 0xB0FF)

/-- An owner that R668 defines. -/
def keyOwnerOk (o : Nat) : Bool :=
  isStallCode o || o == 0x8000 || o == 0x8001 || isBlockCode o || o == 0xA000 || isServiceCode o

/-- The party is the path of the page's owner (R669). -/
def keyOwns (p : Party) (n : Nat) (c : Chip) : Bool :=
  let o := rd (Reg.KEY_OWNER n) c
  match p with
  | .host h => o == 0x8000 + h.val
  | .wayside _ => isControl p c && (isStallCode o || isServiceCode o)
  | .steward => o == 0xA000
  | _ => false

/-- The party may write `BLK_CTRL` of a key page (R670). -/
def keyCtrlOk (p : Party) (n : Nat) (c : Chip) : Bool :=
  rd (Reg.KEY_OWNER n) c == 0xFFFF || keyOwns p n c || isSteward p

/-- The writer's `KEY_DATA` bytes. -/
def keyData (b n : Nat) (c : Chip) : List Nat := (List.range 64).map fun k => rdB b (Reg.KEY_KEY_DATA n k) c

/-- The writer's `KEY_DATA` bank zeroed (R673). -/
def keyDataZero (b n : Nat) (c : Chip) : Chip := (List.range 64).foldl (fun c k => wrB b (Reg.KEY_KEY_DATA n k) 0 c) c

/-- Key bytes of a slot type (R673). -/
def keyLen (ty : Nat) : Nat := if ty = 1 then 16 else if ty = 2 then 32 else 64

/-- `LD_RESULT` of a load of bank bytes `kd` with the dword `v` (R673, R687). -/
def keyLoadCode (v : Nat) (kd : List Nat) (c : Chip) : Nat :=
  if rdb Reg.CPH_ALARM_LATCH c then 5
  else if bit v 3 || bits v 30 6 != 0 then 4
  else if bits v 5 4 = 3 ∧ kd.take 32 = kd.drop 32 then 3
  else 0

/-- `LD_GO` written by the owner (R673): type 0 erases the slot, another type loads it. -/
def keyLoadGo (p : Party) (n v : Nat) (c : Chip) : Chip :=
  let b := (bankOf p c).getD 0
  let s := bits v 2 0
  let ty := bits v 5 4
  let kd := keyData b n c
  let code := keyLoadCode v kd c
  let c := wr (Reg.KEY_LD_RESULT n) code c
  if ty = 0 then (if code = 0 then keyErase n s c else c)
  else
    let c := keyDataZero b n c
    if code ≠ 0 then c
    else
      let c := setSlotState n s ty { c with keys := mapPut [] c.keys (8 * n + s) (kd.take (keyLen ty))
                                            keyTx := setDel c.keyTx (8 * n + s) }
      wr (Reg.KEY_USES n s) 0 (wr (Reg.KEY_KEY_GEN n) (setBits (rd (Reg.KEY_KEY_GEN n) c) (8 * s) 8 (slotGen n s c + 1)) c)

/-- A write of the load register (R669, R673). -/
def keyLoadWrite (p : Party) (n v : Nat) : Chip → Chip :=
  regAccess p (keyPage n) 0x110 v fun c =>
    if !keyOwns p n c then refuse (keyPage n) 0x03 0x110 c
    else if bit v 31 then keyLoadGo p n v c else c

/-- KEY_LOAD: `LD_GO` with a slot type. -/
def execKeyLoad (p : Party) (n : Fin 256) (value : Nat) : State → Host.Outcome State Fault Refusal :=
  onChip (keyLoadWrite p n.val (value ||| 2 ^ 31))

/-- KEY_ERASE: `LD_GO` with `LD_TYPE` 0. -/
def execKeyErase (p : Party) (n : Fin 256) (value : Nat) : State → Host.Outcome State Fault Refusal :=
  onChip (keyLoadWrite p n.val (setBits (value ||| 2 ^ 31) 4 2 0))

/-- The party may write `owner` into `OWNER` (R670). -/
def keyOwnerBy (p : Party) (owner : Nat) (c : Chip) : Bool :=
  match p with
  | .host _ => holdsSem p 0 c
  | .steward => true
  | .wayside _ => isControl p c && (isStallCode owner || isServiceCode owner)
  | _ => false

/-- A write of `OWNER` of a key page (R670). -/
def keyOwnerWrite (p : Party) (n owner : Nat) : Chip → Chip :=
  regAccess p (keyPage n) 0x100 owner fun c =>
    if keyOwnerBy p owner c && !rdb (Hdr.EN (keyPage n)) c then wr (Reg.KEY_OWNER n) owner c
    else refuse (keyPage n) 0x03 0x100 c

/-- KEY_OWNER_WRITE. -/
def execKeyOwnerWrite (p : Party) (n : Fin 256) (owner : Nat) : State → Host.Outcome State Fault Refusal :=
  onChip (keyOwnerWrite p n.val (owner % 2 ^ 16))

/-! ### Alarms -/

/-- The bit of a source in `ALARM_CAUSE`; CMD is 4. -/
def alarmBit : AlarmSource → Nat
  | .volt => 0 | .clk => 1 | .temp => 2 | .mesh => 3

/-- A register key belongs to `KEY_DATA` (any bank) or `SLOT_STATE` of a key page. -/
def isKeyReg (k : Nat) : Bool :=
  let d := k % 2 ^ 48 / 128
  let off := d % 0x1000
  decide (0x1000 ≤ d / 0x1000) && decide (d / 0x1000 < 0x1100) &&
    ((decide (0x140 ≤ off) && decide (off < 0x180)) || decide (off = 0x108))

/-- A cipher alarm (R686, R689): every key and every `KEY_DATA` bank zeroed, every slot EMPTY, the latch set. -/
def cipherAlarm (src : Nat) (c : Chip) : Chip :=
  let c := { c with keys := [], keyTx := [], regs := c.regs.filter fun e => !isKeyReg e.1 }
  let c := wr Reg.CPH_ALARM_CAUSE (rd Reg.CPH_ALARM_CAUSE c ||| 2 ^ src) (wr Reg.CPH_ALARM_LATCH 1 c)
  let c := bump (Reg.CPH_CTR 5) 1 (wr Reg.CPH_ALARM_TIME (now c) c)
  if src = 3 then raiseFatal 0x88 0x1002 1 c else raise 0x88 0x1001 2 c

/-- `ALARM_CLEAR` written (R688); `quiet` says that every source but CMD has been inactive for 1 ms. -/
def alarmClearWrite (p : Party) (quiet : Bool) : Chip → Chip :=
  regAccess p 0x88 0x104 1 fun c =>
    if !isSteward p then refuse 0x88 0x03 0x104 c
    else if !quiet then refuse 0x88 0x23 0x104 c
    else wr Reg.CPH_ALARM_CAUSE 0 (wr Reg.CPH_ALARM_LATCH 0 c)

/-- ALARM_CLEAR. -/
def execAlarmClear (p : Party) (quiet : Bool) : State → Host.Outcome State Fault Refusal :=
  onChip (alarmClearWrite p quiet)

/-! ### CIPHER SUBMIT -/

/-- A buffer of a descriptor through the MMU, page by page: each part's place, `none` where it reads poison or drops its
writes (R33); or the trap. -/
inductive CphBuf
  | ok (k : CoreSt) (parts : List (Option (Nat × Nat) × Nat))
  | trap (cause val : Nat)
deriving DecidableEq, Repr

/-- One page of a buffer. -/
def cphPart (i : CoreId) (kind : MemKind) (c : Chip) (k : CoreSt) (a m : Nat) : CphBuf :=
  match locate i k kind a m c with
  | .at k ps => .ok k (ps.map fun p => (some (p.1, p.2.1), p.2.2))
  | .dropped k => .ok k [(none, m)]
  | .trap t v => if t = 4 then .ok k [(none, m)] else .trap t v

/-- A buffer. -/
def cphPlace (i : CoreId) (kind : MemKind) (c : Chip) : Nat → CoreSt → Nat → Nat → CphBuf
  | 0, k, _, _ => .ok k []
  | fuel + 1, k, a, n =>
    if n = 0 then .ok k []
    else
      let m := min n (4096 - a % 4096)
      match cphPart i kind c k a m with
      | .trap t v => .trap t v
      | .ok k ps => match cphPlace i kind c fuel k (a + m) (n - m) with
        | .trap t v => .trap t v
        | .ok k qs => .ok k (ps ++ qs)

/-- Several buffers, in order: (kind, address, bytes). -/
def cphPlaces (i : CoreId) (c : Chip) : List (MemKind × Nat × Nat) → CoreSt → List (List (Option (Nat × Nat) × Nat)) →
    (CoreSt × List (List (Option (Nat × Nat) × Nat))) ⊕ (Nat × Nat)
  | [], k, acc => .inl (k, acc.reverse)
  | (kind, a, n) :: t, k, acc =>
    match cphPlace i kind c (n / 4096 + 2) k a n with
    | .trap u v => .inr (u, v)
    | .ok k ps => cphPlaces i c t k (ps :: acc)

/-- The bytes that a buffer reads, up to its first poisoned line; and whether it met one. -/
def cphRead (c : Chip) : List (Option (Nat × Nat) × Nat) → List Nat × Bool
  | [] => ([], false)
  | (none, n) :: _ => ([], decide (n ≠ 0))
  | (some (sp, a), n) :: t =>
    match (List.range (n / 64 + 2)).find? fun j => decide (alignDown a 64 + 64 * j < a + n) && anyPoison sp (alignDown a 64 + 64 * j) 64 c with
    | some j => (ldBytes sp a (alignDown a 64 + 64 * j - a) c, true)
    | none => let r := cphRead c t; (ldBytes sp a n c ++ r.1, r.2)

/-- Bytes written to a buffer. -/
def cphWrite : List (Option (Nat × Nat) × Nat) → List Nat → Chip → Chip
  | [], _, c => c
  | (none, n) :: t, bs, c => cphWrite t (bs.drop n) c
  | (some (sp, a), n) :: t, bs, c => cphWrite t (bs.drop n) (put sp a (bs.take n) c)

/-- A CIPHER SUBMIT descriptor (R679). -/
structure CphDesc where
  op : Nat
  first : Bool
  last : Bool
  slot : Nat
  page : Nat
  aadLen : Nat
  len : Nat
  src : Nat
  dst : Nat
  aad : Nat
  state : Nat
  tag : Nat
  iv : List Nat
  bad : Bool
deriving DecidableEq, Repr

/-- The descriptor of 64 bytes, with `bad` for a breach of R679 and R680. -/
def cphParse (b : List Nat) : CphDesc :=
  let q := leNat b
  let f := fun off hi lo => bits q (8 * off + hi) (8 * off + lo)
  let gcm := decide (f 0 2 0 < 2)
  let first := f 0 3 3 == 1
  let last := f 0 4 4 == 1
  let len := f 4 24 0
  { op := f 0 2 0, first := first, last := last, slot := f 0 7 5, page := f 0 15 8, aadLen := f 0 28 16, len := len,
    src := f 8 63 0, dst := f 0x10 63 0, aad := f 0x18 63 0, state := f 0x20 63 0, tag := f 0x28 63 0,
    iv := (b.drop 0x30).take 16,
    bad := decide (4 ≤ f 0 2 0) || f 0 31 29 != 0 || f 4 31 25 != 0 || len % 16 != 0 || decide (2 ^ 24 < len) ||
      decide (4096 < f 0 28 16) || (f 0 28 16 != 0 && !(gcm && first)) || f 0x20 5 0 != 0 ||
      (f 0x20 63 0 == 0 && !(first && last)) || (gcm && f 0x3C 31 0 != 0) ||
      (f 8 63 0 != f 0x10 63 0 && overlaps (f 8 63 0) len (f 0x10 63 0) len) }

/-- The descriptor is GCM, and encrypts. -/
def cphGcm (d : CphDesc) : Bool := decide (d.op < 2)
def cphEnc (d : CphDesc) : Bool := decide (d.op % 2 = 0)

/-- The buffers of a descriptor: source, AAD, state read, tag read; destination, state written, tag written. -/
def cphBufs (d : CphDesc) : List (MemKind × Nat × Nat) :=
  [(.load, d.src, d.len), (.load, d.aad, d.aadLen), (.load, d.state, if d.first then 0 else 64),
   (.load, d.tag, if cphGcm d && d.last && !cphEnc d then 16 else 0), (.store, d.dst, d.len),
   (.store, d.state, if d.last then 0 else 64), (.store, d.tag, if cphGcm d && d.last && cphEnc d then 16 else 0)]

/-- The slot fits the operation (R684). -/
def cphFits (d : CphDesc) (ty : Nat) : Bool := if cphGcm d then ty == 1 || ty == 2 else ty == 3

/-- The running values of a message (R681): GHASH accumulator or tweak, GCM counter block, bytes processed, `AAD_LEN`,
key generation, and the key's place and operation. -/
structure CphState where
  acc : List Nat
  ctr : List Nat
  done : Nat
  aadLen : Nat
  gen : Nat
  ident : Nat
deriving DecidableEq, Repr

/-- The saved state read (R681). -/
def cphLoad (b : List Nat) : CphState :=
  { acc := b.take 16, ctr := (b.drop 16).take 16, done := leNat ((b.drop 0x20).take 8), aadLen := leNat ((b.drop 0x28).take 8),
    gen := b.getD 0x30 0, ident := leNat ((b.drop 0x31).take 2) }

/-- The saved state written (R681). -/
def cphSave (s : CphState) : List Nat :=
  s.acc ++ s.ctr ++ leBytes 8 s.done ++ leBytes 8 s.aadLen ++ leBytes 8 (s.gen + s.ident * 2 ^ 8) ++ List.replicate 8 0

/-- `KEY_PAGE`, `KEY_SLOT` and `OP` as the state holds them. -/
def cphIdent (d : CphDesc) : Nat := d.page + d.slot * 2 ^ 8 + d.op * 2 ^ 12

/-- The running values at a message's start. -/
def cphBegin (d : CphDesc) (key aad : List Nat) (gen : Nat) : CphState :=
  if cphGcm d then
    { acc := beBytes 16 (ghash (gcmH key) 0 aad), ctr := gcmJ0 d.iv, done := 0, aadLen := d.aadLen, gen := gen, ident := cphIdent d }
  else
    { acc := xtsTweak (key.drop 32) d.iv, ctr := List.replicate 16 0, done := 0, aadLen := 0, gen := gen, ident := cphIdent d }

/-- Whole blocks processed: the output and the running values after it. -/
def cphRun (d : CphDesc) (key bs : List Nat) (s : CphState) : List Nat × CphState :=
  if cphGcm d then
    let r := gctr (aesKeys key) (blocks16 bs) s.ctr
    let ct := if cphEnc d then r.1 else bs
    (r.1, { s with acc := beBytes 16 (ghash (gcmH key) (beNat s.acc) ct), ctr := r.2, done := s.done + bs.length })
  else
    let r := xtsBlocks (!cphEnc d) (key.take 32) (blocks16 bs) s.acc
    (r.1, { s with acc := r.2, done := s.done + bs.length })

/-- The message exceeds the limit of its mode (R682). -/
def cphOver (d : CphDesc) (s : CphState) : Bool :=
  if cphGcm d then decide (2 ^ 36 - 32 < s.done + d.len) else decide (2 ^ 24 < s.done + d.len)

/-- The tag of a GCM message (R680: over the padded ciphertext). -/
def cphTag (d : CphDesc) (key : List Nat) (s : CphState) : List Nat := gcmTag key d.iv (beNat s.acc) s.aadLen s.done

/-- A descriptor begun and refused: `status`, no byte processed. -/
def cphEnd (status processed : Nat) (c : Chip) : Nat × Chip := (status + processed * 2 ^ 32, c)

/-- Unspecified plaintext (R683): free values. -/
def freeBytes (n : Nat) (c : Chip) : List Nat := (List.range n).map fun i => (Config.freeValue (c.free + i)).toNat % 256

/-- The work of a descriptor that passed its checks: DN and the chip (R674, R681–R684). -/
def cphWork (d : CphDesc) (bufs : List (List (Option (Nat × Nat) × Nat))) (key : List Nat) (c : Chip) : Nat × Chip :=
  let buf := fun j => bufs.getD j []
  let src := cphRead c (buf 0)
  let aad := cphRead c (buf 1)
  let sav := cphRead c (buf 2)
  let tag := cphRead c (buf 3)
  let s := if d.first then cphBegin d key aad.1 (slotGen d.page d.slot c) else cphLoad sav.1
  if !d.first && s.ident % 2 ^ 15 != cphIdent d then cphEnd 1 0 c
  else if !d.first && s.gen != slotGen d.page d.slot c then cphEnd 6 0 c
  else if cphOver d s then cphEnd 7 0 c
  else
    let c := if cphGcm d && !d.first then c else keyUse d.page d.slot c
    if aad.2 || sav.2 || tag.2 then cphEnd 9 0 c
    else
      let bs := src.1.take (alignDown (min src.1.length d.len) 16)
      let r := cphRun d key bs s
      let c := cphWrite (buf 4) r.1 (bump (Reg.CPH_CTR (if cphEnc d then 0 else 1)) bs.length c)
      if src.2 then cphEnd 9 bs.length c
      else if !d.last then cphEnd 0 d.len (cphWrite (buf 5) (cphSave r.2) c)
      else if cphGcm d && cphEnc d then cphEnd 0 d.len (cphWrite (buf 6) (cphTag d key r.2) c)
      else if cphGcm d && !(tag.1 == cphTag d key r.2) then
        let c := cphWrite (buf 4) (freeBytes d.len c) c
        cphEnd 5 d.len (raise 0x88 0x1003 0 (bump (Reg.CPH_CTR 2) 1 { c with free := c.free + d.len }))
      else cphEnd 0 d.len c

/-- The status checks in the order of R684's table, then the work. `image` is the issuing service's. -/
def cphChecked (d : CphDesc) (image : Nat) (bufs : List (List (Option (Nat × Nat) × Nat))) (c : Chip) : Nat × Chip :=
  let c := bump (Reg.CPH_CTR 3) 1 c
  if rdb Reg.CPH_ALARM_LATCH c then cphEnd 8 0 c
  else if rd (Reg.KEY_OWNER d.page) c ≠ 0xB000 + image then cphEnd 2 0 c
  else if !cphFits d (slotType d.page d.slot c) then cphEnd 3 0 c
  else if !(cphGcm d && !d.first) && keyRefuses d.page d.slot c then cphEnd 4 0 (keyRefused c)
  else cphWork d bufs (slotKey d.page d.slot c) c

/-- CIPHER SUBMIT on a Wayside core (R189, R227, R234, R684): an odd DN or `SUB` not 0 is illegal; on another core cause
0x02. -/
def cipherSubmit (i : CoreId) (sub : BitVec 6) (dn : Fin 16) (g : Bool) : Chip → Chip :=
  let w := encX 0x3D sub dn g
  runInstr i w fun k c =>
    match i with
    | .wayside wn =>
      if dn.val % 2 = 1 ∨ sub ≠ 0 then illegal w
      else
        let da := (opPtrs k g).getD 0 0
        let fin := fun (k : CoreSt) (r : Nat × Chip) =>
          IRes.ok (setV (setV k dn.val (BitVec.ofNat 64 r.1)) (dn.val + 1) 0) r.2 none 1
        match cphPlaces i c [(.load, da, 64)] k [] with
        | .inr (t, v) => .trap t v
        | .inl (k, db) =>
          let b := cphRead c (db.getD 0 [])
          if b.2 then .trap 0x04 (alignDown da 64)
          else
            let d := cphParse b.1
            if d.bad || da % 64 != 0 then fin k (cphEnd 1 0 (bump (Reg.CPH_CTR 3) 1 c))
            else match cphPlaces i c (cphBufs d) k [] with
              | .inr (t, v) => .trap t v
              | .inl (k, bufs) => fin k (cphChecked d ((imageOf wn.val c).getD 0) bufs c)
    | _ => .trap 0x02 w

/-- CIPHER_SUBMIT. -/
def execCipherSubmit (i : CoreId) (sub : BitVec 6) (dn : Fin 16) (g : Bool) : State → Host.Outcome State Fault Refusal :=
  onChip (cipherSubmit i sub dn g)

end Sys2Proof.Machine
end

