-- ==== Sys2Proof/Machine/Waymark.lean ====
section
/-! DEFINITION. The Waymark contexts of the WMK page (R559–R564): their commands, and the additions that Movers, COL and Layby make. -/

namespace Sys2Proof.Machine

/-- Context `i`; those from 0xFF00 up belong to Layby (chapter 13). -/
def wmkGet (i : Nat) (c : Chip) : WmkCtx :=
  let x := mapGet WmkCtx.free c.wmk i
  if 0xFF00 ≤ i then { x with owner := 0x9008 } else x

/-- Context `i` replaced; the owner of a Layby context is not stored. -/
def wmkSet (i : Nat) (x : WmkCtx) (c : Chip) : Chip :=
  { c with wmk := mapPut WmkCtx.free c.wmk i (if 0xFF00 ≤ i then { x with owner := 0xFFFF } else x) }

/-- What a context command ends with, and the context it leaves (R561). -/
def wmkRun (cmd i owner : Nat) (x : WmkCtx) : Nat × WmkCtx :=
  if cmd = 3 then (0x04, x)
  else if 0xFF00 ≤ i then (0x03, x)
  else if cmd = 0 then
    if x.owner = 0xFFFF then (0x00, { x with owner := owner, spoiled := false, sum0 := 0, sum1 := 0, adds := 0 }) else (0x02, x)
  else if x.owner ≠ owner then (0x01, x)
  else if cmd = 1 then (0x00, { x with spoiled := false, sum0 := 0, sum1 := 0, adds := 0 })
  else (0x00, WmkCtx.free)

/-- A context command run for an owner code on context `i` (R561); answers its result. -/
def wmkDo (cmd i owner : Nat) (c : Chip) : Nat × Chip :=
  let r := wmkRun cmd i owner (wmkGet i c)
  (r.1, if r.1 = 0 then wmkSet i r.2 c else c)

/-- A write of `CTX_GO` by a party: the command on its own `CTX_SEL`, the result in its own `CTX_RESULT` (R50, R561). A
party without a copy of the banked registers is refused with 0x03 (log entry 18). -/
def wmkCommand (cmd : Nat) (p : Party) : Chip → Chip :=
  regAccess p 0x79 0x104 (cmd + 2 ^ 31) fun c => match bankOf p c with
  | none => refuse 0x79 0x03 0x104 c
  | some b =>
    let r := wmkDo cmd (rdB b Reg.WMK_CTX_SEL c) (ownerCode p c) c
    wrB b Reg.WMK_CTX_RESULT r.1 r.2

/-- Every context of an owner released (R719, R752). -/
def wmkReleaseOwner (owner : Nat) (c : Chip) : Chip := { c with wmk := c.wmk.filter fun e => e.2.owner != owner }

/-- Digest sums added to a context in one addition (R560). -/
def wmkAdd (i d0 d1 : Nat) (c : Chip) : Chip :=
  let x := wmkGet i c
  wmkSet i { x with sum0 := (x.sum0 + d0) % 2 ^ 64, sum1 := (x.sum1 + d1) % 2 ^ 64, adds := (x.adds + 1) % 2 ^ 64 } c

/-- An addition not made: the context is spoiled and WMK records `CTX_REFUSED` or `POISON` (R562, R564). -/
def wmkRefuse (i : Nat) (poison : Bool) (c : Chip) : Chip :=
  let c := wmkSet i { wmkGet i c with spoiled := true } c
  if poison then raise 0x79 0x0B02 2 c else raise 0x79 0x0B01 0 c

/-- The storage unit of a format in bytes (R559). -/
def wmkUnit (f : Nat) : Nat :=
  if isMx f then 1
  else match elemBits f with
    | 32 => 4 | 16 => 2 | 6 => 3 | _ => 1

/-- Elements that `n` bytes of a format hold. -/
def elemsIn (f n : Nat) : Nat :=
  match elemBits f with
  | 32 => n / 4 | 16 => n / 2 | 6 => n / 3 * 4 | 4 => n * 2 | _ => n

/-- The digest of `n` bytes in passing: elements, or scale bytes for an MX format (R559). -/
def digestBytes (f seed first n : Nat) (byte : Nat → Nat) : Nat :=
  if isMx f then digestScales seed first n byte else digestElems f seed first (elemsIn f n) byte

/-- The digest of `n` bytes added for a descriptor's owner, or refused (R560, R562). -/
def wmkPass (ctx fmt owner first n : Nat) (poisoned : Bool) (byte : Nat → Nat) (c : Chip) : Chip :=
  let x := wmkGet ctx c
  if x.owner ≠ owner ∨ fmt = 0xF ∨ n % wmkUnit fmt ≠ 0 then wmkRefuse ctx false c
  else if poisoned then wmkRefuse ctx true c
  else wmkAdd ctx (digestBytes fmt x.seed0 first n byte) (digestBytes fmt x.seed1 first n byte) c

/-! ### Meanings -/

/-- CLAIM (R561). -/
def execClaim (p : Party) : State → Host.Outcome State Fault Refusal := onChip (wmkCommand 0 p)
/-- CLEAR (R561, R563). -/
def execClear (p : Party) : State → Host.Outcome State Fault Refusal := onChip (wmkCommand 1 p)
/-- RELEASE (R561). -/
def execRelease (p : Party) : State → Host.Outcome State Fault Refusal := onChip (wmkCommand 2 p)
/-- CTX_CMD_RESERVED: code 3 changes nothing and fails with 0x04 (R561). -/
def execCtxCmdReserved (p : Party) : State → Host.Outcome State Fault Refusal := onChip (wmkCommand 3 p)

end Sys2Proof.Machine
end

