-- ==== Sys2Proof/Machine/Movers.lean ====
section
/-! DEFINITION. The Movers (chapter 06): descriptors, channels, completion, abort, reset. A descriptor's bytes move when it finishes, or up to the byte named by the command that aborts it. -/

namespace Sys2Proof.Machine

/-- The page of engine `e` (R235). -/
def movPage (e : Nat) : Nat := 0x50 + e

/-- The key of a channel. -/
def movKey (e ch : Nat) : Nat := e * 64 + ch

/-- The running descriptor of a channel. -/
def movRunOf (e ch : Nat) (c : Chip) : Option MovRun := mapGet none c.movRun (movKey e ch)

def movSetRun (e ch : Nat) (r : Option MovRun) (c : Chip) : Chip :=
  { c with movRun := mapPut none c.movRun (movKey e ch) r }

/-- `CH_STATE` with its bits in `ACTIVE` and `ABORTED`. -/
def movState (e ch s : Nat) (c : Chip) : Chip :=
  let c := wr (Reg.MOV_CH_STATE e ch) s c
  let c := wr (Reg.MOV_ACTIVE e) (setBits (rd (Reg.MOV_ACTIVE e) c) ch 1 (b2n (s == 2 || s == 3))) c
  wr (Reg.MOV_ABORTED e) (setBits (rd (Reg.MOV_ABORTED e) c) ch 1 (b2n (s == 5))) c

/-- The offset of a channel's registers. -/
def movOff (ch sub : Nat) : Nat := 0x400 + 0x20 * ch + sub

/-- The owner of a channel. -/
def movOwner (e ch : Nat) (c : Chip) : Nat := rd (Reg.MOV_OWNER e ch) c

/-- The party owns the channel (R247). -/
def movOwns (p : Party) (e ch : Nat) (c : Chip) : Bool := movOwner e ch c == ownerCode p c

/-- A write that only the owner may make (R247). -/
def movOwned (p : Party) (e ch sub value : Nat) (f : Chip → Chip) : Chip → Chip :=
  regAccess p (movPage e) (movOff ch sub) value fun c =>
    if movOwns p e ch c then f c else refuse (movPage e) 0x03 (movOff ch sub) c

/-! ### Stall-owned channels -/

/-- The stall records an access outside its memory (R735). -/
def stallOutOfReach (c : Chip) : Chip := raise 0x90 0x1403 0 (bump (Reg.STL_CTR 1) 1 c)

/-- The owner's descriptors may start: a stall must be ACTIVE (R749) and its Mover bucket above 0 (R741). -/
def movMayStart (o : Nat) (c : Chip) : Bool :=
  ownerIssues 0 o c && (!isStallCode o || decide (0 < mapGet (0 : Int) c.stallMov o))

/-- Bytes written taken from the bucket of a stall (R741). -/
def movCharge (o n : Nat) (c : Chip) : Chip :=
  if isStallCode o then
    { c with stallMov := mapPut (0 : Int) c.stallMov o (mapGet (0 : Int) c.stallMov o - (n : Int) * 65536) }
  else c

/-- The index in a stall's dirty-page map of the page of a home-memory address (R746). -/
def dirtyIndex : List (Nat × Nat) → Nat → Nat → Option Nat
  | [], _, _ => none
  | r :: t, a, k => if r.1 ≤ a ∧ a < r.1 + r.2 then some (k + (a - r.1) / 4096) else dirtyIndex t a (k + r.2 / 4096)

/-- The dirty-page map marked for every page of `[a, a + n)` of a stall's mapped host memory (R747). -/
def stallDirty (o a n : Nat) (c : Chip) : Chip :=
  if isStallCode o && stallF o 0 4 4 c == 1 then
    let h := stallHome o c
    (List.range ((a + n + 4095) / 4096 - a / 4096)).foldl (fun c i =>
      match dirtyIndex (stallMaps o c) ((a / 4096 + i) * 4096) 0 with
      | some k => put (spHost h) (mapGet 0 c.stallLog o + k) [1] c
      | none => c) c
  else c

/-- Bytes written to the memory of an owner's queue, a stall's page logged first (R747). -/
def ownPut (o a : Nat) (bs : List Nat) (c : Chip) : Chip := put (ownerSpace o c) a bs (stallDirty o a bs.length c)

/-- Bytes written at a device address for an owner, a page of a stall's home memory logged first (R747). -/
def devWrite (o a : Nat) (bs : List Nat) (c : Chip) : Chip :=
  writeRange o a bs (if 2 ^ 62 ≤ a then stallDirty o (a % 2 ^ 62) bs.length c else c)

/-! ### Descriptors -/

/-- The destinations of a descriptor: its `DST`, or the offset in the window of every port in `MCAST` (R239). -/
def movDests (r : MovRun) : List Nat :=
  if r.mcast = 0 then [r.dst] else (bitList 8 r.mcast).map fun a => 0x10000000000 * (a + 1) + r.dst

/-- The first `n` bytes of a descriptor delivered (R254: ascending), with the dirty-page log of a stall. -/
def movDeliver (o n : Nat) (r : MovRun) (c : Chip) : Chip :=
  (movDests r).foldl (fun c d =>
    let c := if 2 ^ 62 ≤ d then stallDirty o (d % 2 ^ 62) n c else c
    moveBytes o r.src d n c) (movCharge o n c)

/-- Bytes that can be written before a piece that satisfies `f`; `none` when none does. -/
def movBefore (f : Piece → Bool) (o : Nat) (r : MovRun) (c : Chip) : Option Nat :=
  (movDests r).foldl (fun m d =>
    match m, bytesBefore f (route o d r.len c) with
    | some a, some b => some (min a b)
    | none, b => b
    | a, none => a) none

/-- The abort code that the destinations and the source call for, with the bytes written before (R264: 0x04 blocked, 0x02
a fenced target window). -/
def movObstacle (o : Nat) (r : MovRun) (c : Chip) : Option (Nat × Nat) :=
  let blk := movBefore pieceBlocked o r c
  let fen := movBefore (fun p => p.dest == .fencedWin) o r c
  let src := bytesBefore (fun p => p.dest == .blocked) (route o r.src r.len c)
  let four := match blk, src with
    | some a, some b => some (min a b)
    | some a, none => some a
    | none, b => b
  match four, fen with
  | some a, some b => if b < a then some (0x02, b) else some (0x04, a)
  | some a, none => some (0x04, a)
  | none, some b => some (0x02, b)
  | none, none => none

/-- Some byte of the first `n` of the source reads poisoned (R263). -/
def movPoisoned (o n : Nat) (r : MovRun) (c : Chip) : Bool :=
  (route o r.src n c).any (piecePoison · c)

/-- The requester of a stall reports a source or destination outside its memory (R735). -/
def movReach (o : Nat) (r : MovRun) (c : Chip) : Chip :=
  if isStallCode o && ((route o r.src r.len c).any (fun p => p.dest == .outside) || (movBefore (fun p => p.dest == .outside) o r c).isSome)
  then stallOutOfReach c else c

/-- A channel's descriptor aborted with `written` bytes delivered (R265–R267): CODE and RESIDUE written back, `HEAD` on it,
the channel ABORTED. `extra` are errors recorded in the same instant. -/
def movAbort (e ch code written : Nat) (extra : List (Nat × Nat)) (c : Chip) : Chip :=
  match movRunOf e ch c with
  | none => c
  | some r =>
    let o := movOwner e ch c
    let n := min written r.len
    let bad := movPoisoned o n r c
    let c := movDeliver o n r (raiseAll (movPage e) extra c)
    let c := devWrite o (r.addr + 0x38) (leBytes 8 (code + (r.len - n) * 2 ^ 24)) c
    let c := movState e ch 5 (movSetRun e ch none c)
    let err := if code = 0x01 then (0x0301, 0) else (0x0302, 2)
    raiseAll (movPage e) ([err] ++ (if bad && decide (n ≠ 0) then [(0x0304, 2)] else [])) c

/-- The descriptor at the head of a channel could not be read (R266, code 0x07). -/
def movUnreadable (e ch : Nat) (c : Chip) : Chip := raise (movPage e) 0x0302 2 (movState e ch 5 c)

/-- Bytes written when an event stops a descriptor and the spec does not say how far it had come: a free value. -/
def movProgress (r : MovRun) (c : Chip) : Nat := (freeVal c).toNat % (r.len + 1)

/-- A running descriptor aborted by a fence (R831, R181), wherever it stands. -/
def movAbortAt (e ch code : Nat) (c : Chip) : Chip :=
  match movRunOf e ch c with
  | none => c
  | some r => movAbort e ch code (movProgress r c) [] (useFree c)

/-- A running descriptor ended without write-back or pulse, the bytes written so far delivered (R269, R270). -/
def movEnd (e ch written : Nat) (c : Chip) : Chip :=
  match movRunOf e ch c with
  | none => c
  | some r => movSetRun e ch none (movDeliver (movOwner e ch c) (min written r.len) r c)

/-- A channel reset (R269): the running descriptor ends, the lines are released, `HEAD`, `TAIL` and `DONE` are zeroed, the
channel is OFF. -/
def movReset (e ch written : Nat) (c : Chip) : Chip :=
  let c := unbindProducer (movPage e) ch (movEnd e ch written c)
  let c := wr (Reg.MOV_DONE e ch) 0 (wr (Reg.MOV_TAIL e ch) 0 (wr (Reg.MOV_HEAD e ch) 0 c))
  movState e ch 0 (wr (Reg.MOV_CH_EN e ch) 0 c)

/-- A channel reset by an event that does not say how far the descriptor had come. -/
def movResetAt (e ch : Nat) (c : Chip) : Chip :=
  match movRunOf e ch c with
  | none => movReset e ch 0 c
  | some r => movReset e ch (movProgress r c) (useFree c)

/-- Every channel of an engine reset (R269). -/
def movResetEngine (e : Nat) (c : Chip) : Chip := (List.range 64).foldl (fun c ch => movResetAt e ch c) c

/-- Every running descriptor of an engine aborted with 0x02 (R831). -/
def movFence (e : Nat) (c : Chip) : Chip := (List.range 64).foldl (fun c ch => movAbortAt e ch 0x02 c) c

/-- Every channel of an owner reset (R719, R744). -/
def movResetOwner (o : Nat) (c : Chip) : Chip :=
  (List.range 12).foldl (fun c e => (List.range 64).foldl (fun c ch =>
    if movOwner e ch c = o then movResetAt e ch c else c) c) c

/-- The descriptor uses a member's window of pool `p` (R181, R264): source or destination in it. -/
def movUsesWindow (p m : Nat) (r : MovRun) : Bool :=
  (r.src :: movDests r).any fun a =>
    let spad := 0xC000000000 + p * 0x100000000 + m * 0x100000
    let imem := 0xE000000000 + p * 0x100000000 + m * 0x10000
    let all := 0xE000000000 + p * 0x100000000 + 0xFFF * 0x10000
    overlaps a r.len spad 0x100000 || overlaps a r.len imem 0x10000 || overlaps a r.len all 0x10000

/-- Every descriptor on a member's windows aborted with 0x02 (R181 step 3). -/
def movAbortWindow (p m : Nat) (c : Chip) : Chip :=
  (List.range 12).foldl (fun c e => (List.range 64).foldl (fun c ch =>
    match movRunOf e ch c with
    | some r => if movUsesWindow p m r then movAbortAt e ch 0x02 c else c
    | none => c) c) c

/-! ### Channel registers -/

/-- The producer lines that a channel binds. -/
def movLines (e ch : Nat) (c : Chip) : List Nat :=
  (if rdb (Reg.MOV_BOUND0 e ch) c then [rd (Reg.MOV_LINE0 e ch) c] else []) ++
  (if rdb (Reg.MOV_BOUND1 e ch) c then [rd (Reg.MOV_LINE1 e ch) c] else [])

/-- The check of an enable (R248): 0, or the refusal code. -/
def movEnableCode (e ch : Nat) (c : Chip) : Nat :=
  let o := movOwner e ch c
  let n := rd (Reg.MOV_LOG2_N e ch) c
  if (movLines e ch c).any (lineTaken · c) then 0x0B
  else if !(isStallCode o || o == 0x8000 || o == 0x8001 || isBlockCode o) then 0x21
  else if n < 4 ∨ 15 < n then 0x22
  else 0

/-- `CH_EN` written 1 on a channel that is off (R248). -/
def movEnable (e ch : Nat) (c : Chip) : Chip :=
  let code := movEnableCode e ch c
  if code ≠ 0 then refuse (movPage e) code (movOff ch 0x08) c
  else
    let c := (movLines e ch c).foldl (fun c l => bindProducer l (movPage e) ch c) c
    movState e ch 1 (wr (Reg.MOV_CH_EN e ch) 1 c)

/-- A write of `CH_EN` and `PRIO_CAP` (R246, R248, R269). A write that carries the `PRIO_CAP` the channel has is no write
of that field (log entry 20). -/
def movWriteEn (e ch value written : Nat) (c : Chip) : Chip :=
  let on := rdb (Reg.MOV_CH_EN e ch) c
  let pc := bits value 4 3
  let c := if pc = rd (Reg.MOV_PRIO_CAP e ch) c then c
    else if on then refuse (movPage e) 0x23 (movOff ch 0x08) c
    else wr (Reg.MOV_PRIO_CAP e ch) pc c
  if on && !bit value 0 then movReset e ch written c
  else if !on && bit value 0 then movEnable e ch c
  else c

/-- `ABORT` written (R264, R268): no effect on a channel that runs no descriptor, or once the last beat of a descriptor
without a trailing read has left. -/
def movWriteAbort (e ch written : Nat) (c : Chip) : Chip :=
  match movRunOf e ch c with
  | some r => if r.len ≤ written ∧ r.trail = false then c else movAbort e ch 0x01 written [] c
  | none => c

/-- `RESUME` written (R248, R267). -/
def movWriteResume (e ch : Nat) (c : Chip) : Chip :=
  if rd (Reg.MOV_CH_STATE e ch) c = 5 then movState e ch 1 (bump (Reg.MOV_HEAD e ch) 1 c)
  else refuse (movPage e) 0x23 (movOff ch 0x08) c

/-- `OWNER` and `GEN` written by PF0 of a host port, or `GEN` by the owner, while `CH_EN` is 0 (R246, R247; log entry 20). -/
def movWriteOwner (p : Party) (e ch value : Nat) (c : Chip) : Chip :=
  if !(isHost p || (movOwns p e ch c && bits value 15 0 == movOwner e ch c)) then refuse (movPage e) 0x03 (movOff ch 0x0C) c
  else if rdb (Reg.MOV_CH_EN e ch) c then refuse (movPage e) 0x23 (movOff ch 0x0C) c
  else wr (Reg.MOV_GEN e ch) (bits value 31 16) (wr (Reg.MOV_OWNER e ch) (bits value 15 0) c)

/-- A configuration field of a channel written by its owner while `CH_EN` is 0 (R246, R247). -/
def movWriteConfig (p : Party) (e ch sub : Nat) (f : Chip → Chip) (c : Chip) : Chip :=
  if !movOwns p e ch c then refuse (movPage e) 0x03 (movOff ch sub) c
  else if rdb (Reg.MOV_CH_EN e ch) c then refuse (movPage e) 0x23 (movOff ch sub) c
  else f c

/-! ### Running descriptors -/

/-- The descriptor read from its 64 bytes (R239). -/
def movParse (addr : Nat) (b : List Nat) : MovRun :=
  let q := leNat b
  let f := fun off hi lo => bits q (8 * off + hi) (8 * off + lo)
  { addr := addr, src := f 0 63 0, dst := f 8 63 0, len := if f 0x10 31 0 = 0 then 2 ^ 32 else f 0x10 31 0,
    prio := f 0x14 1 0, trail := f 0x14 2 2 == 1, evt := f 0x14 4 3, wmk := f 0x14 5 5 == 1, mcast := f 0x14 15 8,
    wmkCtx := f 0x18 15 0, wmkFmt := f 0x18 19 16, logical := f 0x20 63 0 }

/-- A reserved field of the descriptor is not 0, or a field names a value the engine does not take (R264, code 0x05). -/
def movBad (e : Nat) (b : List Nat) : Bool :=
  let q := leNat b
  let f := fun off hi lo => bits q (8 * off + hi) (8 * off + lo)
  f 0x14 7 6 != 0 || f 0x18 31 20 != 0 || f 0x1C 31 0 != 0 || f 0x28 127 0 != 0 || f 0x38 23 8 != 0 ||
  f 0x14 4 3 == 3 || (f 0x14 15 8 != 0 && decide (8 ≤ e))

/-- A running descriptor with blocked or fenced places aborted at the first of them; else left running. -/
def movCheckPath (e ch : Nat) (r : MovRun) (c : Chip) : Chip :=
  match movObstacle (movOwner e ch c) r c with
  | some (code, n) => movAbort e ch code n [] (movReach (movOwner e ch c) r c)
  | none => c

/-- The channel starts the descriptor at `HEAD`, or skips it for a stale `GEN` (R242–R244, R264). -/
def movStart (e ch : Nat) (fetchBad : Bool) (c : Chip) : Chip :=
  let o := movOwner e ch c
  let h := rd (Reg.MOV_HEAD e ch) c
  if !(running (movPage e) c && rdb (Reg.MOV_CH_EN e ch) c && rd (Reg.MOV_CH_STATE e ch) c == 1 &&
       h != rd (Reg.MOV_TAIL e ch) c && movMayStart o c) then c
  else
    let addr := rd (Reg.MOV_BASE e ch) c * 4096 + 64 * (h % 2 ^ rd (Reg.MOV_LOG2_N e ch) c)
    let b := readRange o addr 64 c
    if fetchBad || b.2 then movUnreadable e ch c
    else
      let r0 := movParse addr b.1
      let r := { r0 with prio := max r0.prio (rd (Reg.MOV_PRIO_CAP e ch) c) }
      if bits (leNat b.1) (8 * 0x14 + 31) (8 * 0x14 + 16) ≠ rd (Reg.MOV_GEN e ch) c then
        raise (movPage e) 0x0303 0 (bump (Reg.MOV_HEAD e ch) 1
          (devWrite o (addr + 0x38) (leBytes 8 (0x06 + r.len * 2 ^ 24)) c))
      else
        let c := movState e ch 2 (movSetRun e ch (some r) c)
        if movBad e b.1 then movAbort e ch 0x05 0 [] c else movCheckPath e ch r c

/-- The digest of a descriptor's bytes added to its context (R559, R560, R562). -/
def movDigest (o : Nat) (r : MovRun) (c : Chip) : Chip :=
  if !r.wmk then c
  else
    let b := readRange o r.src r.len c
    wmkPass r.wmkCtx r.wmkFmt o r.logical r.len b.2 (fun i => b.1.getD i 0) c

/-- The pulse selected by `EVT_SEL` (R257). -/
def movPulse (e ch evt : Nat) (c : Chip) : Chip :=
  if evt = 1 then pulseIf (rdb (Reg.MOV_BOUND0 e ch) c) (rd (Reg.MOV_LINE0 e ch) c) c
  else if evt = 2 then pulseIf (rdb (Reg.MOV_BOUND1 e ch) c) (rd (Reg.MOV_LINE1 e ch) c) c
  else c

/-- The running descriptor finishes (R257, R263): its bytes are moved and digested, `DONE` and `HEAD` advance, the pulse is
sent. A path that has become blocked since the start aborts it instead. -/
def movFinish (e ch : Nat) (c : Chip) : Chip :=
  match movRunOf e ch c with
  | none => c
  | some r =>
    let o := movOwner e ch c
    if !working (movPage e) c then c
    else match movObstacle o r c with
      | some (code, n) => movAbort e ch code n [] (movReach o r c)
      | none =>
        let bad := movPoisoned o r.len r c
        let c := movDeliver o r.len r (movDigest o r (movReach o r c))
        let c := movState e ch 1 (movSetRun e ch none c)
        let c := bump (Reg.MOV_HEAD e ch) 1 (bump (Reg.MOV_DONE e ch) 1 c)
        let c := if bad then raise (movPage e) 0x0304 2 c else c
        movPulse e ch r.evt c

end Sys2Proof.Machine
end

