-- ==== Sys2Proof/Machine/Ahnam.lean ====
section
/-! DEFINITION. Ahnam's shared operations (chapters 07 and 08): places that a `TARGET` code names, regions, queue pair contexts, messages, streams, completion records, the move to ERROR, and handing frames to Toll. -/

namespace Sys2Proof.Machine

/-! ### Places -/

/-- The pieces of a range at a place (R338, R387, R699). -/
def spotPieces (s : Spot) (n : Nat) (c : Chip) : List Piece :=
  match s.target with
  | 0 => [⟨if rdb Reg.RST_SAFE_STATE c then .blocked else .mem (spHost 0) s.addr, n⟩]
  | 1 => [⟨if rdb Reg.RST_SAFE_STATE c then .blocked else .mem (spHost 1) s.addr, n⟩]
  | 2 => [⟨if spurBlocked s.port c then .blocked else .mem (spAcc s.port) s.addr, n⟩]
  | _ => route (0x9000 + s.act) s.addr n c

/-- The bytes that a place reads, and whether any of them is poisoned. -/
def spotRead (s : Spot) (n : Nat) (c : Chip) : List Nat × Bool :=
  let ps := spotPieces s n c
  (ps.flatMap (pieceBytes · c), ps.any (piecePoison · c))

/-- Bytes written to a place; a stall's host memory is logged first (R747). -/
def spotWrite (s : Spot) (bs : List Nat) (c : Chip) : Chip :=
  let c := if s.target < 2 then stallDirty s.owner s.addr bs.length c else c
  writePieces (spotPieces s bs.length c) bs c

def Spot.plus (s : Spot) (k : Nat) : Spot := { s with addr := s.addr + k }

/-! ### Frames to Toll -/

/-- The Ethernet ports that carry Ahnam, ascending (R288). -/
def ahnPorts (c : Chip) : List Nat := bitList 16 (rd Reg.AHN_PORT_MASK c)

/-- The port of a path slot: p mod P of the ports in `PORT_MASK` (R288). -/
def ahnPortOf (path : Nat) (c : Chip) : Nat := (ahnPorts c).getD (path % (ahnPorts c).length) 0

/-- A frame of another block handed to Toll for a port (R619). -/
def netSend (port cls len : Nat) (o : Output) (c : Chip) : Chip :=
  { c with txWait := c.txWait ++ [⟨port, cls, len, none, none, o⟩] }

/-- Bytes of an Ethernet frame around an Ahnam packet with `n` bytes after its UDP header: MAC header, IP, UDP, FCS. -/
def ahnFrameLen (n : Nat) (c : Chip) : Nat := 14 + (if rdb Reg.AHN_IPV4 c then 20 else 40) + 8 + n + 4

/-- The address-table entry of a device: IP address, serial, `VALID` (R279). -/
def addrBase (dev : Nat) (c : Chip) : Nat := rd Reg.AHN_ADDR_TABLE c + 32 * dev
def addrIp (dev : Nat) (c : Chip) : Nat := ld spDev (addrBase dev c) 16 c
def addrSerial (dev : Nat) (c : Chip) : Nat := ld spDev (addrBase dev c + 16) 8 c
def addrValid (dev : Nat) (c : Chip) : Bool := ldF spDev (addrBase dev c + 24) 0 0 c == 1

/-- An ACK, HELLO or ELECT packet of `n` bytes on a port (R619). -/
def ahnControl (port n : Nat) (o : Output) (c : Chip) : Chip :=
  netSend port (rd Reg.TOL_AHN_ACK_CLASS c) (ahnFrameLen n c) o c

/-! ### Regions (R337–R341) -/

def regionBase (i : Nat) (c : Chip) : Nat := rd Reg.AHN_REGION_TABLE c + 64 * i
def regionF (i off hi lo : Nat) (c : Chip) : Nat := ldF spDev (regionBase i c + off) hi lo c
def regionPut (i off hi lo v : Nat) (c : Chip) : Chip := putF spDev (regionBase i c + off) hi lo v c

/-- The place of an address in region `i`. -/
def regionSpot (i addr : Nat) (c : Chip) : Spot :=
  { target := regionF i 0x10 39 37 c, port := regionF i 0x10 42 40 c, act := regionF i 0x10 46 43 c, addr := addr,
    owner := regionF i 0x10 63 48 c }

/-- The access bits of a region entry (R338). -/
def accLocalWrite : Nat := 33
def accRemoteRead : Nat := 34
def accRemoteWrite : Nat := 35
def accRemoteAtomic : Nat := 36

/-- The check of a key against a queue pair's `PD`, with the access bit needed (0 none): 0, 1 for key, tag, `PD` or access,
2 for range (R341, R361). -/
def keyCheck (key pd acc addr n : Nat) (c : Chip) : Nat :=
  let i := key % 2 ^ 16
  let base := ld spDev (regionBase i c) 8 c
  if regionF i 0x10 32 32 c ≠ 1 ∨ regionF i 0x10 15 0 c ≠ key / 2 ^ 16 ∨ regionF i 0x10 27 16 c ≠ pd ∨
     (acc ≠ 0 ∧ regionF i 0x10 acc acc c ≠ 1) then 1
  else if addr < base ∨ base + regionF i 8 47 0 c < addr + n then 2
  else 0

/-! ### Queue pair contexts (R342) -/

def qpBase (n : Nat) (c : Chip) : Nat := rd Reg.AHN_QP_TABLE c + 128 * n
def qpF (n off hi lo : Nat) (c : Chip) : Nat := ldF spDev (qpBase n c + off) hi lo c
def qpPut (n off hi lo v : Nat) (c : Chip) : Chip := putF spDev (qpBase n c + off) hi lo v c
def qpOwner (n : Nat) (c : Chip) : Nat := qpF n 0x18 15 0 c
def qpPd (n : Nat) (c : Chip) : Nat := qpF n 0x18 27 16 c
def qpGenField (n : Nat) (c : Chip) : Nat := qpF n 0x18 47 32 c
def qpState (n : Nat) (c : Chip) : Nat := qpF n 0x40 1 0 c
def qpGen (n : Nat) (c : Chip) : Nat := qpF n 0x40 31 16 c
def qpRqHead (n : Nat) (c : Chip) : Nat := qpF n 0x48 14 0 c

def getQp (n : Nat) (c : Chip) : AhnQp := mapGet AhnQp.idle c.qps n
def setQp (n : Nat) (q : AhnQp) (c : Chip) : Chip := { c with qps := mapPut AhnQp.idle c.qps n q }

/-- The space and address of entry `i` of a ring of a queue pair: `off` 0 send, 8 receive, 0x10 completion. -/
def qpRing (n off i esize : Nat) (c : Chip) : Nat × Nat :=
  (ownerSpace (qpOwner n c) c, qpF n off 63 12 c * 4096 + esize * (i % 2 ^ qpF n off 3 0 c))

/-- The stale-entry counter (R350). -/
def ahnStale (c : Chip) : Chip := bump Reg.AHN_STALE_COUNT 1 c

/-! ### Completion records (R347–R349) -/

/-- Bytes 0x00–0x1B of a completion record. -/
def recBody (wid status opcode : Nat) (recv immv : Bool) (gen bytes imm dev qp tag seq : Nat) : List Nat :=
  leBytes 4 wid ++ leBytes 4 (status + opcode * 2 ^ 8 + b2n recv * 2 ^ 12 + b2n immv * 2 ^ 13 + gen % 2 ^ 16 * 2 ^ 16) ++
  leBytes 4 bytes ++ leBytes 4 imm ++ leBytes 4 (dev % 2 ^ 16 + qp % 2 ^ 12 * 2 ^ 16) ++ leBytes 4 tag ++ leBytes 4 seq

/-- A record joins the records that wait to be written. -/
def qpRecord (n : Nat) (r : AhnRec) (c : Chip) : Chip :=
  let q := getQp n c
  setQp n { q with recs := q.recs ++ [r] } c

/-- The record of a send entry. -/
def workRec (w : AhnWork) (status : Nat) : AhnRec :=
  { slot := some w.slot, gen := w.gen,
    body := recBody w.wid status w.opcode false false w.gen (if status = 0 then w.len else 0) 0 0 0 w.tag 0 }

/-- Send entries that are done leave in send queue order (R349). -/
def takeDone : List AhnWork → List AhnRec × List AhnWork
  | [] => ([], [])
  | w :: t => match w.status with
    | some st => let r := takeDone t; (workRec w st :: r.1, r.2)
    | none => ([], w :: t)

def flushDone (n : Nat) (c : Chip) : Chip :=
  let q := getQp n c
  let r := takeDone q.works
  setQp n { q with works := r.2, recs := q.recs ++ r.1 } c

/-! ### Streams (R312–R318) -/

def txStreamOf (k : StreamKey) (c : Chip) : Option TxStream := c.txStreams.find? fun s => s.key == k
def rxStreamOf (k : StreamKey) (c : Chip) : Option RxStream := c.rxStreams.find? fun s => s.key == k

def setRxStream (x : RxStream) (c : Chip) : Chip :=
  { c with rxStreams := if (rxStreamOf x.key c).isSome then c.rxStreams.map fun s => if s.key == x.key then x else s
                        else c.rxStreams ++ [x] }

/-- The stream context table is full (R284). -/
def streamFull (c : Chip) : Bool := decide (0x100000 ≤ c.txStreams.length + c.rxStreams.length)

/-- The next sequence of a sending stream, with a context made for it when it has none (R312, R316): incarnation, sequence. -/
def txSequence (k : StreamKey) (c : Chip) : Nat × Nat × Chip :=
  match txStreamOf k c with
  | some s =>
    (s.inc, s.next, { c with txStreams := c.txStreams.map fun x => if x.key == k then { x with next := (x.next + 1) % 2 ^ 32 } else x })
  | none =>
    (c.incNext, 0, { c with txStreams := c.txStreams ++ [⟨k, c.incNext, 1⟩], incNext := (c.incNext + 1) % 2 ^ 16 })

/-- The key of the receiving stream of a packet. -/
def rxKey (p : Packet) : StreamKey := ⟨p.dstQp, p.srcDev, p.srcQp, p.tag, false⟩

/-- Sequences that count as delivered passed over (R313, R351). -/
def skipOver : Nat → Nat → List Nat → Nat × List Nat
  | 0, n, l => (n, l)
  | fuel + 1, n, l => if l.elem n then skipOver fuel ((n + 1) % 2 ^ 32) (l.filter fun x => x != n) else (n, l)

/-- Sequence `seq` of a receiving stream counts as delivered (R313). -/
def streamCount (k : StreamKey) (inc seq : Nat) (c : Chip) : Chip :=
  match rxStreamOf k c with
  | some s =>
    if s.inc ≠ inc then c
    else
      let r := skipOver (s.skip.length + 1) s.next (s.skip ++ [seq])
      setRxStream { s with next := r.1, skip := r.2 } c
  | none => c

/-- The receiving stream of an arriving message (R317): a context is made, or adopts the new incarnation. -/
def streamArrive (p : Packet) (c : Chip) : Chip :=
  match rxStreamOf (rxKey p) c with
  | some s => if s.inc = p.streamInc then c else setRxStream { s with inc := p.streamInc, next := 0, skip := [] } c
  | none => setRxStream ⟨rxKey p, p.streamInc, 0, []⟩ c

/-- The message belongs to an incarnation that reuses the value of the one held (R318). -/
def streamWrapped (p : Packet) (c : Chip) : Bool :=
  match rxStreamOf (rxKey p) c with
  | some s =>
    let back := (s.next + 2 ^ 32 - p.seq) % 2 ^ 32
    s.inc == p.streamInc && decide (1 ≤ back) && decide (back ≤ 2 ^ 31)
  | none => false

/-- Held messages that include sequence 0 make their stream adopt the new incarnation (R318). -/
def streamAdopt (p : Packet) (c : Chip) : Chip :=
  let here := fun (e : Reasm) => e.fresh && rxKey e.hdr == rxKey p
  if c.reasm.any fun e => here e && e.hdr.seq == 0 then
    match rxStreamOf (rxKey p) c with
    | some s =>
      setRxStream { s with next := 0, skip := [] }
        { c with reasm := c.reasm.map fun e => if here e then { e with fresh := false } else e }
    | none => c
  else c

/-! ### Messages -/

/-- A message taken for sending on a queue pair (R286, R312, R316). -/
def postMsg (qp opcode dev dqp tag len : Nat) (prot : Option Nat) (src : Option Spot) (inl opf : List Nat) (c : Chip) : Nat × Chip :=
  let r := txSequence ⟨qp, dev, dqp, tag, true⟩ c
  let c := r.2.2
  (c.msgNext,
   { c with msgNext := (c.msgNext + 1) % 2 ^ 64
            txMsgs := c.txMsgs ++ [⟨c.msgNext, opcode, qp, qpGen qp c, dev, dqp, tag, r.1, r.2.1, len, prot,
              (match prot with | some k => slotKey (k / 8) (k % 8) c | none => []), src, inl, opf, 0, [], [], 0⟩] })

def txMsgOf (id : Nat) (c : Chip) : Option TxMsg := c.txMsgs.find? fun m => m.id == id
def setTxMsg (m : TxMsg) (c : Chip) : Chip := { c with txMsgs := c.txMsgs.map fun x => if x.id == m.id then m else x }

/-- A message and its flight entries released. -/
def dropMsg (id : Nat) (c : Chip) : Chip :=
  { c with txMsgs := c.txMsgs.filter (fun m => m.id != id), flights := c.flights.filter fun f => f.msg != id }

/-- The `OP_FIELDS` of a responder message (R335). -/
def respFields (reqMsg reqGen : Nat) : List Nat := leBytes 8 reqMsg ++ leBytes 4 (reqGen % 2 ^ 16) ++ List.replicate 8 0

/-- A NAK for a message (R335, R336, R351). -/
def sendNak (p : Packet) (status : Nat) (c : Chip) : Chip :=
  raise 0x40 0x040B 0
    (postMsg p.dstQp 9 p.srcDev p.srcQp p.tag 8 none none (leBytes 8 status) (respFields p.msgId p.qpGen) c).2

/-! ### The move to ERROR (R361–R363) -/

/-- The rank of a device in a rank table. -/
def rankOf (table dev : Nat) (c : Chip) : Nat → Nat → Option Nat
  | 0, _ => none
  | fuel + 1, r => if ld spDev (table + 2 * r) 2 c = dev then some r else rankOf table dev c fuel (r + 1)

/-- The send entries posted and not taken, flushed: an entry with a stale `GEN` has no record (R350). -/
def flushSends (n : Nat) : Nat → Nat → List AhnRec → Chip → List AhnRec × Chip
  | 0, _, acc, c => (acc, c)
  | k + 1, i, acc, c =>
    let a := qpRing n 0 i 64 c
    let e := ldBytes a.1 a.2 64 c
    let f := fun off hi lo => bits (leNat e) (8 * off + hi) (8 * off + lo)
    if f 0x3C 15 0 ≠ qpGenField n c then flushSends n k ((i + 1) % 2 ^ 15) acc (ahnStale c)
    else flushSends n k ((i + 1) % 2 ^ 15)
      (acc ++ [{ slot := some i, gen := f 0x3C 15 0, body := recBody (f 0x38 31 0) 1 (f 0 3 0) false false (f 0x3C 15 0) 0 0 0 0 (f 0 31 16) 0 }]) c

/-- A receive entry (R346). -/
def recvEntry (n i : Nat) (c : Chip) : RecvEnt × Bool :=
  let a := qpRing n 8 i 32 c
  let v := leNat (ldBytes a.1 a.2 32 c)
  let f := fun off hi lo => bits v (8 * off + hi) (8 * off + lo)
  (⟨f 0 63 0, f 8 31 0, if f 0xC 31 0 = 0 then 2 ^ 32 else f 0xC 31 0, f 0x10 31 0, f 0x14 15 0⟩,
   f 0x14 31 16 == 0 && f 0x18 63 0 == 0)

/-- The receive entries not taken, flushed. -/
def flushRecvs (n : Nat) : Nat → Nat → List AhnRec → Chip → List AhnRec × Chip
  | 0, _, acc, c => (acc, c)
  | k + 1, i, acc, c =>
    let e := (recvEntry n i c).1
    if e.gen ≠ qpGenField n c then flushRecvs n k ((i + 1) % 2 ^ 15) acc (ahnStale c)
    else flushRecvs n k ((i + 1) % 2 ^ 15) (acc ++ [⟨none, e.gen, recBody e.wid 1 0 true false e.gen 0 0 0 0 0 0⟩]) c

/-- Everything that a queue pair has posted and not finished receives FLUSHED (R363). -/
def qpFlush (n : Nat) (c : Chip) : Chip :=
  let q := getQp n c
  let works := q.works.map fun w => { w with status := some (w.status.getD 1) }
  let s := flushSends n ((q.sqTail + 2 ^ 15 - q.sqNext) % 2 ^ 15) q.sqNext [] c
  let r := flushRecvs n ((q.rqTail + 2 ^ 15 - qpRqHead n s.2) % 2 ^ 15) (qpRqHead n s.2) [] s.2
  let c := qpPut n 0x48 14 0 q.rqTail r.2
  setQp n { q with sqNext := q.sqTail, works := [], recs := q.recs ++ (takeDone works).1 ++ s.1 ++ r.1 } c

/-- Incoming messages of a queue pair discarded, each counting as delivered (R363). -/
def dropIncoming (n : Nat) (c : Chip) : Chip :=
  let mine := c.reasm.filter fun e => e.hdr.dstQp == n
  mine.foldl (fun c e => if e.fresh then c else streamCount (rxKey e.hdr) e.hdr.streamInc e.hdr.seq c)
    { c with reasm := c.reasm.filter (fun e => e.hdr.dstQp != n), flags := c.flags.filter fun f => f.key.qp != n }

/-- The address of a group entry (R381). -/
def groupBase (g : Nat) (c : Chip) : Nat := rd Reg.COL_GROUP_TABLE c + 64 * g
def groupF (g off hi lo : Nat) (c : Chip) : Nat := ldF spDev (groupBase g c + off) hi lo c

/-- `COL_QP` enters ERROR (R409): running collectives end with PEER_FAILED, `FAIL_RANK` the rank of device `dev`; their
ABORT segments wait for the queue pair. -/
def colQpFail (dev : Nat) (c : Chip) : Chip :=
  let live := c.colRuns.filter fun r => r.status.isNone
  { c with
    colAborts := c.colAborts ++ live.map fun r => (r.group, r.seq, false)
    colRuns := c.colRuns.map fun r =>
      if r.status.isNone then
        { r with status := some 6
                 failRank := (rankOf (groupF r.group 8 63 0 c) dev c (groupF r.group 0 16 0 c) 0).getD 0 }
      else r }

/-- A queue pair enters ERROR (R363), from READY or ACTIVE; `dev` is the destination of the message that failed. -/
def qpFail (n status wid dev : Nat) (c : Chip) : Chip :=
  let c := if n = rd Reg.COL_COL_QP c ∧ qpOwner n c = 0x9007 ∧ qpState n c = 2 then colQpFail dev c else c
  if qpState n c = 1 ∨ qpState n c = 2 then
    let c := qpPut n 0x50 31 0 wid (qpPut n 0x40 15 8 status (qpPut n 0x40 1 0 3 c))
    let ids := (c.txMsgs.filter fun m => m.qp == n).map (·.id)
    let c := { c with txMsgs := c.txMsgs.filter (fun m => m.qp != n), flights := c.flights.filter fun f => !ids.elem f.msg }
    raise 0x40 0x040C 0 (qpFlush n (dropIncoming n c))
  else c

/-- A status set on the work of a message, if the work stands. -/
def workStatus (n msg status : Nat) (c : Chip) : Chip :=
  let q := getQp n c
  setQp n { q with works := q.works.map fun w => if w.msg == msg && w.status.isNone then { w with status := some status } else w } c

/-- The work of a message that a queue pair has outstanding. -/
def workOf (n msg : Nat) (c : Chip) : Option AhnWork := (getQp n c).works.find? fun w => w.msg == msg && w.status.isNone

/-- Own send work ends with a status: SUCCESS is recorded in order; any other moves the queue pair to ERROR (R349, R362). A
message of a device block has no send entry. -/
def workEnd (n msg status : Nat) (c : Chip) : Chip :=
  match workOf n msg c with
  | none => match txMsgOf msg c with
    | some m => if m.qp = n ∧ status ≠ 0 then qpFail n status 0 m.dev (dropMsg msg c) else c
    | none => c
  | some w =>
    let c := workStatus n msg status c
    if status = 0 then flushDone n c
    else qpFail n status w.wid (match txMsgOf msg c with | some m => m.dev | none => 0) (dropMsg msg c)

end Sys2Proof.Machine
end

