-- ==== Sys2Proof/Machine/AhnamTx.lean ====
section
/-! DEFINITION. Ahnam's sending side (R279–R290, R300–R311, R319–R323): destinations, packets, acknowledgements, losses, HELLO. -/

namespace Sys2Proof.Machine

/-! ### Destinations -/

def getDest (dev : Nat) (c : Chip) : Option AhnDest := mapGet none c.dests dev
def setDest (dev : Nat) (d : AhnDest) (c : Chip) : Chip := { c with dests := mapPut none c.dests dev (some d) }

/-- Packets in flight to a device (R280). -/
def inFlight (dev : Nat) (c : Chip) : Nat := (c.flights.filter fun f => f.dev == dev).length

/-- The in-flight limit of a destination (R280, R311). -/
def destLimit (d : AhnDest) (c : Chip) : Nat := min (d.w8 / 256) (rd Reg.AHN_FLIGHT_WINDOW c)

/-- A HELLO transmission (R320, R322); it takes a transmission number for its timeout. -/
def helloSend (dev tries : Nat) (d : AhnDest) (c : Chip) : Chip :=
  ahnControl (ahnPortOf 0 c) 80 (.hello false dev 1 3 (rd Reg.AHN_SERIAL c))
    (setDest dev { d with helloTsn := c.tsnNext, helloTries := tries } { c with tsnNext := (c.tsnNext + 1) % 2 ^ 32 })

/-- A new destination entry with 64 consecutive source ports (R290, R309), and its HELLO (R288). -/
def destNew (dev : Nat) (c : Chip) : Chip :=
  let d : AhnDest :=
    { ver := 0, bad := false, helloTsn := 0, helloTries := 0, w8 := 256 * rd Reg.AHN_CWND_INIT c, srtt := 0, lastDec := none,
      ptr := 0, ports := (List.range 64).map fun i => 0xC000 + (c.portNext + i) % 0x4000, losses := List.replicate 64 0,
      goods := List.replicate 64 0, used := c.useNext }
  helloSend dev 0 d { c with portNext := (c.portNext + 64) % 0x4000, useNext := c.useNext + 1 }

/-- The least recently used of a list of entries. -/
def leastUsed : List (Nat × AhnDest) → Option (Nat × AhnDest)
  | [] => none
  | e :: t => match leastUsed t with
    | some b => if b.2.used < e.2.used then some b else some e
    | none => some e

/-- An entry allocated for a device (R282): a free way of its set, or the least recently used one with no packet in flight;
when all four have packets in flight the packet waits and `DCACHE_WAIT` is set. -/
def destAlloc (dev : Nat) (c : Chip) : Chip :=
  let set := Config.deviceHash dev % 16384
  let ways := c.dests.filterMap fun e => if Config.deviceHash e.1 % 16384 = set then e.2.map (e.1, ·) else none
  if ways.length < 4 then destNew dev c
  else match leastUsed (ways.filter fun e => inFlight e.1 c == 0) with
    | some e => destNew dev (bump (Reg.AHN_CTR 6) 1 { c with dests := mapPut none c.dests e.1 none })
    | none => raise 0x40 0x0407 0 c

/-! ### Packets -/

/-- `PAYLOAD_MAX` in bytes (R275). -/
def payloadMax (c : Chip) : Nat := 1024 * 2 ^ rd Reg.AHN_PAYLOAD_MAX c

/-- The lowest version in which an opcode exists (R333); 0 for a reserved one. -/
def opcodeVersion (op : Nat) : Nat := if 10 ≤ op then 0 else if op = 8 then 3 else if op = 2 then 2 else 1

/-- The 64 header bytes of a DATA packet (R276). -/
def pktHeader (p : Packet) : List Nat :=
  leBytes 4 (p.version + b2n p.tail * 2 ^ 8 + b2n p.ackReq * 2 ^ 9 + b2n p.prot * 2 ^ 10 + b2n p.retx * 2 ^ 11 +
    p.opcode * 2 ^ 16 + p.path * 2 ^ 20 + p.pad * 2 ^ 26) ++
  leBytes 4 (p.srcDev + p.dstDev * 2 ^ 16) ++ leBytes 4 (p.dstQp + p.tag * 2 ^ 16) ++ leBytes 4 (p.srcQp + p.qpGen * 2 ^ 16) ++
  leBytes 8 p.msgId ++ leBytes 8 (p.msgLen + p.streamInc * 2 ^ 48) ++ leBytes 4 p.offset ++ leBytes 4 p.tsn ++ leBytes 4 p.seq ++
  p.opf.take 20

/-- The authenticated header: `PATH`, `TSN`, `RETX` and `ACK_REQ` 0 (R277). -/
def pktAad (p : Packet) : List Nat := pktHeader { p with path := 0, tsn := 0, retx := false, ackReq := false }

/-- The 96-bit IV (R277); its fields are taken in the byte order of the header (log entry 25). -/
def pktIv (p : Packet) : List Nat := leBytes 2 p.srcDev ++ leBytes 6 p.msgId ++ leBytes 4 p.offset

/-- The protected form of a packet: payload padded to whole blocks, encrypted, and tagged (R277, R680). -/
def pktSeal (key : List Nat) (p : Packet) : Packet :=
  let pad := (16 - p.payload.length % 16) % 16
  let p := { p with prot := true, pad := pad, payload := p.payload ++ List.replicate pad 0 }
  let r := gcmEnc key (pktIv p) (pktAad p) p.payload
  { p with payload := r.1, auth := r.2 }

/-- Source bytes of a message (R287: read at every transmission), and whether they are poisoned. -/
def msgBytes (m : TxMsg) (off n : Nat) (c : Chip) : List Nat × Bool :=
  match m.src with
  | some s => spotRead (s.plus off) n c
  | none => ((m.inl.drop off).take n, false)

/-- A message ends with an error: work of the queue pair takes the status (R362); a segment moves `COL_QP` to ERROR (R409);
a responder's own message is dropped. -/
def msgFail (m : TxMsg) (status : Nat) (c : Chip) : Chip :=
  if m.opcode = 8 then qpFail m.qp status 0 m.dev (dropMsg m.id c)
  else if m.opcode = 4 ∨ m.opcode = 7 ∨ m.opcode = 9 then dropMsg m.id c
  else workEnd m.qp m.id status c

/-- A responder's read of poisoned data ends the response and answers REMOTE_POISON (R361); a sender's ends the work. -/
def msgPoison (m : TxMsg) (c : Chip) : Chip :=
  if m.opcode = 4 then
    (postMsg m.qp 9 m.dev m.dqp m.tag 8 none none (leBytes 8 0x0D) m.opf (dropMsg m.id c)).2
  else msgFail m 0x0C c

/-- The path slot of the next transmission to a destination; a retransmission skips the slot of the one it replaces (R289). -/
def nextPath (d : AhnDest) (prev : Option Nat) : Nat := if prev = some d.ptr then (d.ptr + 1) % 64 else d.ptr

/-- One transmission of the packet at `off` (R288, R295): `f` is the flight entry it takes over, if any. -/
def transmit (m : TxMsg) (off : Nat) (retx : Bool) (f : Option Flight) (c : Chip) : Chip :=
  match getDest m.dev c with
  | none => c
  | some d =>
    let n := min (payloadMax c) (m.len - off)
    let b := msgBytes m off n c
    if b.2 then msgPoison m c
    else
      let path := nextPath d (f.map (·.path))
      let busy := decide (3 * (d.w8 / 256) ≤ 4 * inFlight m.dev c)
      let p : Packet :=
        { version := d.ver, tail := decide (m.len ≤ off + n), ackReq := retx || busy, prot := false, retx := retx, opcode := m.opcode,
          path := path, pad := 0, srcDev := rd Reg.AHN_DEVICE_ID c, dstDev := m.dev, dstQp := m.dqp, tag := m.tag, srcQp := m.qp,
          qpGen := m.gen, msgId := m.id, msgLen := m.len, streamInc := m.inc, offset := off, tsn := c.tsnNext, seq := m.seq,
          opf := m.opf, payload := b.1, auth := [], udpPort := d.ports.getD path 0, ce := false, frag := false, flaw := false }
      let p := if m.prot.isSome then pktSeal m.key p else p
      let e : Flight := match f with
        | some f => { f with tsn := c.tsnNext, path := path, sent := now c, old := f.old ++ [(f.tsn, f.path, f.sent)], retry := f.retry + 1, higher := 0 }
        | none => { tsn := c.tsnNext, path := path, sent := now c, old := [], dev := m.dev, msg := m.id, offset := off, len := n, retry := 0, higher := 0 }
      let c := { c with
        tsnNext := (c.tsnNext + 1) % 2 ^ 32
        useNext := c.useNext + 1
        flights := match f with
          | some f => c.flights.map fun x => if x.tsn == f.tsn then e else x
          | none => c.flights ++ [e] }
      let c := setDest m.dev { d with ptr := (path + 1) % 64, used := c.useNext } (bump (Reg.AHN_CTR 0) 1 c)
      netSend (ahnPortOf path c) (rd Reg.TOL_AHN_CLASS c) (ahnFrameLen (64 + p.payload.length + p.auth.length) c)
        (.data (addrIp m.dev c) p) c

/-- The packet at `off` may leave: destination entry, version, window, flight table, key (R280–R282, R288, R322, R323,
R674, R687); then it does. -/
def sendPacket (m : TxMsg) (off : Nat) (retx : Bool) (c : Chip) (sent : TxMsg → TxMsg) : Chip :=
  match getDest m.dev c with
  | none => destAlloc m.dev c
  | some d =>
    if d.bad then msgFail m 3 c
    else if d.ver = 0 then c
    else if d.ver < opcodeVersion m.opcode ∨ (m.prot.isSome ∧ d.ver < 2) then msgFail m 3 c
    else if destLimit d c ≤ inFlight m.dev c ∨ 262144 ≤ c.flights.length then c
    else
      let go := fun (c : Chip) => transmit (sent m) off retx none (setTxMsg (sent m) c)
      match m.prot with
      | none => go c
      | some k =>
        if rdb Reg.CPH_ALARM_LATCH c then msgFail m 0x10 c
        else if retx then go c
        else if keyRefuses (k / 8) (k % 8) c then msgFail m 0x10 (keyRefused c)
        else go (keyUse (k / 8) (k % 8) { c with keyTx := setAdd c.keyTx k })

/-- A message sends its next packet. -/
def packetSend (id : Nat) (c : Chip) : Chip :=
  if !working 0x40 c || c.quiet then c
  else match txMsgOf id c with
    | none => c
    | some m =>
      if m.len ≤ m.next then c
      else sendPacket m m.next false c fun m => { m with next := m.next + payloadMax c }

/-- PACKET_SEND (R288). -/
def execPacketSend (msgId : Nat) : State → Host.Outcome State Fault Refusal := onChip (packetSend msgId)

/-- A packet answered `BUSY` is sent again (R305). -/
def busyResend (id off : Nat) (c : Chip) : Chip :=
  if !working 0x40 c then c
  else match txMsgOf id c with
    | none => c
    | some m =>
      if m.busy.elem off then sendPacket m off true c fun m => { m with busy := m.busy.filter fun x => x != off } else c

/-- BUSY_RESEND. -/
def execBusyResend (msgId offset : Nat) : State → Host.Outcome State Fault Refusal := onChip (busyResend msgId offset)

/-! ### Losses (R302–R307) -/

/-- One entry of a list replaced. -/
def setAt (l : List Nat) (i v : Nat) : List Nat := l.set i v

/-- The next source port that no slot of the destination holds (R290). -/
def freshPort (ports : List Nat) : Nat → Nat → Nat × Nat
  | 0, k => (0xC000 + k % 0x4000, (k + 1) % 0x4000)
  | fuel + 1, k => if ports.elem (0xC000 + k % 0x4000) then freshPort ports fuel (k + 1) else (0xC000 + k % 0x4000, (k + 1) % 0x4000)

/-- A decrease of the window, at most once in each interval of S (R310). -/
def decrease (d : AhnDest) (w : Nat) (t : Nat) : AhnDest :=
  match d.lastDec with
  | some l => if t < l + d.srtt then d else { d with w8 := max w 256, lastDec := some t }
  | none => { d with w8 := max w 256, lastDec := some t }

/-- The loss counted against its path slot, which is retired at the second (R306), and against the window (R310). -/
def pathLoss (dev path : Nat) (c : Chip) : Chip :=
  match getDest dev c with
  | none => c
  | some d =>
    let d := decrease d (d.w8 / 2) (now c)
    let k := d.losses.getD path 0 + 1
    if k < 2 then setDest dev { d with losses := setAt d.losses path k, goods := setAt d.goods path 0 } c
    else
      let r := freshPort d.ports 64 c.portNext
      setDest dev { d with ports := setAt d.ports path r.1, losses := setAt d.losses path 0, goods := setAt d.goods path 0 }
        (bump (Reg.AHN_CTR 5) 1 { c with portNext := r.2 })

/-- A transmission is lost (R303, R304): its packet is sent again, or its message fails after the eighth. -/
def loseFlight (f : Flight) (c : Chip) : Chip :=
  let c := pathLoss f.dev f.path c
  match txMsgOf f.msg c with
  | none => { c with flights := c.flights.filter fun x => x.tsn != f.tsn }
  | some m =>
    if f.retry = 7 then msgFail m 2 (raise 0x40 0x0404 2 c)
    else if m.prot.isSome && rdb Reg.CPH_ALARM_LATCH c then msgFail m 0x10 c
    else transmit m f.offset true (some f) (bump (Reg.AHN_CTR 2) 1 c)

/-- A destination becomes incompatible: work to it fails (R322). -/
def destBad (dev : Nat) (d : AhnDest) (c : Chip) : Chip :=
  let c := raise 0x40 0x0408 0 (setDest dev { d with bad := true } c)
  (c.txMsgs.filter fun m => m.dev == dev).foldl (fun c m => msgFail m 3 c) c

/-- The timeout of transmission `tsn` expires (R302); that of a HELLO sends it again or ends the negotiation (R322). -/
def retransmitTimeout (tsn : Nat) (c : Chip) : Chip :=
  if !working 0x40 c then c
  else match c.flights.find? fun f => f.tsn == tsn with
    | some f => loseFlight f c
    | none =>
      match c.dests.findSome? fun e => match e.2 with
          | some d => if d.helloTsn = tsn ∧ d.ver = 0 ∧ d.bad = false then some (e.1, d) else none
          | none => none with
      | some (dev, d) => if d.helloTries = 7 then destBad dev d c else helloSend dev (d.helloTries + 1) d c
      | none => c

/-- RETRANSMIT_TIMEOUT. -/
def execRetransmitTimeout (tsn : Nat) : State → Host.Outcome State Fault Refusal := onChip (retransmitTimeout tsn)

/-! ### Acknowledgements (R300–R311) -/

/-- The window and RTT after one ACK entry without `BUSY` (R309–R311). -/
def ackWindow (d : AhnDest) (sample : Nat) (ce : Bool) (c : Chip) : AhnDest :=
  let s := ((d.srtt : Int) + ((sample : Int) - (d.srtt : Int)) / 8).toNat
  let d := { d with srtt := s }
  let t := rd Reg.AHN_TARGET_DELAY c
  let top := 256 * rd Reg.AHN_FLIGHT_WINDOW c
  if ce then decrease d (d.w8 / 2) (now c)
  else if t < sample then decrease d (d.w8 * 7 / 8) (now c)
  else { d with w8 := min (d.w8 + (if t < 2 * sample then 1 else 4) * 65536 / d.w8) top }

/-- One acknowledged packet of a path slot (R306). -/
def pathGood (d : AhnDest) (path : Nat) : AhnDest :=
  let k := d.goods.getD path 0 + 1
  if k = 1024 then { d with goods := setAt d.goods path 0, losses := setAt d.losses path 0 } else { d with goods := setAt d.goods path k }

/-- Every packet of the message is acknowledged. -/
def allAcked (m : TxMsg) (c : Chip) : Bool := decide (ceilDiv m.len (payloadMax c) ≤ m.acked.length)

/-- A packet acknowledged; the message may complete locally (R300, R360). -/
def msgAck (id off : Nat) (c : Chip) : Chip :=
  match txMsgOf id c with
  | none => c
  | some m =>
    let m := { m with acked := setAdd m.acked off }
    if allAcked m c then
      let c := dropMsg id c
      if m.opcode < 3 then workEnd m.qp id 0 c else c
    else setTxMsg m c

/-- A packet answered `BUSY` (R305, R353). -/
def msgBusy (id off : Nat) (c : Chip) : Chip :=
  match txMsgOf id c with
  | none => c
  | some m =>
    let m := { m with busy := setAdd m.busy off, rnr := m.rnr + 1 }
    if m.opcode = 0 ∧ qpF m.qp 0x20 47 32 c ≤ m.rnr then msgFail m 8 c else setTxMsg m c

/-- The send time and path of the transmission that an entry names. -/
def flightSent (f : Flight) (tsn : Nat) : Option (Nat × Nat) :=
  if f.tsn = tsn then some (f.path, f.sent) else (f.old.find? fun o => o.1 == tsn).map fun o => (o.2.1, o.2.2)

/-- Three acknowledged transmissions with higher `TSN` on a path lose an earlier one (R302). -/
def higherAck (dev path tsn : Nat) (c : Chip) : Chip :=
  let c := { c with flights := c.flights.map fun (f : Flight) =>
    if f.dev == dev && f.path == path && decide (f.tsn < tsn) then { f with higher := f.higher + 1 } else f }
  (c.flights.filter fun (f : Flight) => f.dev == dev && f.path == path && decide (3 ≤ f.higher)).foldl (fun c f => loseFlight f c) c

/-- One ACK entry (R300, R303, R305, R306, R309). -/
def ackEntry (dev : Nat) (e : AckEntry) (c : Chip) : Chip :=
  match c.flights.find? fun f => f.dev == dev && (flightSent f e.tsn).isSome with
  | none => c
  | some f =>
    match flightSent f e.tsn with
    | none => c
    | some (path, sent) =>
      let c := { c with flights := c.flights.filter fun x => x.tsn != f.tsn }
      let c :=
        if e.busy then msgBusy f.msg f.offset c
        else
          let c := match getDest dev c with
            | some d => setDest dev (pathGood (ackWindow d (now c - sent - 16 * e.hold) e.ce c) path) c
            | none => c
          msgAck f.msg f.offset c
      higherAck dev path e.tsn c

/-- ACK_RECEIVE (R300). -/
def execAckReceive (dev : Nat) (entries : List AckEntry) : State → Host.Outcome State Fault Refusal :=
  onChip fun c => if working 0x40 c then entries.foldl (fun c e => ackEntry dev e c) c else c

/-! ### HELLO (R319–R322) -/

/-- HELLO: a valid HELLO is answered with HELLO_REPLY (R321). -/
def execHello (dev verMin verMax serial : Nat) : State → Host.Outcome State Fault Refusal :=
  onChip fun c =>
    if working 0x40 c && decide (verMin ≤ verMax) && decide (1 ≤ verMin) && decide (serial < 2 ^ 64) then
      ahnControl (ahnPortOf 0 c) 80 (.hello true dev 1 3 (rd Reg.AHN_SERIAL c)) c
    else c

/-- HELLO_REPLY: the highest version within both ranges is agreed, or the destination is incompatible (R320, R322). -/
def execHelloReply (dev verMin verMax serial : Nat) : State → Host.Outcome State Fault Refusal :=
  onChip fun c =>
    match getDest dev c with
    | none => c
    | some d =>
      if !working 0x40 c || d.ver != 0 || d.bad || decide (2 ^ 64 ≤ serial) then c
      else if verMin ≤ 3 ∧ 1 ≤ verMax ∧ verMin ≤ verMax then setDest dev { d with ver := min 3 verMax } c
      else destBad dev d c

/-- MSG_ID_QUIET_END (R286). -/
def execMsgIdQuietEnd : State → Host.Outcome State Fault Refusal := onChip fun c => { c with quiet := false }

/-! ### Timers of the tables -/

/-- REASSEMBLY_EXPIRY: an entry idle for `MPL` is discarded; bytes placed stay (R285). An entry whole and waiting for its
turn keeps its place (R313). -/
def reasmWhole (e : Reasm) : Bool := decide (e.hdr.msgLen ≤ (e.got.map (·.2)).sum)

def execReassemblyExpiry (dev msgId : Nat) : State → Host.Outcome State Fault Refusal :=
  onChip fun c => { c with reasm := c.reasm.filter fun e => !(e.dev == dev && e.msg == msgId && !(reasmWhole e && !e.refused)) }

/-- RECENT_EXPIRY (R279). -/
def execRecentExpiry (dev msgId : Nat) : State → Host.Outcome State Fault Refusal :=
  onChip fun c => { c with recent := c.recent.filter fun e => e != (dev, msgId) }

/-- STREAM_CONTEXT_RELEASE: a sender's context with no message of the stream in flight, or a receiver's (R316, R318). -/
def execStreamContextRelease (key : StreamKey) : State → Host.Outcome State Fault Refusal :=
  onChip fun c =>
    if key.send then
      if c.txMsgs.any fun m => m.qp == key.qp && m.dev == key.dev && m.dqp == key.rqp && m.tag == key.tag then c
      else { c with txStreams := c.txStreams.filter fun s => s.key != key }
    else if c.reasm.any fun e => rxKey e.hdr == key then c
    else { c with rxStreams := c.rxStreams.filter fun s => s.key != key }

end Sys2Proof.Machine
end

