-- ==== Sys2Proof/Machine/AhnamElect.lean ====
section
/-! DEFINITION. Ahnam's domain bring-up (R324–R330): the election of a coordinator and the installation of the address table. -/

namespace Sys2Proof.Machine

/-- The device's own module serial, and its own IP address: `SRC_IP` of its first Ahnam port (R571). -/
def ownSerial (c : Chip) : Nat := rd Reg.AHN_SERIAL c
def ownIp (c : Chip) : Nat := let p := ahnPortOf 0 c; rd (Reg.ETH_SRC_IP (p / 4) (p % 4)) c

/-- Every address of the discovery list (R325). -/
def discAddrs (c : Chip) : List Nat :=
  if rdb Reg.AHN_DISC_MCAST c then [rd (Reg.AHN_DISC_ADDR 0) c]
  else (List.range (min 16 (rd Reg.AHN_DISC_COUNT c))).map fun k => rd (Reg.AHN_DISC_ADDR k) c

/-- An ELECT packet to one address. -/
def electTo (dst kind serial first : Nat) (es : List RosterEntry) (c : Chip) : Chip :=
  ahnControl (ahnPortOf 0 c) (0x20 + 32 * es.length) (.elect dst kind (rd Reg.AHN_DOMAIN_TAG c) serial first es) c

/-- An ELECT packet to the whole discovery list (R325). -/
def electAll (kind : Nat) (es : List RosterEntry) (c : Chip) : Chip :=
  (discAddrs c).foldl (fun c a => electTo a kind (ownSerial c) 0 es c) c

/-- The device's own entry. -/
def ownEntry (c : Chip) : RosterEntry := ⟨ownIp c, ownSerial c, true⟩

/-- An ELECT packet is heeded: ELECTED mode, own tag, AHN working (R325). -/
def electHeeds (tag : Nat) (c : Chip) : Bool := working 0x40 c && rdb Reg.AHN_DOMAIN_MODE c && tag == rd Reg.AHN_DOMAIN_TAG c

/-- An entry of the address table written (R279). -/
def addrPut (id : Nat) (e : RosterEntry) (c : Chip) : Chip :=
  put spDev (addrBase id c) (leBytes 16 e.ip ++ leBytes 8 e.serial ++ leBytes 8 (b2n e.valid)) c

/-- A member recorded; a serial seen from two addresses is a conflict (R328). -/
def electRecord (serial ip : Nat) (c : Chip) : Chip :=
  let el := c.elect
  match el.members.find? fun m => m.serial == serial with
  | some m =>
    if m.ip = ip then c
    else raise 0x40 0x0409 2
      { c with elect := { el with members := el.members.filter (fun m => m.serial != serial), conflicts := el.conflicts ++ [serial] } }
  | none => if el.conflicts.elem serial then c else { c with elect := { el with members := el.members ++ [⟨serial, ip, none⟩] } }

/-- DOMAIN_START (R326, R330). -/
def execDomainStart (p : Party) : State → Host.Outcome State Fault Refusal :=
  onChip (regAccess p 0x40 0x108 (2 ^ 31) fun c =>
    if working 0x40 c && rdb Reg.AHN_DOMAIN_MODE c then
      electRecord (ownSerial c) (ownIp c) (wr Reg.AHN_DOMAIN_STATE 1 { c with elect := { c.elect with starting := true, closed := false } })
    else c)

/-- PROPOSE_SEND: the starter sends PROPOSE every 1 ms (R326). -/
def execProposeSend : State → Host.Outcome State Fault Refusal :=
  onChip fun c => if working 0x40 c && c.elect.starting && !c.elect.closed then electAll 0 [] c else c

/-- PROPOSE received (R326, R327): a device that does not start answers JOIN; a starter of higher serial withdraws and joins;
the lower one records the sender. -/
def execPropose (tag serial ip : Nat) : State → Host.Outcome State Fault Refusal :=
  onChip fun c =>
    if !electHeeds tag c then c
    else if !c.elect.starting then electTo ip 2 (ownSerial c) 0 [ownEntry c] c
    else if serial < ownSerial c then
      electTo ip 2 (ownSerial c) 0 [ownEntry c] (electAll 1 [] { c with elect := { c.elect with starting := false } })
    else electRecord serial ip c

/-- WITHDRAW received (R326, R327): the proposal window runs from the latest withdrawal, whose end is its own command. -/
def execWithdraw (tag serial : Nat) : State → Host.Outcome State Fault Refusal :=
  onChip fun c =>
    if electHeeds tag c && c.elect.starting && decide (ownSerial c < serial) then { c with elect := { c.elect with closed := false } } else c

/-- Serials inserted in ascending order. -/
def memberInsert (m : ElectMember) : List ElectMember → List ElectMember
  | [] => [m]
  | x :: t => if m.serial ≤ x.serial then m :: x :: t else x :: memberInsert m t

/-- The lowest ID whose address table entry is not `VALID`. -/
def lowestFree (c : Chip) : Nat → Nat → Nat
  | 0, k => k
  | fuel + 1, k => if addrValid k c then lowestFree c fuel (k + 1) else k

/-- Members without an ID, in ascending order of serial, take the lowest free IDs; a member that the table already holds keeps
its own (R326, R329, R330). -/
def assignIds : List ElectMember → List ElectMember → Chip → List ElectMember × Chip
  | [], acc, c => (acc, c)
  | m :: t, acc, c =>
    match (List.range 65536).find? fun i => addrValid i c && addrSerial i c == m.serial with
    | some i => assignIds t (acc ++ [{ m with id := some i }]) c
    | none =>
      let i := lowestFree c 65536 0
      assignIds t (acc ++ [{ m with id := some i }]) (addrPut i ⟨m.ip, m.serial, true⟩ c)

/-- The entries of a ROSTER chunk from ID `first`. -/
def rosterChunk (first n : Nat) (c : Chip) : List RosterEntry :=
  (List.range n).map fun i => ⟨addrIp (first + i) c, addrSerial (first + i) c, addrValid (first + i) c⟩

/-- A ROSTER chunk sent to a member, to be acknowledged (R326). -/
def sendRoster (m : ElectMember) (first n tries : Nat) (c : Chip) : Chip :=
  electTo m.ip 3 (ownSerial c) first (rosterChunk first n c)
    { c with elect := { c.elect with waiting := c.elect.waiting.filter (fun w => !(w.1 == m.serial && w.2.1 == first)) ++ [(m.serial, first, tries)] } }

/-- The highest assigned ID plus 1. -/
def rosterEnd (c : Chip) : Nat := (c.elect.members.filterMap (·.id)).foldl (fun a b => max a (b + 1)) 0

/-- READY once every member has acknowledged (R326 step 6). -/
def electReady (c : Chip) : Chip :=
  if c.elect.closed && c.elect.waiting.isEmpty then wr Reg.AHN_DOMAIN_STATE 2 c else c

/-- The device's own ID from the table. -/
def adoptId (c : Chip) : Chip :=
  match (List.range 65536).find? fun i => addrValid i c && addrSerial i c == ownSerial c with
  | some i => wr Reg.AHN_DEVICE_ID i c
  | none => c

/-- PROPOSAL_WINDOW_CLOSE: IDs are assigned, and ROSTER chunks of 128 entries go to each member (R326). -/
def execProposalWindowClose : State → Host.Outcome State Fault Refusal :=
  onChip fun c =>
    if !(working 0x40 c && c.elect.starting && !c.elect.closed) then c
    else
      let r := assignIds (c.elect.members.foldr memberInsert []) [] c
      let c := adoptId { r.2 with elect := { c.elect with members := r.1, closed := true } }
      let others := c.elect.members.filter fun m => m.serial != ownSerial c
      let chunks := ceilDiv (rosterEnd c) 128
      electReady (others.foldl (fun c m => (List.range chunks).foldl (fun c k => sendRoster m (128 * k) 128 0 c) c) c)

/-- JOIN received (R326, R328, R329): before the window closes the member is recorded; after it, the member takes the lowest
free ID and its entry goes to every member. -/
def execJoin (tag serial ip : Nat) : State → Host.Outcome State Fault Refusal :=
  onChip fun c =>
    if !(electHeeds tag c && c.elect.starting) then c
    else if !c.elect.closed then electRecord serial ip c
    else
      let known := c.elect.members.any fun m => m.serial == serial && m.ip == ip
      let c := electRecord serial ip c
      match c.elect.members.find? fun m => m.serial == serial && m.id.isNone with
      | some m =>
        if known then c
        else
          let r := assignIds [m] [] c
          let id := ((r.1.head?).bind (·.id)).getD 0
          let c := { r.2 with elect := { c.elect with members := c.elect.members.map fun (x : ElectMember) => if x.serial == serial then { x with id := some id } else x } }
          let c := (c.elect.members.filter fun (x : ElectMember) => x.serial != ownSerial c && x.serial != serial).foldl (fun c x => sendRoster x id 1 0 c) c
          (List.range (ceilDiv (rosterEnd c) 128)).foldl (fun c k => sendRoster { m with id := some id } (128 * k) 128 0 c) c
      | none => c

/-- ROSTER received: the member installs the chunk and answers ROSTER_ACK (R326). A member's domain reads READY once the roster
gives it its own ID (the coordinator's message of step 6 has no packet of its own; log entry 26). -/
def execRoster (tag serial first : Nat) (entries : List RosterEntry) : State → Host.Outcome State Fault Refusal :=
  onChip fun c =>
    if !electHeeds tag c then c
    else
      let c := (List.zip (List.range entries.length) entries).foldl (fun c e => if e.2.valid then addrPut (first + e.1) e.2 c else c) c
      let c := if entries.any fun e => e.valid && e.serial == ownSerial c then wr Reg.AHN_DOMAIN_STATE 2 (adoptId c) else c
      match (List.range 65536).find? fun i => addrValid i c && addrSerial i c == serial with
      | some i => electTo (addrIp i c) 4 (ownSerial c) first [] c
      | none => electAll 4 [] c

/-- ROSTER_ACK received (R326). -/
def execRosterAck (tag serial first : Nat) : State → Host.Outcome State Fault Refusal :=
  onChip fun c =>
    if !(electHeeds tag c && c.elect.closed) then c
    else electReady { c with elect := { c.elect with waiting := c.elect.waiting.filter fun w => !(w.1 == serial && w.2.1 == first) } }

/-- ROSTER_RESEND: a chunk without acknowledgement is sent again, up to its eighth transmission (R307, R326). -/
def execRosterResend (serial first : Nat) : State → Host.Outcome State Fault Refusal :=
  onChip fun c =>
    match c.elect.waiting.find? fun w => w.1 == serial && w.2.1 == first, c.elect.members.find? fun m => m.serial == serial with
    | some w, some m => if working 0x40 c && decide (w.2.2 < 7) then sendRoster m first 128 (w.2.2 + 1) c else c
    | _, _ => c

end Sys2Proof.Machine
end

