-- ==== Sys2Proof/Machine/AhnamRx.lean ====
section
/-! DEFINITION. Ahnam's receiving side (R274, R278, R283–R285, R291–R299, R313–R318, R351–R359): checks, placement, acknowledgement, delivery. -/

namespace Sys2Proof.Machine

/-! ### Acknowledging (R292–R294) -/

/-- The gathered ACK entries of a device sent as one ACK packet. -/
def ackFlush (dev : Nat) (c : Chip) : Chip :=
  match mapGet [] c.acks dev with
  | [] => c
  | h :: t =>
    let es := (h :: t).map fun a => { tsn := a.tsn, hold := min 0xFFFF ((now c - a.time) / 16), ce := a.ce, dup := a.dup, busy := a.busy : AckEntry }
    ahnControl (ahnPortOf h.path c) (0x18 + 8 * es.length) (.ack dev h.port es) { c with acks := mapPut [] c.acks dev [] }

/-- An ACK entry gathered; 32 entries, or a packet with `ACK_REQ`, send at once (R293). -/
def ackPut (p : Packet) (dup busy : Bool) (c : Chip) : Chip :=
  let l := mapGet [] c.acks p.srcDev ++ [⟨p.tsn, now c, p.ce, dup, busy, p.path, p.udpPort⟩]
  let c := { c with acks := mapPut [] c.acks p.srcDev l }
  let c := if dup then bump (Reg.AHN_CTR 3) 1 c else if busy then bump (Reg.AHN_CTR 4) 1 c else c
  if p.ackReq || l.length == 32 then ackFlush p.srcDev c else c

/-- ACK_SEND: `ACK_DELAY` has passed since the oldest gathered entry (R293). -/
def execAckSend (dev : Nat) : State → Host.Outcome State Fault Refusal :=
  onChip fun c => if working 0x40 c then ackFlush dev c else c

/-! ### Authentication (R277, R278, R677, R687) -/

/-- The key page that binds a queue pair (R677). -/
def rxKeyPage (q : Nat) (c : Chip) : Option Nat :=
  (List.range 256).find? fun n => working (keyPage n) c && rdb (Reg.KEY_RX_EN n) c && rd (Reg.KEY_RX_QP n) c == q

/-- The plaintext of a protected packet under one slot. -/
def openSlot (p : Packet) (n s : Nat) (c : Chip) : Option (List Nat) :=
  if slotType n s c = 1 ∨ slotType n s c = 2 then
    let r := gcmDec (slotKey n s c) (pktIv p) (pktAad p) p.payload p.auth
    if r.2 then some r.1 else none
  else none

/-- The plaintext of a protected packet, when either slot's tag matches. -/
def openPacket (p : Packet) (c : Chip) : Option (List Nat) :=
  if rdb Reg.CPH_ALARM_LATCH c then none
  else match rxKeyPage p.dstQp c with
    | none => none
    | some n => match openSlot p n (rd (Reg.KEY_RX_SLOT_A n) c) c with
      | some b => some b
      | none => if rdb (Reg.KEY_RX_B_EN n) c then openSlot p n (rd (Reg.KEY_RX_SLOT_B n) c) c else none

/-! ### Fields of a packet -/

def opfAddr (p : Packet) : Nat := leNat (p.opf.take 8)
def opfKey (p : Packet) : Nat := leNat ((p.opf.drop 8).take 4)
def opfImm (p : Packet) : Nat := leNat ((p.opf.drop 12).take 4)
def opfImmValid (p : Packet) : Bool := leNat ((p.opf.drop 16).take 4) % 2 == 1
/-- `REQ_MSG_ID` and `REQ_QP_GEN` of a responder message (R335). -/
def opfReqMsg (p : Packet) : Nat := opfAddr p
def opfReqGen (p : Packet) : Nat := opfKey p % 2 ^ 16

/-- A message of the responder: READ_RESP, ATOMIC_RESP, NAK. -/
def isResponse (op : Nat) : Bool := op == 4 || op == 7 || op == 9
/-- A request that the responder executes at delivery (R356). -/
def isRequest (op : Nat) : Bool := op == 3 || op == 5 || op == 6

/-- The work or segment that a responder message names is outstanding (R352). -/
def namesWork (p : Packet) (c : Chip) : Bool :=
  opfReqGen p == qpGen p.dstQp c &&
    ((workOf p.dstQp (opfReqMsg p) c).isSome ||
     match txMsgOf (opfReqMsg p) c with
     | some m => m.qp == p.dstQp && m.opcode == 8
     | none => false)

/-! ### Acceptance (R291 steps 3–6, R351) -/

/-- The bytes of a region that a packet's bytes `bs` at its offset ask for, and the access they need: key, address, bytes,
access bit; `none` for an operation without a region, and for Herd's own receive buffers (R418). -/
def packetAsks (p : Packet) (bs : List Nat) (recv : Option RecvEnt) (c : Chip) : Option (Nat × Nat × Nat × Nat) :=
  match p.opcode with
  | 0 => if qpOwner p.dstQp c = 0x9003 then none else recv.map fun r => (r.key, r.addr + p.offset, bs.length, accRemoteWrite)
  | 1 => some (opfKey p, opfAddr p + p.offset, bs.length, accRemoteWrite)
  | 2 => some (opfKey p, opfAddr p + p.offset, bs.length, accRemoteWrite)
  | 3 => some (opfKey p, opfAddr p, if leNat (bs.take 4) = 0 then 2 ^ 32 else leNat (bs.take 4), accRemoteRead)
  | 5 => some (opfKey p, opfAddr p, 8, accRemoteAtomic)
  | 6 => some (opfKey p, opfAddr p, 8, accRemoteAtomic)
  | _ => none

/-- The status with which a packet is refused; 0 when it is not (R351, R361). -/
def packetRefusal (p : Packet) (bs : List Nat) (recv : Option RecvEnt) (c : Chip) : Nat :=
  if qpState p.dstQp c ≠ 2 then 7
  else if (p.opcode = 5 ∨ p.opcode = 6) ∧ opfAddr p % 8 ≠ 0 then 6
  else match packetAsks p bs recv c with
    | none => 0
    | some (key, addr, n, acc) => match keyCheck key (qpPd p.dstQp c) acc addr n c with
      | 0 => 0
      | 1 => 4
      | _ => 5

/-- Bytes that wait in COL's staging area. -/
def stagedBytes (c : Chip) : Nat :=
  ((c.reasm.filter fun e => e.hdr.opcode == 8).map fun e => e.hdr.msgLen).sum + (c.colHeld.map fun s => s.payload.length).sum +
  (c.colRuns.map fun r => (r.segs.map fun s => s.payload.length).sum).sum

/-- A segment of `n` bytes finds no room in staging (R407). -/
def stagingFull (n : Nat) (c : Chip) : Bool := decide (2 ^ rd Reg.COL_STAGING_LOG2 c < stagedBytes c + n)

/-- Requests accepted and not yet answered whole (R357). -/
def inExecution (c : Chip) : Nat :=
  (c.reasm.filter fun e => isRequest e.hdr.opcode).length + (c.txMsgs.filter fun m => m.opcode == 4 || m.opcode == 7).length

/-- The receive entry that a SEND takes (R350, R353): entries of a stale generation are passed over. -/
def takeRecv (n : Nat) : Nat → Chip → Option RecvEnt × Chip
  | 0, c => (none, c)
  | fuel + 1, c =>
    let h := qpRqHead n c
    if h = (getQp n c).rqTail then (none, c)
    else
      let e := (recvEntry n h c).1
      let c := qpPut n 0x48 14 0 (h + 1) c
      if e.gen ≠ qpGenField n c then takeRecv n fuel (ahnStale c) else (some e, c)

/-- Why a packet that needs a new entry is answered `BUSY` (R283, R284, R357, R407, R749): the error it sets, as (page, code);
(0, 0) for none; `none` when it is not. -/
def newBusy (p : Packet) (c : Chip) : Option (Nat × Nat) :=
  if 65536 ≤ c.reasm.length ∨ 1048576 ≤ c.recent.length then some (0x40, 0x0405)
  else if streamFull c && (rxStreamOf (rxKey p) c).isNone then some (0x40, 0x0406)
  else if isRequest p.opcode && decide (4096 ≤ inExecution c) then some (0, 0)
  else if !ownerRuns (qpOwner p.dstQp c) c then some (0, 0)
  else if p.opcode = 8 ∧ stagingFull p.msgLen c = true then some (0x61, 0x0606)
  else none

/-- An entry of the reassembly table. -/
def newReasm (p : Packet) (recv : Option RecvEnt) (refused fresh : Bool) : Reasm :=
  { dev := p.srcDev, msg := p.msgId, hdr := { p with payload := [], auth := [] }, got := [], kept := [], recv := recv,
    refused := refused, fresh := fresh }

def reasmOf (dev msg : Nat) (c : Chip) : Option Reasm := c.reasm.find? fun e => e.dev == dev && e.msg == msg
def setReasm (e : Reasm) (c : Chip) : Chip :=
  { c with reasm := c.reasm.map fun x => if x.dev == e.dev && x.msg == e.msg then e else x }

/-- A message refused (R351): one NAK, nothing further placed, and its sequence counts as delivered. -/
def refuseMsg (e : Reasm) (p : Packet) (status : Nat) (c : Chip) : Chip :=
  let c := sendNak p status (setReasm { e with refused := true } c)
  if e.fresh then c else streamCount (rxKey p) p.streamInc p.seq c

/-- The notification of a SEND refused for its receive entry's length (R362). -/
def tooShort (p : Packet) (r : RecvEnt) (c : Chip) : Chip :=
  qpRecord p.dstQp ⟨none, r.gen, recBody r.wid 9 p.opcode true false r.gen 0 0 p.srcDev p.srcQp p.tag p.seq⟩ c

/-- The work that a response serves. -/
def responseWork (p : Packet) (c : Chip) : Option AhnWork := workOf p.dstQp (opfReqMsg p) c

/-- Bytes of a packet placed, or kept for the message's own use (R296, R298, R357). -/
def placeBytes (e : Reasm) (p : Packet) (bs : List Nat) (c : Chip) : Chip :=
  let keep := fun (e : Reasm) (off : Nat) (b : List Nat) => if b.isEmpty then e else { e with kept := e.kept ++ [(off, b)] }
  let e := { e with got := e.got ++ [(p.offset, bs.length)] }
  match p.opcode with
  | 0 => match e.recv with
    | some r =>
      let spot := if qpOwner p.dstQp c = 0x9003 then ⟨3, 0, 3, r.addr + p.offset, 0x9003⟩ else regionSpot (r.key % 2 ^ 16) (r.addr + p.offset) c
      spotWrite spot bs (setReasm e c)
    | none => setReasm e c
  | 1 => spotWrite (regionSpot (opfKey p % 2 ^ 16) (opfAddr p + p.offset) c) bs (setReasm e c)
  | 2 =>
    let cut := (p.msgLen - 8) - p.offset
    spotWrite (regionSpot (opfKey p % 2 ^ 16) (opfAddr p + p.offset) c) (bs.take cut) (setReasm (keep e (p.offset + cut) (bs.drop cut)) c)
  | 4 => match responseWork p c with
    | some w => spotWrite (w.loc.plus p.offset) bs (setReasm e c)
    | none => setReasm e c
  | _ => setReasm (keep e p.offset bs) c

/-- The bytes a message kept, in ascending order of offset. -/
def keptInsert (x : Nat × List Nat) : List (Nat × List Nat) → List (Nat × List Nat)
  | [] => [x]
  | y :: t => if x.1 ≤ y.1 then x :: y :: t else y :: keptInsert x t
def keptBytes (e : Reasm) : List Nat := (e.kept.foldr keptInsert []).flatMap (·.2)

/-- A NAK received whole ends the work or segment that it names (R352); it counts as delivered. -/
def nakArrive (e : Reasm) (c : Chip) : Chip :=
  let p := e.hdr
  let status := leNat ((keptBytes e).take 1)
  let c := { c with reasm := c.reasm.filter (fun x => !(x.dev == e.dev && x.msg == e.msg)), recent := c.recent ++ [(e.dev, e.msg)] }
  let c := if e.fresh then c else streamCount (rxKey p) p.streamInc p.seq c
  match txMsgOf (opfReqMsg p) c with
  | some m => if m.opcode = 8 then msgFail m status c else workEnd p.dstQp (opfReqMsg p) status c
  | none => workEnd p.dstQp (opfReqMsg p) status c

/-- A packet of a message that has an entry (R291 steps 5–7, R351). -/
def receiveInto (e : Reasm) (p : Packet) (bs : List Nat) (c : Chip) : Chip :=
  if e.refused then c
  else if e.got.any fun g => g.1 == p.offset then ackPut p true false c
  else
    let st := if isResponse p.opcode || p.opcode == 8 then (if qpState p.dstQp c ≠ 2 then 7 else 0) else packetRefusal p bs e.recv c
    if st ≠ 0 then refuseMsg e p st c
    else if (p.opcode = 4 ∨ p.opcode = 7) ∧ (match responseWork p c with
        | some w => decide (w.len < p.offset + bs.length)
        | none => true) = true then ackPut p true false c
    else
      let c := ackPut p false false (placeBytes e p bs c)
      match reasmOf p.srcDev p.msgId c with
      | some e => if p.opcode = 9 ∧ reasmWhole e = true then nakArrive e c else c
      | none => c

/-- The first packet of a message (R283, R284, R291 step 4, R317, R318, R351–R353). -/
def receiveNew (p : Packet) (bs : List Nat) (c : Chip) : Chip :=
  if isResponse p.opcode && !namesWork p c then
    ackPut p true false (streamCount (rxKey p) p.streamInc p.seq (streamArrive p c))
  else match newBusy p c with
    | some (page, code) =>
      let c := if code = 0 then c else raise page code 0 c
      ackPut p false true (if code = 0x0606 then bump (Reg.COL_CTR 5) 1 c else c)
    | none =>
      let active := qpState p.dstQp c == 2
      let r := if p.opcode = 0 ∧ active = true then takeRecv p.dstQp 0x8000 c else (none, c)
      if p.opcode = 0 ∧ active = true ∧ r.1.isNone then ackPut p false true r.2
      else
        let c := r.2
        let fresh := streamWrapped p c
        let e := newReasm p r.1 false fresh
        let c := if fresh then c else streamArrive p c
        let c := { c with reasm := c.reasm ++ [e] }
        let short := match r.1 with
          | some v => if v.len < p.msgLen then some v else none
          | none => none
        let c := match short with
          | some v => refuseMsg e p 9 (tooShort p v c)
          | none => receiveInto e p bs c
        if fresh then streamAdopt p c else c

/-- The header agrees with itself and with the payload: length, offset, `TAIL` (R275, R276). -/
def shapeOk (p : Packet) (n : Nat) : Bool :=
  decide (1 ≤ p.msgLen) && decide (p.msgLen ≤ 2 ^ 32) && decide (0 < n) && decide (p.offset + n ≤ p.msgLen) &&
  (p.tail == decide (p.offset + n = p.msgLen))

/-- A DATA packet (R274, R276, R278, R291, R323). -/
def packetReceive (p : Packet) (c : Chip) : Chip :=
  if !working 0x40 c then c
  else
    let c := bump (Reg.AHN_CTR 1) 1 c
    if p.frag then raise 0x40 0x0402 0 c
    else if p.flaw || decide (p.version < 1) || decide (3 < p.version) || p.dstDev != rd Reg.AHN_DEVICE_ID c ||
            opcodeVersion p.opcode == 0 || decide (p.version < opcodeVersion p.opcode) then raise 0x40 0x0401 0 c
    else
      match (if p.prot then openPacket p c else some p.payload) with
      | none => raise 0x88 0x1003 0 (bump (Reg.CPH_CTR 2) 1 (raise 0x40 0x0403 0 (bump (Reg.AHN_CTR 7) 1 c)))
      | some b =>
        let bs := b.take (b.length - p.pad)
        if !shapeOk p bs.length then raise 0x40 0x0401 0 c
        else if c.recent.elem (p.srcDev, p.msgId) then ackPut p true false c
        else match reasmOf p.srcDev p.msgId c with
          | some e => receiveInto e p bs c
          | none => receiveNew p bs c

/-- PACKET_RECEIVE. -/
def execPacketReceive (pkt : Packet) : State → Host.Outcome State Fault Refusal := onChip (packetReceive pkt)

/-- NAK: a packet of opcode 9 (R352). -/
def execNak (pkt : Packet) : State → Host.Outcome State Fault Refusal :=
  onChip fun c => if pkt.opcode = 9 then packetReceive pkt c else c

/-! ### Delivery (R299, R313, R314, R356–R358) -/

/-- The message is whole and next on its stream. -/
def deliverable (e : Reasm) (c : Chip) : Bool :=
  reasmWhole e && !e.refused && !e.fresh && !(c.flags.any fun f => f.key == rxKey e.hdr) &&
  match rxStreamOf (rxKey e.hdr) c with
  | some s => s.inc == e.hdr.streamInc && s.next == e.hdr.seq
  | none => false

/-- The notification of a message (R347, R353, R354). -/
def noteOf (e : Reasm) (c : Chip) : Nat × AhnRec :=
  let p := e.hdr
  let gen := match e.recv with
    | some r => r.gen
    | none => qpGenField p.dstQp c
  let wid := match e.recv with
    | some r => r.wid
    | none => 0
  (p.dstQp, ⟨none, gen, recBody wid 0 p.opcode true (opfImmValid p) gen (p.msgLen % 2 ^ 32) (opfImm p) p.srcDev p.srcQp p.tag p.seq⟩)

/-- A request executed (R356–R359): the region is checked once more, and poisoned data answers REMOTE_POISON. -/
def executeRequest (e : Reasm) (c : Chip) : Chip :=
  let p := e.hdr
  let b := keptBytes e
  let st := packetRefusal p b none c
  if st ≠ 0 then sendNak p st c
  else
    let spot := regionSpot (opfKey p % 2 ^ 16) (opfAddr p) c
    let n := if p.opcode = 3 then (if leNat (b.take 4) = 0 then 2 ^ 32 else leNat (b.take 4)) else 8
    let r := spotRead spot n c
    if r.2 then sendNak p 0x0D c
    else if p.opcode = 3 then
      (postMsg p.dstQp 4 p.srcDev p.srcQp p.tag n none (some spot) [] (respFields p.msgId p.qpGen) c).2
    else
      let old := leNat r.1
      let c :=
        if p.opcode = 5 then spotWrite spot (leBytes 8 ((old + leNat (b.take 8)) % 2 ^ 64)) c
        else if old = leNat (b.take 8) then spotWrite spot (leBytes 8 (leNat ((b.drop 8).take 8))) c
        else c
      (postMsg p.dstQp 7 p.srcDev p.srcQp p.tag 8 none none (leBytes 8 old) (respFields p.msgId p.qpGen) c).2

/-- A message delivered in its turn; `coll` takes a COLL segment. -/
def deliver (coll : Segment → Chip → Chip) (dev msg : Nat) (c : Chip) : Chip :=
  if !working 0x40 c then c
  else match reasmOf dev msg c with
    | none => c
    | some e =>
      if !deliverable e c then c
      else
        let p := e.hdr
        let c := { c with reasm := c.reasm.filter (fun x => !(x.dev == dev && x.msg == msg)), recent := c.recent ++ [(dev, msg)] }
        let c := streamCount (rxKey p) p.streamInc p.seq c
        match p.opcode with
        | 0 => let n := noteOf e c; qpRecord n.1 n.2 c
        | 1 => if opfImmValid p then let n := noteOf e c; qpRecord n.1 n.2 c else c
        | 2 => { c with flags := c.flags ++ [⟨rxKey p, dev, msg, regionSpot (opfKey p % 2 ^ 16) (opfAddr p + p.msgLen - 8) c, keptBytes e,
                                            if opfImmValid p then some (noteOf e c) else none⟩] }
        | 4 => workEnd p.dstQp (opfReqMsg p) 0 c
        | 7 => match responseWork p c with
          | some w => workEnd p.dstQp (opfReqMsg p) 0 (spotWrite w.loc ((keptBytes e).take 8) c)
          | none => c
        | 8 =>
          let f := fun off hi lo => bits (leNat p.opf) (8 * off + hi) (8 * off + lo)
          coll ⟨dev, f 0 31 0, f 4 11 0, f 4 15 12, f 4 31 16, f 8 15 0, f 8 31 16, f 12 39 0, f 12 40 40 == 1, f 12 41 41 == 1, keptBytes e⟩ c
        | 9 => c
        | _ => executeRequest e c

/-- FLAG_WRITE: the flag of the oldest WRITE_FLAG delivered on its stream is written, then its notification (R314, R355). -/
def flagWrite (dev msg : Nat) (c : Chip) : Chip :=
  match c.flags.find? fun f => f.dev == dev && f.msg == msg with
  | none => c
  | some f =>
    let c := spotWrite f.spot f.bytes { c with flags := c.flags.filter fun x => !(x.dev == dev && x.msg == msg) }
    match f.note with
    | some n => qpRecord n.1 n.2 c
    | none => c

end Sys2Proof.Machine
end

