-- ==== Sys2Proof/Machine/AhnamQp.lean ====
section
/-! DEFINITION. Ahnam's queue pairs (chapter 08): doorbells, work, completion records, commands and regions. -/

namespace Sys2Proof.Machine

/-- A page that sleeps is asked to wake for work (R29, R31). -/
def wakeFor (page : Nat) (c : Chip) : Chip :=
  if pageState page c = 6 then requestWake (pageDomain page) .work c else c

/-! ### Doorbells (R343, R344) -/

/-- A doorbell of the owner of a queue pair that is not in RESET, or `DOORBELL_DROP`. -/
def qpDoorbell (p : Party) (n : Nat) (f : Chip → Chip) (c : Chip) : Chip :=
  if ownerCode p c = qpOwner n c ∧ qpState n c ≠ 0 then f (wakeFor 0x40 c) else raise 0x40 0x040D 0 c

/-- Entries posted while in ERROR are completed with FLUSHED at once (R363). -/
def flushIfError (n : Nat) (c : Chip) : Chip := if qpState n c = 3 then qpFlush n c else c

/-- `SQ_TAIL`, `RQ_TAIL` and `CQ_HEAD` of queue pair `n` written; the last frees completion slots for waiting records (R344). -/
def qpSqTail (p : Party) (n tail : Nat) : Chip → Chip :=
  qpDoorbell p n fun c => flushIfError n (setQp n { getQp n c with sqTail := tail % 2 ^ 15 } c)
def qpRqTail (p : Party) (n tail : Nat) : Chip → Chip :=
  qpDoorbell p n fun c => flushIfError n (setQp n { getQp n c with rqTail := tail % 2 ^ 15 } c)
def qpCqHead (p : Party) (n head : Nat) : Chip → Chip :=
  qpDoorbell p n fun c => setQp n { getQp n c with cqHead := head % 2 ^ 15 } c

/-- QP_SQ_TAIL. -/
def execQpSqTail (p : Party) (qp : Fin 4096) (tail : Nat) : State → Host.Outcome State Fault Refusal := onChip (qpSqTail p qp.val tail)

/-- QP_RQ_TAIL. -/
def execQpRqTail (p : Party) (qp : Fin 4096) (tail : Nat) : State → Host.Outcome State Fault Refusal := onChip (qpRqTail p qp.val tail)

/-- QP_CQ_HEAD. -/
def execQpCqHead (p : Party) (qp : Fin 4096) (head : Nat) : State → Host.Outcome State Fault Refusal := onChip (qpCqHead p qp.val head)

/-! ### Work (R345, R353–R358) -/

/-- A send entry (R345). -/
structure SendEnt where
  opcode : Nat
  immv : Bool
  fence : Bool
  prot : Bool
  page : Nat
  tag : Nat
  dev : Nat
  dqp : Nat
  laddr : Nat
  lkey : Nat
  len : Nat
  raddr : Nat
  rkey : Nat
  imm : Nat
  op0 : Nat
  op1 : Nat
  wid : Nat
  gen : Nat
  bad : Bool
deriving DecidableEq, Repr

/-- The opcode may be posted. -/
def postable (op : Nat) : Bool := decide (op ≤ 3) || op == 5 || op == 6

/-- The entry of 64 bytes; `bad` for a reserved field, an opcode that may not be posted, or a broken length rule (R355,
R361). -/
def sendParse (b : List Nat) : SendEnt :=
  let q := leNat b
  let f := fun off hi lo => bits q (8 * off + hi) (8 * off + lo)
  let op := f 0 3 0
  let len := if f 0x14 31 0 = 0 then 2 ^ 32 else f 0x14 31 0
  { opcode := op, immv := f 0 4 4 == 1, fence := f 0 5 5 == 1, prot := f 0 6 6 == 1, page := f 0 15 8, tag := f 0 31 16,
    dev := f 4 15 0, dqp := f 4 27 16, laddr := f 8 63 0, lkey := f 0x10 31 0, len := len, raddr := f 0x18 63 0, rkey := f 0x20 31 0,
    imm := f 0x24 31 0, op0 := f 0x28 63 0, op1 := f 0x30 63 0, wid := f 0x38 31 0, gen := f 0x3C 15 0,
    bad := f 0 7 7 != 0 || f 4 31 28 != 0 || f 0x3C 31 16 != 0 || !postable op ||
      ((op == 5 || op == 6) && len != 8) || (op == 2 && (decide (len < 8) || (f 0x18 63 0 + len) % 8 != 0)) }

/-- The operation reads local bytes to send (SEND, WRITE, WRITE_FLAG); the others write what returns. -/
def sendsData (op : Nat) : Bool := decide (op < 3)

/-- The slot with which a queue pair's protected work is sealed, when it may name it (R671). -/
def sendSlot (n : Nat) (e : SendEnt) (c : Chip) : Option Nat :=
  let s := rd (Reg.KEY_TX_SLOT e.page) c
  let ty := slotType e.page s c
  if rd (Reg.KEY_OWNER e.page) c = qpOwner n c ∧ (ty = 1 ∨ ty = 2) ∧ rdb Reg.CPH_ALARM_LATCH c = false then some (8 * e.page + s) else none

/-- The status with which an entry fails before it sends; 0 when it does not (R341, R361). -/
def sendStatus (n : Nat) (e : SendEnt) (c : Chip) : Nat :=
  if e.bad then 0x0E
  else if keyCheck e.lkey (qpPd n c) (if sendsData e.opcode then 0 else accLocalWrite) e.laddr e.len c ≠ 0 then 0x0B
  else if e.prot && (sendSlot n e c).isNone then 0x10
  else match getDest e.dev c with
    | some d =>
      if d.bad || (d.ver != 0 && (decide (d.ver < opcodeVersion e.opcode) || (e.prot && decide (d.ver < 2)))) then 3 else 0
    | none => 0

/-- The bytes that a request carries itself (R336). -/
def requestBytes (e : SendEnt) : List Nat :=
  if e.opcode = 3 then leBytes 4 (e.len % 2 ^ 32) ++ List.replicate 4 0
  else if e.opcode = 5 then leBytes 8 e.op0
  else leBytes 8 e.op0 ++ leBytes 8 e.op1

/-- The `OP_FIELDS` of a requester message (R334). -/
def requestFields (e : SendEnt) : List Nat :=
  let imm := decide (e.opcode < 3)
  leBytes 8 (if e.opcode = 0 then 0 else e.raddr) ++ leBytes 4 (if e.opcode = 0 then 0 else e.rkey) ++
  leBytes 4 (if imm then e.imm else 0) ++ leBytes 4 (b2n (imm && e.immv))

/-- The next send entry of a queue pair taken, when its operation is `op`; an entry whose opcode may not be posted is taken
by any of them. It waits behind a `FENCE`, and for a stream context when the table is full (R284). -/
def takeSend (op n : Nat) (c : Chip) : Chip :=
  let q := getQp n c
  if !working 0x40 c || qpState n c != 2 || q.sqNext == q.sqTail || !ownerIssues 1 (qpOwner n c) c then c
  else
    let a := qpRing n 0 q.sqNext 64 c
    let e := sendParse (ldBytes a.1 a.2 64 c)
    let next := (q.sqNext + 1) % 2 ^ 15
    if e.opcode ≠ op ∧ postable e.opcode = true then c
    else if e.gen ≠ qpGenField n c then ahnStale (setQp n { q with sqNext := next } c)
    else if e.fence && q.works.any (fun w => w.opcode == 3 || w.opcode == 5 || w.opcode == 6) then c
    else
      let poison := anyPoison a.1 a.2 64 c
      let st := if poison then 0x0C else sendStatus n e c
      let w : AhnWork := { slot := q.sqNext, wid := e.wid, opcode := e.opcode, gen := e.gen, tag := e.tag,
                           loc := regionSpot (e.lkey % 2 ^ 16) e.laddr c, len := e.len, msg := c.msgNext, status := none }
      if st ≠ 0 then
        qpFail n st e.wid e.dev (setQp n { q with sqNext := next, works := q.works ++ [{ w with msg := 2 ^ 64, status := some st }] } c)
      else if streamFull c && (txStreamOf ⟨n, e.dev, e.dqp, e.tag, true⟩ c).isNone then raise 0x40 0x0406 0 c
      else
        let c := setQp n { q with sqNext := next, works := q.works ++ [w] } c
        let inl := if sendsData e.opcode then [] else requestBytes e
        (postMsg n e.opcode e.dev e.dqp e.tag (if sendsData e.opcode then e.len else inl.length)
          (if e.prot then sendSlot n e c else none) (if sendsData e.opcode then some w.loc else none) inl (requestFields e) c).2

/-- SEND (R353). -/
def execSend (qp : Fin 4096) : State → Host.Outcome State Fault Refusal := onChip (takeSend 0 qp.val)
/-- WRITE (R354). -/
def execWrite (qp : Fin 4096) : State → Host.Outcome State Fault Refusal := onChip (takeSend 1 qp.val)
/-- WRITE_FLAG (R355). -/
def execWriteFlag (qp : Fin 4096) : State → Host.Outcome State Fault Refusal := onChip (takeSend 2 qp.val)
/-- READ (R357). -/
def execRead (qp : Fin 4096) : State → Host.Outcome State Fault Refusal := onChip (takeSend 3 qp.val)
/-- FETCH_ADD64 (R358). -/
def execFetchAdd64 (qp : Fin 4096) : State → Host.Outcome State Fault Refusal := onChip (takeSend 5 qp.val)
/-- CMP_SWAP64 (R358). -/
def execCmpSwap64 (qp : Fin 4096) : State → Host.Outcome State Fault Refusal := onChip (takeSend 6 qp.val)

/-- RESP_TIMEOUT: an acknowledged READ or atomic whose response makes no progress ends (R360). -/
def respTimeout (msg : Nat) (c : Chip) : Chip :=
  match c.qps.find? fun e => e.2.works.any fun w => w.msg == msg && w.status.isNone && isRequest w.opcode with
  | some e => if (txMsgOf msg c).isSome then c else workEnd e.1 msg 0x0A c
  | none => c

def execRespTimeout (msgId : Nat) : State → Host.Outcome State Fault Refusal := onChip (respTimeout msgId)

/-! ### Completion records (R344, R348, R350) -/

/-- The MSI-X message and the event of a completion record; the vector is one of the owner's PF1 table (R342). -/
def qpSignal (n : Nat) (c : Chip) : Chip :=
  let c := pulseIf (qpF n 0x18 60 60 c == 1) (qpF n 0x18 59 48 c) c
  let o := qpOwner n c
  let h := if isStallCode o then some (stallHome o c) else if o = 0x8000 then some 0 else if o = 0x8001 then some 1 else none
  match h with
  | some h => if qpF n 0x20 11 11 c = 1 then sendMsix h 1 (qpF n 0x20 10 0 c) c else c
  | none => c

/-- The next waiting record written, `PHASE` last; a stale one is discarded; a full queue makes it wait, and moves the queue
pair to ERROR with `CQ_OVERFLOW` (R344). -/
def completionWrite (n : Nat) (c : Chip) : Chip :=
  let q := getQp n c
  match q.recs with
  | [] => c
  | r :: t =>
    let c1 := match r.slot with
      | some s => qpPut n 0x44 14 0 (s + 1) c
      | none => c
    if r.gen ≠ qpGenField n c then ahnStale (setQp n { q with recs := t } c1)
    else
      let tail := qpF n 0x4C 14 0 c
      if 2 ^ qpF n 0x10 3 0 c - 1 ≤ (tail + 2 ^ 15 - q.cqHead) % 2 ^ 15 then
        if qpState n c = 1 ∨ qpState n c = 2 then qpFail n 1 0 0 (raise 0x40 0x040A 2 c) else c
      else
        let a := qpRing n 0x10 tail 32 c
        let ph := qpF n 0x4C 31 31 c
        let c := ownPut (qpOwner n c) a.2 (r.body ++ leBytes 4 ph) (setQp n { q with recs := t } c1)
        let tail' := (tail + 1) % 2 ^ 15
        let c := qpPut n 0x4C 14 0 tail' c
        let c := if tail' % 2 ^ qpF n 0x10 3 0 c = 0 then qpPut n 0x4C 31 31 (1 - ph) c else c
        qpSignal n c

/-- COMPLETION_WRITE. -/
def execCompletionWrite (qp : Fin 4096) : State → Host.Outcome State Fault Refusal := onChip (completionWrite qp.val)

/-! ### Commands (R365–R368) -/

/-- The result of a queue pair command. -/
def qpResult (n code : Nat) (c : Chip) : Chip :=
  qpPut n 0x54 31 16 (qpF n 0x54 31 16 c + 1) (qpPut n 0x54 8 8 0 (qpPut n 0x54 7 0 code c))

/-- The writer may command the queue pair (R365). -/
def qpMay (p : Party) (n : Nat) (c : Chip) : Bool :=
  ownerCode p c == qpOwner n c || (isControl p c && isStallCode (qpOwner n c))

/-- A write of `QP_CMD` (R365): refused when the 64 commands of the queue are taken, or for another party. -/
def qpCommand (p : Party) (n cmd : Nat) (f : Chip → Chip) : Chip → Chip :=
  regAccess p 0x40 0x310 (n + cmd * 2 ^ 12 + 2 ^ 31) fun c =>
    if 64 ≤ (c.qps.filter fun e => e.2.resetting).length then refuse 0x40 0x09 0x310 c
    else if !qpMay p n c then refuse 0x40 0x03 0x310 c
    else f c

/-- Entry to RESET (R368). -/
def qpEnterReset (n : Nat) (c : Chip) : Chip :=
  let c := qpPut n 0x40 31 16 (qpGen n c + 1) (qpPut n 0x40 1 0 0 c)
  let c := qpPut n 0x4C 31 31 1 (qpPut n 0x4C 14 0 0 (qpPut n 0x48 14 0 0 (qpPut n 0x44 14 0 0 c)))
  let c := unbindProducer 0x40 n c
  setQp n AhnQp.idle { c with txStreams := c.txStreams.filter fun s => s.key.qp != n }

/-- A RESET command, or a reset by the device, begins: ERROR with RESET_BY_OWNER unless already in ERROR, then flushes
(R366). `CMD_BUSY` stays 1 until `qpResetDone`. -/
def qpStartReset (n : Nat) (c : Chip) : Chip :=
  let c := qpFail n 0x0F 0 0 c
  setQp n { getQp n c with resetting := true } (qpPut n 0x54 8 8 1 c)

/-- A queue pair of a device block taken down: through ERROR to RESET at once, its records written as far as they fit
(R369, R370). -/
def qpForceReset (n : Nat) (c : Chip) : Chip :=
  if qpState n c = 0 then c
  else
    let c := qpFail n 0x0F 0 0 c
    let k := (getQp n c).recs.length
    qpEnterReset n ((List.range k).foldl (fun c _ => completionWrite n c) c)

/-- Every queue pair of an owner code taken through ERROR to RESET (R369, R370). -/
def qpResetOwner (o : Nat) (c : Chip) : Chip :=
  (List.range 4096).foldl (fun c n => if qpOwner n c = o then qpForceReset n c else c) c

/-- The RESET command (R366): code 0x01 from RESET itself. -/
def qpReset (n : Nat) (c : Chip) : Chip := if qpState n c = 0 then qpResult n 1 c else qpStartReset n c

/-- QP_RESET. -/
def execQpReset (p : Party) (qp : Fin 4096) : State → Host.Outcome State Fault Refusal := onChip (qpCommand p qp.val 0 (qpReset qp.val))

/-- QP_RESET_DONE: every flush record is written (R366, R368). -/
def qpResetDone (n : Nat) (c : Chip) : Chip :=
  let q := getQp n c
  if q.resetting && q.recs.isEmpty then qpResult n 0 (qpEnterReset n c) else c

def execQpResetDone (qp : Fin 4096) : State → Host.Outcome State Fault Refusal := onChip (qpResetDone qp.val)

/-- A range of an owner's queue memory lies in its reach (R339, R367): a host port's anywhere below 2^62; a stall's inside
its mapped ranges; a block's in channels of its activity. -/
def ownerReaches (o a n : Nat) (c : Chip) : Bool :=
  if isStallCode o then (stallMaps o c).any fun r => decide (r.1 ≤ a) && decide (a + n ≤ r.1 + r.2)
  else if o = 0x8000 ∨ o = 0x8001 then decide (a + n ≤ 2 ^ 62)
  else (List.range 12).any fun act => reachesActivity o act && inActivity act a n c

/-- An owner code that a queue may carry. -/
def ownerValid (o : Nat) : Bool := isStallCode o || o == 0x8000 || o == 0x8001 || isBlockCode o

/-- The check of a context (R342, R367). -/
def qpContextOk (n : Nat) (c : Chip) : Bool :=
  let o := qpOwner n c
  let ringOk := fun off esize =>
    let l := qpF n off 3 0 c
    decide (4 ≤ l) && qpF n off 11 4 c == 0 && ownerReaches o (qpF n off 63 12 c * 4096) (esize * 2 ^ l) c
  ringOk 0 64 && ringOk 8 32 && ringOk 0x10 32 && ownerValid o && qpF n 0x18 31 28 c == 0 && qpF n 0x18 63 61 c == 0 &&
  qpF n 0x20 31 12 c == 0 && qpF n 0x20 63 48 c == 0 && decide (1 ≤ qpF n 0x20 47 32 c) && ld spDev (qpBase n c + 0x28) 24 c == 0 &&
  !(qpF n 0x18 60 60 c == 1 && lineTaken (qpF n 0x18 59 48 c) c)

/-- READY from RESET (R366, R367). -/
def qpReady (n : Nat) (c : Chip) : Chip :=
  if qpState n c ≠ 0 then qpResult n 1 c
  else if !qpContextOk n c then qpResult n 2 c
  else
    let c := if qpF n 0x18 60 60 c = 1 then bindProducer (qpF n 0x18 59 48 c) 0x40 n c else c
    qpResult n 0 (qpPut n 0x4C 31 31 1 (qpPut n 0x40 1 0 1 c))

def execQpReady (p : Party) (qp : Fin 4096) : State → Host.Outcome State Fault Refusal :=
  onChip (qpCommand p qp.val 1 (qpReady qp.val))

/-- ACTIVE from READY (R366). -/
def qpActive (n : Nat) (c : Chip) : Chip := if qpState n c = 1 then qpResult n 0 (qpPut n 0x40 1 0 2 c) else qpResult n 1 c

def execQpActive (p : Party) (qp : Fin 4096) : State → Host.Outcome State Fault Refusal :=
  onChip (qpCommand p qp.val 2 (qpActive qp.val))

/-- QP_ERROR: the ERROR command from READY or ACTIVE, with RESET_BY_OWNER (R361, R363, R366). -/
def qpError (n : Nat) (c : Chip) : Chip :=
  if qpState n c = 1 ∨ qpState n c = 2 then qpResult n 0 (qpFail n 0x0F 0 0 c) else qpResult n 1 c

def execQpError (p : Party) (qp : Fin 4096) : State → Host.Outcome State Fault Refusal := onChip (qpCommand p qp.val 3 (qpError qp.val))

/-! ### Region commands (R339, R340) -/

/-- The result of a region command. -/
def regionResult (i code : Nat) (c : Chip) : Chip :=
  regionPut i 0x38 31 16 (regionF i 0x38 31 16 c + 1) (regionPut i 0x38 8 8 0 (regionPut i 0x38 7 0 code c))

/-- The check of a region entry: reserved fields, range, `TARGET`, and reach of its owner (R339). -/
def regionOk (i : Nat) (c : Chip) : Bool :=
  let base := ld spDev (regionBase i c) 8 c
  let n := regionF i 8 47 0 c
  let o := regionF i 0x10 63 48 c
  let t := regionF i 0x10 39 37 c
  decide (1 ≤ n) && regionF i 8 63 48 c == 0 && regionF i 0x10 31 28 c == 0 && regionF i 0x10 47 47 c == 0 &&
  ld spDev (regionBase i c + 0x18) 32 c == 0 && decide (t < 4) && decide (base + n ≤ 2 ^ 64) && ownerValid o &&
  (if t < 2 then
     (if isStallCode o then stallHome o c == t && (stallMaps o c).any fun r => decide (r.1 ≤ base) && decide (base + n ≤ r.1 + r.2)
      else if o = 0x8000 ∨ o = 0x8001 then o == 0x8000 + t && decide (base + n ≤ 2 ^ 62) else decide (base + n ≤ 2 ^ 62))
   else if t = 2 then reachesSpur o (regionF i 0x10 42 40 c) c
   else reachesActivity o (regionF i 0x10 46 43 c) && inActivity (regionF i 0x10 46 43 c) base n c)

/-- A write of the region command register; only the region's `OWNER`, or the control service for a stall, may (R339). -/
def regionCommand (p : Party) (i cmd : Nat) (f : Chip → Chip) : Chip → Chip :=
  regAccess p 0x40 0x314 (i + cmd * 2 ^ 16 + 2 ^ 31) fun c =>
    let o := regionF i 0x10 63 48 c
    if ownerCode p c = o ∨ (isControl p c = true ∧ isStallCode o = true) then f c else refuse 0x40 0x03 0x314 c

/-- The VALIDATE command (R339): result 0x02 when the check fails. `REMOTE_ATOMIC` on `TARGET` 0–2 also needs AtomicOp completion on
the port's link; no register says whether the link has it, so a free value decides (log entry 1). -/
def regionValidate (i : Nat) (c : Chip) : Chip :=
  let link := regionF i 0x10 36 36 c == 1 && decide (regionF i 0x10 39 37 c < 3)
  let able := !link || (freeVal c).getLsbD 0
  let c := if link then useFree c else c
  if regionOk i c && able then regionResult i 0 (regionPut i 0x10 32 32 1 c) else regionResult i 2 c

/-- REGION_VALIDATE. -/
def execRegionValidate (p : Party) (i : Nat) : State → Host.Outcome State Fault Refusal :=
  onChip (regionCommand p (i % 2 ^ 16) 0 (regionValidate (i % 2 ^ 16)))

/-- The INVALIDATE command (R340). -/
def regionInvalidate (i : Nat) (c : Chip) : Chip :=
  regionResult i 0 (regionPut i 0x10 15 0 (regionF i 0x10 15 0 c + 1) (regionPut i 0x10 32 32 0 c))

/-- REGION_INVALIDATE. -/
def execRegionInvalidate (p : Party) (i : Nat) : State → Host.Outcome State Fault Refusal :=
  onChip (regionCommand p (i % 2 ^ 16) 1 (regionInvalidate (i % 2 ^ 16)))

/-- AHN enters OFF: its tables empty, the slots it sent with are exhausted (R279, R286, R676). What its queue pairs post and
complete stays with their contexts. An automatic engine reset keeps the `MSG_ID` counter and the slots. -/
def ahnOff (auto : Bool) (c : Chip) : Chip :=
  let c := { c with txMsgs := [], flights := [], dests := [], reasm := [], recent := [], txStreams := [], rxStreams := [], acks := [],
                    flags := [], elect := ⟨false, false, [], [], []⟩ }
  if auto then c else keyExhaustTx { c with msgNext := 0 }

/-- Outstanding work of AHN answered as its page is fenced or taken down (R71, R72, R830): a queue pair with work that is not
finished enters ERROR, and its work is FLUSHED. -/
def ahnAnswer (c : Chip) : Chip :=
  (c.qps.filter fun e => !e.2.works.isEmpty || e.2.sqNext != e.2.sqTail).foldl (fun c e => qpFail e.1 1 0 0 c) c

/-- AHN enters RUNNING: with the counter at 0 it waits before it sends DATA (R286). -/
def ahnOn (c : Chip) : Chip := { c with quiet := c.msgNext == 0 }

end Sys2Proof.Machine
end

