-- ==== Sys2Proof/Machine/Alu.lean ====
section
/-! DEFINITION. The arithmetic, logic and pointer instructions (R206, majors 0x00–0x12). -/

namespace Sys2Proof.Machine

/-- ADD: Vx = Vy + Vz (R206). -/
def execAdd (i : CoreId) (x y z : Fin 16) : State → Host.Outcome State Fault Refusal :=
  onChip (valOp i 0x01 x y z 1 (fun a b => a + b))

/-- SUB: Vx = Vy − Vz (R206). -/
def execSub (i : CoreId) (x y z : Fin 16) : State → Host.Outcome State Fault Refusal :=
  onChip (valOp i 0x02 x y z 1 (fun a b => a - b))

/-- AND: Vx = Vy & Vz (R206). -/
def execAnd (i : CoreId) (x y z : Fin 16) : State → Host.Outcome State Fault Refusal :=
  onChip (valOp i 0x03 x y z 1 (fun a b => a &&& b))

/-- OR: Vx = Vy | Vz (R206). -/
def execOr (i : CoreId) (x y z : Fin 16) : State → Host.Outcome State Fault Refusal :=
  onChip (valOp i 0x04 x y z 1 (fun a b => a ||| b))

/-- XOR: Vx = Vy ^ Vz (R206). -/
def execXor (i : CoreId) (x y z : Fin 16) : State → Host.Outcome State Fault Refusal :=
  onChip (valOp i 0x05 x y z 1 (fun a b => a ^^^ b))

/-- ANDN: Vx = Vy & ~Vz (R206). -/
def execAndn (i : CoreId) (x y z : Fin 16) : State → Host.Outcome State Fault Refusal :=
  onChip (valOp i 0x06 x y z 1 (fun a b => a &&& ~~~b))

/-- SLL: Vx = Vy << Vz[5:0] (R206). -/
def execSll (i : CoreId) (x y z : Fin 16) : State → Host.Outcome State Fault Refusal :=
  onChip (valOp i 0x07 x y z 1 (fun a b => a <<< (b.toNat % 64)))

/-- SRL: Vx = Vy >> Vz[5:0], zeros in (R206). -/
def execSrl (i : CoreId) (x y z : Fin 16) : State → Host.Outcome State Fault Refusal :=
  onChip (valOp i 0x08 x y z 1 (fun a b => a >>> (b.toNat % 64)))

/-- SRA: Vx = Vy >> Vz[5:0], sign in (R206). -/
def execSra (i : CoreId) (x y z : Fin 16) : State → Host.Outcome State Fault Refusal :=
  onChip (valOp i 0x09 x y z 1 (fun a b => a.sshiftRight (b.toNat % 64)))

/-- MUL: low 64 bits of Vy × Vz (R206). -/
def execMul (i : CoreId) (x y z : Fin 16) : State → Host.Outcome State Fault Refusal :=
  onChip (valOp i 0x0A x y z 3 (fun a b => a * b))

/-- MULHS: signed high 64 bits (R206). -/
def execMulhs (i : CoreId) (x y z : Fin 16) : State → Host.Outcome State Fault Refusal :=
  onChip (valOp i 0x0B x y z 3 (mulHS))

/-- MULHU: unsigned high 64 bits (R206). -/
def execMulhu (i : CoreId) (x y z : Fin 16) : State → Host.Outcome State Fault Refusal :=
  onChip (valOp i 0x0C x y z 3 (mulHU))

/-- DIVS: signed quotient (R208) (R206). -/
def execDivs (i : CoreId) (x y z : Fin 16) : State → Host.Outcome State Fault Refusal :=
  onChip (valOp i 0x0D x y z 34 (divS))

/-- DIVU: unsigned quotient (R208) (R206). -/
def execDivu (i : CoreId) (x y z : Fin 16) : State → Host.Outcome State Fault Refusal :=
  onChip (valOp i 0x0E x y z 34 (divU))

/-- REMS: signed remainder (R208) (R206). -/
def execRems (i : CoreId) (x y z : Fin 16) : State → Host.Outcome State Fault Refusal :=
  onChip (valOp i 0x0F x y z 34 (remS))

/-- REMU: unsigned remainder (R208) (R206). -/
def execRemu (i : CoreId) (x y z : Fin 16) : State → Host.Outcome State Fault Refusal :=
  onChip (valOp i 0x10 x y z 34 (remU))

/-- MIN: signed minimum (R206). -/
def execMin (i : CoreId) (x y z : Fin 16) : State → Host.Outcome State Fault Refusal :=
  onChip (valOp i 0x11 x y z 1 (fun a b => if a.slt b then a else b))

/-- MAX: signed maximum (R206). -/
def execMax (i : CoreId) (x y z : Fin 16) : State → Host.Outcome State Fault Refusal :=
  onChip (valOp i 0x12 x y z 1 (fun a b => if a.slt b then b else a))

/-- MINU: unsigned minimum (R206). -/
def execMinu (i : CoreId) (x y z : Fin 16) : State → Host.Outcome State Fault Refusal :=
  onChip (valOp i 0x13 x y z 1 (fun a b => if a.ult b then a else b))

/-- MAXU: unsigned maximum (R206). -/
def execMaxu (i : CoreId) (x y z : Fin 16) : State → Host.Outcome State Fault Refusal :=
  onChip (valOp i 0x14 x y z 1 (fun a b => if a.ult b then b else a))

/-- CMPEQ: 1 when equal (R206). -/
def execCmpeq (i : CoreId) (x y z : Fin 16) : State → Host.Outcome State Fault Refusal :=
  onChip (valOp i 0x15 x y z 1 (fun a b => word1 (a == b)))

/-- CMPNE: 1 when unequal (R206). -/
def execCmpne (i : CoreId) (x y z : Fin 16) : State → Host.Outcome State Fault Refusal :=
  onChip (valOp i 0x16 x y z 1 (fun a b => word1 (a != b)))

/-- CMPLT: 1 when less, signed (R206). -/
def execCmplt (i : CoreId) (x y z : Fin 16) : State → Host.Outcome State Fault Refusal :=
  onChip (valOp i 0x17 x y z 1 (fun a b => word1 (a.slt b)))

/-- CMPLTU: 1 when less, unsigned (R206). -/
def execCmpltu (i : CoreId) (x y z : Fin 16) : State → Host.Outcome State Fault Refusal :=
  onChip (valOp i 0x18 x y z 1 (fun a b => word1 (a.ult b)))

/-- CLZ: Z must be 0 (R206). -/
def execClz (i : CoreId) (x y z : Fin 16) : State → Host.Outcome State Fault Refusal :=
  onChip (runInstr i (encT 0x00 0x19 x y z) fun k c =>
    if z = 0 then .ok (setV k x (clz64 (getV k y))) c none 1 else illegal (encT 0x00 0x19 x y z))

/-- POPC: Z must be 0 (R206). -/
def execPopc (i : CoreId) (x y z : Fin 16) : State → Host.Outcome State Fault Refusal :=
  onChip (runInstr i (encT 0x00 0x1A x y z) fun k c =>
    if z = 0 then .ok (setV k x (popc64 (getV k y))) c none 1 else illegal (encT 0x00 0x1A x y z))

/-- ADDI: Vx = Vy + sext(IMM18) (R206). -/
def execAddi (i : CoreId) (x y : Fin 16) (imm : BitVec 18) : State → Host.Outcome State Fault Refusal :=
  onChip (immOp i 0x01 x y imm (fun a => a + imm.signExtend 64))

/-- ANDI: Vx = Vy & sext(IMM18) (R206). -/
def execAndi (i : CoreId) (x y : Fin 16) (imm : BitVec 18) : State → Host.Outcome State Fault Refusal :=
  onChip (immOp i 0x02 x y imm (fun a => a &&& imm.signExtend 64))

/-- ORI: Vx = Vy | zext(IMM18) (R206). -/
def execOri (i : CoreId) (x y : Fin 16) (imm : BitVec 18) : State → Host.Outcome State Fault Refusal :=
  onChip (immOp i 0x03 x y imm (fun a => a ||| imm.zeroExtend 64))

/-- XORI: Vx = Vy ^ zext(IMM18) (R206). -/
def execXori (i : CoreId) (x y : Fin 16) (imm : BitVec 18) : State → Host.Outcome State Fault Refusal :=
  onChip (immOp i 0x04 x y imm (fun a => a ^^^ imm.zeroExtend 64))

/-- SHIFTI: Vy shifted by IMM18[5:0], kind IMM18[7:6]; kind 3 and reserved bits are illegal (R197, R206). -/
def execShifti (i : CoreId) (x y : Fin 16) (imm : BitVec 18) : State → Host.Outcome State Fault Refusal :=
  onChip (runInstr i (encI 0x05 x y imm) fun k c =>
    let n := imm.toNat
    let a := getV k y
    let sh := n % 64
    if n / 256 ≠ 0 ∨ bits n 7 6 = 3 then illegal (encI 0x05 x y imm)
    else
      let r := if bits n 7 6 = 0 then a <<< sh else if bits n 7 6 = 1 then a >>> sh else a.sshiftRight sh
      .ok (setV k x r) c none 1)

/-- LI: Vx = sext(IMM18); Y must be 0 (R206). -/
def execLi (i : CoreId) (x y : Fin 16) (imm : BitVec 18) : State → Host.Outcome State Fault Refusal :=
  onChip (runInstr i (encI 0x06 x y imm) fun k c =>
    if y = 0 then .ok (setV k x (imm.signExtend 64)) c none 1 else illegal (encI 0x06 x y imm))

/-- SHI: Vx = (Vx << 18) | zext(IMM18); Y must be 0 (R206). -/
def execShi (i : CoreId) (x y : Fin 16) (imm : BitVec 18) : State → Host.Outcome State Fault Refusal :=
  onChip (runInstr i (encI 0x07 x y imm) fun k c =>
    if y = 0 then .ok (setV k x ((getV k x <<< (18 : Nat)) ||| imm.zeroExtend 64)) c none 1
    else illegal (encI 0x07 x y imm))

/-- CMPLTI: 1 when Vy < sext(IMM18), signed (R206). -/
def execCmplti (i : CoreId) (x y : Fin 16) (imm : BitVec 18) : State → Host.Outcome State Fault Refusal :=
  onChip (immOp i 0x08 x y imm (fun a => word1 (a.slt (imm.signExtend 64))))

/-- CMPEQI: 1 when Vy = sext(IMM18) (R206). -/
def execCmpeqi (i : CoreId) (x y : Fin 16) (imm : BitVec 18) : State → Host.Outcome State Fault Refusal :=
  onChip (immOp i 0x09 x y imm (fun a => word1 (a == imm.signExtend 64)))

/-- ADDP: Px = Py + Pz (R206). -/
def execAddp (i : CoreId) (x y z : Fin 16) : State → Host.Outcome State Fault Refusal :=
  onChip (ptrOp i 0x01 x y z (fun k => getP k y + getP k z))

/-- SUBP: Px = Py − Pz (R206). -/
def execSubp (i : CoreId) (x y z : Fin 16) : State → Host.Outcome State Fault Refusal :=
  onChip (ptrOp i 0x02 x y z (fun k => getP k y - getP k z))

/-- ADDPV0–ADDPV3: Px = Py + (Vz << s) (R206). -/
def execAddpv (i : CoreId) (s : Fin 4) (x y z : Fin 16) : State → Host.Outcome State Fault Refusal :=
  onChip (ptrOp i (4 + s.val) x y z (fun k => getP k y + (getV k z <<< s.val)))

/-- MOVPV: Px = Vy (R206). -/
def execMovpv (i : CoreId) (x y z : Fin 16) : State → Host.Outcome State Fault Refusal :=
  onChip (ptrOp i 0x08 x y z (fun k => getV k y))

/-- MOVVP: Vx = Py (R206). -/
def execMovvp (i : CoreId) (x y z : Fin 16) : State → Host.Outcome State Fault Refusal :=
  onChip (runInstr i (encT 0x10 0x09 x y z) fun k c => .ok (setV k x (getP k y)) c none 1)

/-- ADDPI: Px = Py + sext(IMM18) (R206). -/
def execAddpi (i : CoreId) (x y : Fin 16) (imm : BitVec 18) : State → Host.Outcome State Fault Refusal :=
  onChip (runInstr i (encI 0x11 x y imm) fun k c => .ok (setP k x (getP k y + imm.signExtend 64)) c none 1)

/-- LEP: Px = address of this instruction + sext(IMM18); Y must be 0 (R206). -/
def execLep (i : CoreId) (x y : Fin 16) (imm : BitVec 18) : State → Host.Outcome State Fault Refusal :=
  onChip (runInstr i (encI 0x12 x y imm) fun k c =>
    if y = 0 then .ok (setP k x (BitVec.ofNat 64 k.pc + imm.signExtend 64)) c none 1 else illegal (encI 0x12 x y imm))

end Sys2Proof.Machine
end

