-- ==== Sys2Proof/Machine/Churn.lean ====
section
/-! DEFINITION. Churn cores (chapter 04): run control, faults, reissue on spares, restart marks, and the ends of tile operations and waits. -/

namespace Sys2Proof.Machine

/-! ### Run control -/

/-- START (R172, R173): registers and counters zeroed, execution from `ENTRY`. -/
def churnStart (n : Fin 336) (c : Chip) : Chip :=
  let c := setCore (.churn n) { CoreSt.reset with pc := rd (Reg.CC_ENTRY n.val) c * 4 } c
  let c := wr (Reg.CC_MARK_COUNT n.val) 0 (wr (Reg.CC_RETIRED n.val) 0 (wr (Reg.CC_CYCLES n.val) 0 c))
  wr (Reg.CC_RUN_STATE n.val) 1 c

/-- STOP (R172): the running tile operation ends, then the core is STOPPED; a trap of that operation stands. -/
def churnStop (n : Fin 336) (c : Chip) : Chip :=
  let c := waitTile n c
  if runState n.val c = 1 ∨ runState n.val c = 2 then
    wr (Reg.CC_RUN_STATE n.val) 0 (setCore (.churn n) { getCore (.churn n) c with wait := none, mark := false } c)
  else c

/-- A write of `START` and `STOP` (R170, R173): code 0x23 with both set, in a state that does not take it, or while the page
takes no work. -/
def churnRun (n : Fin 336) (value : Nat) (c : Chip) : Chip :=
  let bad := refuse (corePage n.val) 0x23 0x104 c
  let s := runState n.val c
  let start := bit value 8
  let stop := bit value 9
  if start && stop then bad
  else if start then
    if running (corePage n.val) c && (s == 0 || s == 3 || s == 4) then churnStart n c else bad
  else if stop then
    if s == 1 || s == 2 then churnStop n c else bad
  else c

/-- START. -/
def execStart (p : Party) (core : Fin 336) (value : Nat) : State → Host.Outcome State Fault Refusal :=
  onChip (regAccess p (corePage core.val) 0x104 value (churnRun core (value ||| 0x100)))

/-- STOP. -/
def execStop (p : Party) (core : Fin 336) (value : Nat) : State → Host.Outcome State Fault Refusal :=
  onChip (regAccess p (corePage core.val) 0x104 value (churnRun core (value ||| 0x200)))

/-- IMEM_WRITE: bytes written at an offset of a member's instruction memory; member 0xFFF names every member (R148, R149). -/
def execImemWrite (pool member off : Nat) (data : List Nat) : State → Host.Outcome State Fault Refusal :=
  onChip (writeRange apertureCode (0xE000000000 + pool * 0x100000000 + member * 0x10000 + off % 0x10000)
    (data.take (0x10000 - off % 0x10000)))

/-! ### Faults and reissue -/

/-- The die of a core: 0 north, 1 south (R19, R21). -/
def dieOf (n : Nat) : Nat := if n < 160 ∨ (320 ≤ n ∧ n < 328) then 0 else 1

/-- The spare that replaces core `n`: the lowest-numbered in its cluster, else on its die, else anywhere (R181). -/
def chooseSpare (n : Nat) (c : Chip) : Option Nat :=
  let sp := (List.range 336).filter fun m => isSpare m c
  match sp.find? fun m => m / 16 == n / 16 with
  | some m => some m
  | none => match sp.find? fun m => dieOf m == dieOf n with
    | some m => some m
    | none => sp.head?

/-- A bit of `DUM` written. -/
def setDum (n : Nat) (on : Bool) (c : Chip) : Chip :=
  wr (Reg.CHN_DUM (n / 32)) (setBits (rd (Reg.CHN_DUM (n / 32)) c) (n % 32) 1 (b2n on)) c

/-- A core set in `FAILED` (R182). -/
def setFailed (n : Nat) (c : Chip) : Chip :=
  wr (Reg.CHN_FAILED (n / 32)) (setBits (rd (Reg.CHN_FAILED (n / 32)) c) (n % 32) 1 1) c

/-- `CORE_COUNT` of a pool. -/
def recountPool (p : Nat) (c : Chip) : Chip := wr (Reg.CHN_CORE_COUNT p) (poolCores p c).length c

/-- The 64 sample lines, with the mask of the poisoned ones (R836, R837). -/
def captureSample (n : Nat) (c : Chip) : Nat × List Nat :=
  (List.range 64).foldl (fun r i =>
    if anyPoison (spSpad n) (0x4000 * i) 64 c then (r.1 + 2 ^ i, r.2 ++ List.replicate 64 0)
    else (r.1, r.2 ++ ldBytes (spSpad n) (0x4000 * i) 64 c)) (0, [])

/-- The bytes of P0–P15, V0–V15 and ACC0–ACC3. -/
def coreRegBytes (k : CoreSt) : List Nat :=
  ((List.range 16).flatMap fun j => leBytes 8 (getP k j).toNat) ++
  ((List.range 16).flatMap fun j => leBytes 8 (getV k j).toNat) ++
  ((List.range 4).flatMap fun j => leBytes 16 (getA k j).toNat)

/-- The capture record of a core fault (R836). -/
def captureBytes (n : Fin 336) (pool member code : Nat) (c : Chip) : List Nat :=
  let k := getCore (.churn n) c
  let s := captureSample n.val c
  leBytes 8 (now c) ++ leBytes 8 (n.val + pool * 2 ^ 16 + member * 2 ^ 32 + code * 2 ^ 48) ++
  leBytes 8 (k.pc % 2 ^ 16 + runState n.val c * 2 ^ 16) ++ leBytes 8 (rd (Reg.CC_CYCLES n.val) c) ++
  leBytes 8 (rd (Reg.CC_RETIRED n.val) c) ++ leBytes 8 k.status.toNat ++
  leBytes 8 (rd (Reg.CC_MARK_PC n.val) c + rd (Reg.CC_MARK_COUNT n.val) c * 2 ^ 16) ++ leBytes 8 s.1 ++
  coreRegBytes k ++ ((List.range 8).flatMap fun i => leBytes 4 (rd (Reg.CC_IN_COUNT n.val i) c)) ++
  List.replicate 0xE60 0 ++ s.2

/-- The record written to the capture ring (R836); a ring outside the CAPTURE activity's channels takes nothing (R33). -/
def captureWrite (n : Fin 336) (pool member code : Nat) (c : Chip) : Chip :=
  let h := rd Reg.RST_CAPTURE_HEAD c
  let slots := 2 ^ rd Reg.RST_CAPTURE_LOG2 c
  let c' := writeRange 0x900B (rd Reg.RST_CAPTURE_BASE c + h % slots * 0x2000) (captureBytes n pool member code c) c
  let c' := bump Reg.RST_CAPTURE_HEAD 1 c'
  if slots ≤ h then raise 4 0x1805 0 c' else c'

/-- `ENABLED` against `FLOOR` (R187). -/
def gradeFloor (c : Chip) : Chip :=
  if rd Reg.CHN_ENABLED c < rd Reg.CHN_FLOOR c then wakeHosts 1 (nodeRecord 2 (raise 0x60 0x0201 0 c)) else c

/-- The latest reissue in CHN (0x110). -/
def recordReissue (failed repl pool member : Nat) (c : Chip) : Chip :=
  wr Reg.CHN_REISSUE_MEMBER member (wr Reg.CHN_REISSUE_POOL pool
    (wr Reg.CHN_REPLACEMENT repl (wr Reg.CHN_FAILED_CORE failed c)))

/-- The member of a failed core goes to a spare (R181 step 5, R185), or onto another member when none remains (R186). -/
def reissueMember (n : Nat) (pool member : Nat) (c : Chip) : Chip :=
  let spare := chooseSpare n c
  let c := setDum n true (setFailed n (wr (Reg.CHN_POOL_OF n) 0xFF c))
  match spare with
  | some m =>
    let c := wr (Reg.CHN_POOL_OF m) pool (wr (Reg.CC_SPARE m) 0 (setDum m false c))
    let c := wr Reg.CHN_SPARES (rd Reg.CHN_SPARES c - 1) c
    let c := recordReissue n m pool member { c with reissues := c.reissues ++ [⟨n, m, false, false⟩] }
    if domAwake m c then c else requestWake m (.reissue m) c
  | none =>
    let c := recountPool pool (wr Reg.CHN_ENABLED (rd Reg.CHN_ENABLED c - 1) c)
    let onto := ((poolCores pool c).filter (c.numbered.elem ·)).foldl (fun (b : Option Nat) m => match b with
      | some x => if rd (Reg.CC_MEMBER m) c < rd (Reg.CC_MEMBER x) c then some m else some x
      | none => some m) none
    let c := recordReissue n (onto.getD 0x1FF) pool member { c with folded := c.folded ++ [(n, onto.getD 0x1FF)] }
    gradeFloor (raise 0x60 0x0203 0 c)

/-- Core `n` fenced and its member reissued (R180–R182, R829): the page is FENCED, its descriptors aborted, the capture written
with `code`. A page that takes no work stays as it is (R896). -/
def coreReissue (n : Fin 336) (code : Nat) (c : Chip) : Chip :=
  if !working (corePage n.val) c then c
  else
    let pool := rd (Reg.CC_POOL n.val) c
    let member := rd (Reg.CC_MEMBER n.val) c
    let k := getCore (.churn n) c
    let c := setCore (.churn n) { k with tile := none, wait := none, mark := false, sigs := [] } c
    let c := wr (Hdr.STATE (corePage n.val)) 4 c
    let c := unbindPage (corePage n.val) c
    let c := (List.range 8).foldl (fun c i => unbindConsumer (.core n.val i) c) c
    let c := captureWrite n pool member code (movAbortWindow pool member c)
    let c := bump (Reg.RST_CTR 2) 1 (wr Reg.RST_LAST_TIME (now c)
      (wr Reg.RST_LAST_TARGET n.val (wr Reg.RST_LAST_KIND 2 c)))
    reissueMember n.val pool member { c with numbered := c.numbered.filter (· != n.val) }

/-- A fault of core `n` with code `code`. -/
def coreFault (n : Fin 336) (code : Nat) (c : Chip) : Chip := coreReissue n code (raise (corePage n.val) code 2 c)

/-- The code of a fault (R169). -/
def coreFaultCode : CoreFaultKind → Nat
  | .spadUncorr => 0x0102
  | .imemParity => 0x0103
  | .tileParity => 0x0104

/-- CORE_FAULT: the line at scratchpad address `addr` becomes poisoned for SPAD_UNCORR (R142, R898). -/
def execCoreFault (core : Fin 336) (k : CoreFaultKind) (addr : Nat) : State → Host.Outcome State Fault Refusal :=
  onChip fun c => coreFault core (coreFaultCode k)
    (if k = .spadUncorr then poisonRange (spSpad core.val) (alignDown (addr % 0x100000) 64) 64 c else c)

/-- CORE_WATCHDOG: only while a limit is set and the core runs (R169, R832). -/
def execCoreWatchdog (core : Fin 336) : State → Host.Outcome State Fault Refusal :=
  onChip fun c =>
    if rd (Reg.CC_WDOG_LIMIT core.val) c ≠ 0 ∧ (runState core.val c = 1 ∨ runState core.val c = 2) then coreFault core 0x0105 c
    else c

/-! ### Replacement -/

/-- The address of a member's slot in the restart area (R178). -/
def restartSlot (pool member : Nat) (c : Chip) : Nat := rd (Reg.CHN_RESTART pool) c + 512 * member

/-- The bytes of a restart record (R178): P, V, ACC, the PC after the mark, `MARK_COUNT`, in that order. -/
def restartBytes (n : Fin 336) (k : CoreSt) (c : Chip) : List Nat :=
  coreRegBytes k ++ leBytes 8 (k.pc + 4) ++ leBytes 8 (rd (Reg.CC_MARK_COUNT n.val) c) ++ List.replicate 176 0

/-- The core registers of a restart record. -/
def restartCore (b : List Nat) : CoreSt :=
  let w := fun off n => leNat ((b.drop off).take n)
  let regs := fun base => (List.range 16).foldl (fun (m : SMap Word) j => mapPut 0 m j (BitVec.ofNat 64 (w (base + 8 * j) 8))) []
  { CoreSt.reset with
    p := regs 0, v := regs 128
    acc := (List.range 4).foldl (fun (m : SMap Acc) j => mapPut 0 m j (BitVec.ofNat 128 (w (256 + 16 * j) 16))) []
    pc := w 320 8, marked := true }

/-- The replacement stands HELD (R181 step 6): it has the failed core's bindings and entry, the pool's image, the registers
of the latest mark or zeroed ones and `ENTRY`, counts 0 and a scratchpad of 0. -/
def replacementReady (n : Fin 336) (r : Reissue) (c : Chip) : Chip :=
  let f := r.failed
  let pool := rd (Reg.CC_POOL f) c
  let member := rd (Reg.CC_MEMBER f) c
  let own := (poolOwner pool c).getD 0xFFFF
  let marked := match h : (f < 336 : Bool) with
    | true => (getCore (.churn ⟨f, by simpa using h⟩) c).marked
    | false => false
  let c := wr (Reg.CC_MEMBER n.val) member (wr (Reg.CC_POOL n.val) pool c)
  let c := wr (Reg.CC_WDOG_LIMIT n.val) (rd (Reg.CC_WDOG_LIMIT f) c) (wr (Reg.CC_ENTRY n.val) (rd (Reg.CC_ENTRY f) c) c)
  let c := (List.range 8).foldl (fun c i =>
    let line := rd (Reg.CC_IN_LINE f i) c
    let on := rdb (Reg.CC_IN_BOUND f i) c
    let c := wr (Reg.CC_IN_COUNT n.val i) 0 (wrb (Reg.CC_IN_BOUND n.val i) on (wr (Reg.CC_IN_LINE n.val i) line c))
    if on then bindConsumer line (.core n.val i) c else c) c
  let c := (List.range 4).foldl (fun c j =>
    let line := rd (Reg.CC_OUT_LINE f j) c
    let on := rdb (Reg.CC_OUT_BOUND f j) c
    let c := wrb (Reg.CC_OUT_BOUND n.val j) on (wr (Reg.CC_OUT_LINE n.val j) line c)
    if on then bindProducer line (corePage n.val) j c else c) c
  let c := movePieces 0x40000 (route own (rd (Reg.CHN_IMAGE pool) c) 0x10000 c) [⟨.mem (spImem n.val) 0, 0x10000⟩] c
  let c := zero (spSpad n.val) 0 0x100000 c
  let b := (readRange own (restartSlot pool member c) 512 c).1
  let k := if marked then restartCore b else { CoreSt.reset with pc := rd (Reg.CC_ENTRY n.val) c * 4 }
  let c := setCore (.churn n) k c
  let c := if marked then wr (Reg.CC_MARK_COUNT n.val) (leNat ((b.drop 328).take 8)) (wr (Reg.CC_MARK_PC n.val) (rd (Reg.CC_MARK_PC f) c) c) else c
  let c := wr (Hdr.STATE (corePage n.val)) 2 (wr (Hdr.EN (corePage n.val)) 1 (wr (Reg.CC_RUN_STATE n.val) 5 c))
  raise 0x60 0x0202 0
    { c with numbered := setAdd c.numbered n.val
             reissues := c.reissues.map fun x => if x.repl = n.val then { x with ready := true } else x }

/-- REPLACEMENT_READY: the spare chosen for a member has woken. -/
def execReplacementReady (core : Fin 336) : State → Host.Outcome State Fault Refusal :=
  onChip fun c =>
    match c.reissues.find? fun r => r.repl == core.val && !r.ready with
    | some r => if domAwake core.val c then replacementReady core r c else c
    | none => c

/-- MEMBER_RESTART_CMD: the owner's write of CHN 0x10C lets the held member restart at the next Milestone edge (R181, R183). -/
def memberRelease (value : Nat) (c : Chip) : Chip :=
  { c with reissues := c.reissues.map fun r =>
      if rd (Reg.CC_POOL r.repl) c = bits value 4 0 ∧ rd (Reg.CC_MEMBER r.repl) c = bits value 16 8 ∧ r.ready
      then { r with released := true } else r }

def execMemberRestartCmd (p : Party) (value : Nat) : State → Host.Outcome State Fault Refusal :=
  onChip (regAccess p 0x60 0x10C value (memberRelease value))

/-- A HELD member restarts at a Milestone edge: with `AUTO_RESTART`, or once its owner has released it (R172, R181). -/
def memberRestart (n : Nat) (c : Chip) : Chip :=
  if rd (Reg.CC_RUN_STATE n) c = 5 ∧ (c.reissues.any fun r => r.repl == n && r.ready &&
      (r.released || rdb (Reg.CHN_AUTO_RESTART (rd (Reg.CC_POOL n) c)) c)) = true then
    { wr (Reg.CC_RUN_STATE n) 1 c with reissues := c.reissues.filter fun r => r.repl != n }
  else c

/-- MEMBER_RESTART. -/
def execMemberRestart (core : Fin 336) : State → Host.Outcome State Fault Refusal := onChip (memberRestart core.val)

/-! ### Ends of tile operations and waits -/

/-- TILE_OP_END (R152, R153, R158). A poisoned operand traps at an instruction boundary, and so not within a WAIT (R215). -/
def execTileOpEnd (core : Fin 336) : State → Host.Outcome State Fault Refusal :=
  onChip fun c =>
    match (getCore (.churn core) c).tile with
    | some o => if runState core.val c = 2 ∧ opPoisoned core.val o c = true then c else finishTile core c
    | none => c

/-- POISON_TRAP: the running tile operation has met the poisoned line at `addr` (R158, R215). -/
def execPoisonTrap (core : Fin 336) (addr : Nat) : State → Host.Outcome State Fault Refusal :=
  onChip fun c =>
    match (getCore (.churn core) c).tile with
    | some o =>
      if runState core.val c = 1 ∧ anyPoison (spSpad core.val) addr 1 c = true then flushSigs core (tilePoison core o addr c) else c
    | none => c

/-- WAIT_END: the count of the slot has reached the one waited for; it is subtracted (R162–R164). The tile cycles that
passed are a free value; WAIT.M goes on waiting for the Milestone edge. -/
def waitEnd (n : Fin 336) (c : Chip) : Chip :=
  let k := getCore (.churn n) c
  match k.wait with
  | some w =>
    let h := rd (Reg.CC_IN_COUNT n.val w.slot) c
    if w.met || decide (h < w.count) || !working (corePage n.val) c then c
    else
      let c := wr (Reg.CC_IN_COUNT n.val w.slot) (h - w.count) c
      if w.edge then setCore (.churn n) { k with wait := some { w with met := true } } c
      else waitResume n false (freeVal c).toNat (useFree c)
  | none => c

/-- WAIT_END. -/
def execWaitEnd (core : Fin 336) : State → Host.Outcome State Fault Refusal := onChip (waitEnd core)

/-- WAIT_TIMEOUT: the wait ends without subtracting, with `WAITF` 1 (R162). -/
def execWaitTimeout (core : Fin 336) : State → Host.Outcome State Fault Refusal :=
  onChip fun c =>
    match (getCore (.churn core) c).wait with
    | some w =>
      if w.timeout ≠ 0 ∧ w.met = false ∧ working (corePage core.val) c = true then waitResume core true w.timeout c else c
    | none => c

/-- What a Milestone edge does on core `n`: a satisfied WAIT.M resumes (R164); a restart mark writes its record and goes on
(R178), or stops there when its stall is frozen (R749); the tile cycles that passed are a free value. -/
def edgeCore (n : Fin 336) (c : Chip) : Chip :=
  let k := getCore (.churn n) c
  if !working (corePage n.val) c then c
  else if (k.wait.map (·.met)).getD false then waitResume n false (freeVal c).toNat (useFree c)
  else if k.mark then
    let pool := rd (Reg.CC_POOL n.val) c
    let c := bump (Reg.CC_MARK_COUNT n.val) 1 (wr (Reg.CC_MARK_PC n.val) k.pc c)
    let c := devWrite ((poolOwner pool c).getD 0xFFFF) (restartSlot pool (rd (Reg.CC_MEMBER n.val) c) c) (restartBytes n k c) c
    let c := retire (.churn n) (freeVal c).toNat
      (setCore (.churn n) { k with mark := false, marked := true, pc := k.pc + 4 } (useFree c))
    if rd (Reg.CHN_KIND pool) c = 3 ∧ c.freezing.elem (rd (Reg.CHN_STALL pool) c) = true then
      wr (Reg.CC_RUN_STATE n.val) 0 { c with stlMembers := setAdd c.stlMembers n.val }
    else c
  else memberRestart n.val c

end Sys2Proof.Machine
end

