-- ==== Sys2Proof/Machine/Coll.lean ====
section
/-! DEFINITION. The collective sequencer (chapter 09): groups, descriptors, the exchange of partials, results, failure and stop. -/

namespace Sys2Proof.Machine

/-! ### Descriptors and groups -/

/-- Bits of a descriptor (R386). -/
def colF (d : List Nat) (off hi lo : Nat) : Nat := bits (leNat d) (8 * off + hi) (8 * off + lo)
def colOp (d : List Nat) : Nat := colF d 0 3 0
def colAlgo (d : List Nat) : Nat := colF d 0 5 4
def colFmtIn (d : List Nat) : Nat := colF d 0 11 8
def colFmtOut (d : List Nat) : Nat := colF d 0 15 12
/-- The wire width: 1 for W64, 0 for W32. -/
def colWire (d : List Nat) : Nat := 1 - colF d 0 16 16
def colSat (d : List Nat) : Bool := colF d 0 17 17 == 1
def colN (d : List Nat) : Nat := colF d 8 40 0
def colOff (d : List Nat) : Nat := colF d 0x10 47 0
def colRoot (d : List Nat) : Nat := colF d 4 31 16
def colReduces (d : List Nat) : Bool := decide (colOp d ≤ 1)

/-- Fields of a group entry (R381). -/
def groupP (g : Nat) (c : Chip) : Nat := groupF g 0 16 0 c
def groupSources (g : Nat) (c : Chip) : Nat := groupF g 0 23 20 c
def groupQueue (g : Nat) (c : Chip) : Nat := groupF g 0 27 24 c
def groupRank (g : Nat) (c : Chip) : Nat := groupF g 4 15 0 c
def groupTag (g : Nat) (c : Chip) : Nat := groupF g 4 31 16 c
def groupContrib (g : Nat) (c : Chip) : Nat := groupF g 0x10 19 0 c
def groupOwner (g : Nat) (c : Chip) : Nat := groupF g 0x14 15 0 c
def groupSeq (g : Nat) (c : Chip) : Nat := groupF g 0x20 31 0 c
def groupValid (g : Nat) (c : Chip) : Bool := groupF g 0x24 0 0 c == 1
/-- The device of a rank (R381). -/
def rankDev (g r : Nat) (c : Chip) : Nat := ld spDev (groupF g 8 63 0 c + 2 * r) 2 c

/-- First element of the shard of rank `r` among `q` ranks (R389). -/
def shardStart (n q r : Nat) : Nat := r * n / q
/-- The rank among `q` whose shard holds element `i` (R389). -/
def shardOf (n q i : Nat) : Nat := ((i + 1) * q - 1) / n

/-- The greatest power of two not above `p` (R401), and its logarithm. -/
def powBelow (p : Nat) : Nat := 2 ^ p.log2

/-- CRC-32 of IEEE 802.3 (R405), bit by bit. -/
def crcByte : Nat → Nat → Nat
  | 0, r => r
  | k + 1, r => crcByte k (if r % 2 = 1 then (r / 2) ^^^ 0xEDB88320 else r / 2)
def crc32 (bs : List Nat) : Nat := (bs.foldl (fun r b => crcByte 8 (r ^^^ (b % 256))) 0xFFFFFFFF) ^^^ 0xFFFFFFFF

/-- `PARAM_CHECK` of a descriptor (R405). -/
def paramCheck (d : List Nat) (contrib : Nat) : Nat :=
  crc32 (leBytes 4 (setBits (colF d 0 31 0) 18 2 0) ++ leBytes 2 (colRoot d) ++ [0, 0] ++ leBytes 8 (colF d 8 63 0) ++
    leBytes 8 (colF d 0x10 63 0) ++ leBytes 4 contrib) % 2 ^ 16

/-! ### Endpoints (R387) -/

/-- The space in which a queue's ring and its lists lie. -/
def colSpace (q : Nat) (c : Chip) : Nat := ownerSpace (rd (Reg.COL_OWNER q) c) c

/-- Endpoint `i` of a list. -/
def endpoint (q list i : Nat) (c : Chip) : Spot :=
  let sp := colSpace q c
  let w := ld sp (list + 16 * i + 8) 8 c
  { target := bits w 2 0, port := bits w 5 3, act := 7, addr := ld sp (list + 16 * i) 8 c, owner := rd (Reg.COL_OWNER q) c }

/-- An endpoint of `n` bytes lies in reach (R387). -/
def endpointOk (s : Spot) (n : Nat) (c : Chip) : Bool :=
  (if isStallCode s.owner then
     (decide (s.target < 2) && stallHome s.owner c == s.target &&
        (n == 0 || (stallMaps s.owner c).any fun r => decide (r.1 ≤ s.addr) && decide (s.addr + n ≤ r.1 + r.2))) ||
     (s.target == 2 && reachesSpur s.owner s.port c)
   else decide (s.target ≤ 3)) &&
  !((spotPieces s n c).any fun p => (readFrom p.dest).isNone)

/-- Elements that this member reads from each source (R390). -/
def colInCount (r : ColRun) (c : Chip) : Nat :=
  let n := colN r.desc
  match colOp r.desc with
  | 0 => n
  | 1 => n
  | 2 => let p := groupP r.group c; let k := groupRank r.group c; shardStart n p (k + 1) - shardStart n p k
  | 3 => if groupRank r.group c = colRoot r.desc then n else 0
  | 4 => n
  | _ => 0

/-- The source endpoints that the operation reads. -/
def colSources (r : ColRun) (c : Chip) : List Spot :=
  let k := if colReduces r.desc then groupSources r.group c else 1
  if colInCount r c = 0 then [] else (List.range k).map fun i => endpoint r.queue (colF r.desc 0x18 63 0) i c

/-- The bytes of source `s`. -/
def colSrcBytes (r : ColRun) (s : Nat) (c : Chip) : List Nat :=
  match (colSources r c)[s]? with
  | some e => (spotRead e (elemBytes (colFmtIn r.desc) (colInCount r c)) c).1
  | none => []

/-- Element `i` of source `s`, as its code. -/
def colElem (r : ColRun) (s i : Nat) (c : Chip) : Nat :=
  let b := colSrcBytes r s c
  elemCode (colFmtIn r.desc) (fun j => b.getD j 0) i

/-- Element `i` of source `s`, as its value. -/
def colNum (r : ColRun) (s i : Nat) (c : Chip) : Num := decodeElem (colFmtIn r.desc) (colElem r s i c)

/-- The destination endpoints. -/
def colDests (r : ColRun) (c : Chip) : List Spot :=
  (List.range (colF r.desc 0x28 3 0)).map fun i => endpoint r.queue (colF r.desc 0x20 63 0) i c

/-! ### Segments received -/

/-- Bytes of one element of a phase's payload times 8, by format: anchor bytes, wire partials, or packed elements. -/
def segElem (r : ColRun) (s : Segment) (i : Nat) : Option Nat :=
  let byte := fun j => s.payload.getD j 0
  match s.phase with
  | 0 =>
    let b0 := (colOff r.desc + s.start) / 256
    let b := (colOff r.desc + i) / 256
    if b0 ≤ b ∧ b - b0 < s.payload.length ∧ s.start ≤ i + 255 then some (byte (b - b0)) else none
  | 1 =>
    let w := wireBits (colWire r.desc) / 8
    if s.start ≤ i ∧ (i - s.start + 1) * w ≤ s.payload.length then
      some (leNat ((List.range w).map fun q => byte (w * (i - s.start) + q)))
    else none
  | _ =>
    let f := colFmtOut r.desc
    if s.start ≤ i ∧ elemBytes f (i - s.start + 1) ≤ s.payload.length then some (elemCode f byte (i - s.start)) else none

/-- The value that a rank sent for element `i` in a step. -/
def colRecv (r : ColRun) (phase step rank i : Nat) : Option Nat :=
  r.segs.findSome? fun s => if s.phase = phase ∧ s.step = step ∧ s.rank = rank then segElem r s i else none

/-! ### The exponent pre-pass (R395) -/

/-- The anchor byte of a block over this member's sources (R137). -/
def anchorLocal (r : ColRun) (b : Nat) (c : Chip) : Nat :=
  let lo := b * 256 - colOff r.desc
  let hi := min (colN r.desc) ((b + 1) * 256 - colOff r.desc)
  (List.range (groupSources r.group c)).foldl (fun m s =>
    (List.range (hi - lo)).foldl (fun m j => max m (anchorByte (colFmtIn r.desc) (colNum r s (lo + j) c))) m) 0

/-- The maximum held by rank r < P′ before it sends its step `k` (1 to log2 P′), for the block of element `i`. -/
def anchorBefore (r : ColRun) (i k : Nat) (c : Chip) : Option Nat :=
  let me := groupRank r.group c
  let p := groupP r.group c
  let p' := powBelow p
  let m0 := anchorLocal r ((colOff r.desc + i) / 256) c
  let start := if me + p' < p then (colRecv r 0 0 (me + p') i).map (max m0 ·) else some m0
  (List.range (k - 1)).foldl (fun m j =>
    match m, colRecv r 0 (j + 1) (Nat.xor me (2 ^ j)) i with
    | some a, some b => some (max a b)
    | _, _ => none) start

/-- The final anchor byte of the block of element `i`, once known (R116). -/
def anchorFinal (r : ColRun) (i : Nat) (c : Chip) : Option Nat :=
  let me := groupRank r.group c
  let p' := powBelow (groupP r.group c)
  if p' ≤ me then colRecv r 0 (p'.log2 + 1) (me - p') i else anchorBefore r i (p'.log2 + 1) c

/-- What the pre-pass sends for element `i`: (step, rank, value). -/
def anchorSends (r : ColRun) (i : Nat) (c : Chip) : List (Nat × Nat × Option Nat) :=
  let me := groupRank r.group c
  let p := groupP r.group c
  let p' := powBelow p
  if p = 1 then []
  else if p' ≤ me then [(0, me - p', some (anchorLocal r ((colOff r.desc + i) / 256) c))]
  else
    ((List.range p'.log2).map fun j => (j + 1, Nat.xor me (2 ^ j), anchorBefore r i (j + 1) c)) ++
    (if me + p' < p then [(p'.log2 + 1, me + p', anchorBefore r i (p'.log2 + 1) c)] else [])

/-! ### Partials (R396–R401) -/

/-- The wire grid of element `i`, once its anchor is known (R116, R134). -/
def colL (r : ColRun) (i : Nat) (c : Chip) : Option Int :=
  let f := colFmtIn r.desc
  if isAnchored f then (anchorFinal r i c).map fun b => wireL (colWire r.desc) f (anchorOfByte f b)
  else some (wireL (colWire r.desc) f 0)

/-- The local partial of element `i` (R396). -/
def colLocal (r : ColRun) (i : Nat) (c : Chip) : Option Wire :=
  (colL r i c).map fun l =>
    match (List.range (groupSources r.group c)).map fun s => wireOf l (colNum r s i c) with
    | [] => .int 0
    | w :: t => t.foldl wireAdd w

/-- A received partial. -/
def wireFrom (r : ColRun) (v : Nat) : Option Wire :=
  wireRead (colWire r.desc) (toSigned (wireBits (colWire r.desc)) v)

/-- A partial with what rank `k` sent in a step. -/
def wireJoin (r : ColRun) (step k i : Nat) (a : Option Wire) : Option Wire :=
  match a, (colRecv r 1 step k i).bind (wireFrom r) with
  | some a, some b => some (wireAdd a b)
  | _, _ => none

/-- The depth of a rank in the heap tree. -/
def treeDepth (k : Nat) : Nat := (k + 1).log2
/-- The children of a rank. -/
def treeKids (p k : Nat) : List Nat := [2 * k + 1, 2 * k + 2].filter fun x => decide (x < p)

/-- The owner of element `i` (R401). -/
def colOwner (r : ColRun) (i : Nat) (c : Chip) : Nat :=
  let n := colN r.desc
  let p := groupP r.group c
  match colAlgo r.desc with
  | 0 => shardOf n p i
  | 1 => 0
  | _ => shardOf n (powBelow p) i

/-- The halving steps of rank `me` < P′ for an element of shard `q`: from the largest distance down, joined while the bits of
`me` and `q` agree; answers the partial before the step that sends it, that step, and its partner; or the owner's partial. -/
def halving (r : ColRun) (me q i : Nat) : Nat → Nat → Option Wire → Option Wire × Option (Nat × Nat)
  | 0, _, v => (v, none)
  | k + 1, j, v =>
    let d := 2 ^ k
    if (me / d) % 2 = (q / d) % 2 then halving r me q i k (j + 1) (wireJoin r (j + 1) (Nat.xor me d) i v)
    else (v, some (j + 1, Nat.xor me d))

/-- This member's partial of element `i` on its path, and where it sends it: (step, rank), or nowhere at the owner. -/
def colPath (r : ColRun) (i : Nat) (c : Chip) : Option Wire × Option (Nat × Nat) :=
  let p := groupP r.group c
  let me := groupRank r.group c
  let n := colN r.desc
  let loc := colLocal r i c
  match colAlgo r.desc with
  | 0 =>
    let k := (me + 2 * p - shardOf n p i - 1) % p
    let v := if k = 0 then loc else wireJoin r (k - 1) ((me + p - 1) % p) i loc
    (v, if k + 1 = p then none else some (k, (me + 1) % p))
  | 1 =>
    let v := (treeKids p me).foldl (fun v x => wireJoin r (treeDepth x) x i v) loc
    (v, if me = 0 then none else some (treeDepth me, (me - 1) / 2))
  | _ =>
    let p' := powBelow p
    if p' ≤ me then (loc, some (0, me - p'))
    else
      let v := if me + p' < p then wireJoin r 0 (me + p') i loc else loc
      halving r me (shardOf n p' i) i p'.log2 0 v

/-! ### Results -/

/-- The element that this member gathers in, once it has it: the owner's own rounding (R397), a copy of its own input, or what
came by the reverse path (R390, R401, R402); with the flag that it saturated. -/
def colResult (r : ColRun) (i : Nat) (c : Chip) : Option (Nat × Bool) :=
  let p := groupP r.group c
  let me := groupRank r.group c
  let n := colN r.desc
  let d := r.desc
  let got := fun (phase step rank : Nat) => (colRecv r phase step rank i).map fun v => (v, false)
  match colOp d with
  | 2 =>
    let s := shardOf n p i
    if s = me then some (colElem r 0 (i - shardStart n p me) c, false) else got 2 0 s
  | 3 => if me = colRoot d then some (colElem r 0 i c, false) else got 3 0 (colRoot d)
  | _ =>
    let o := colOwner r i c
    if o = me then
      match (colPath r i c).1, colL r i c with
      | some v, some l => some (sumResult (colFmtOut d) (colSat d) l (wireSum v))
      | _, _ => none
    else if colOp d = 1 then got 2 0 o
    else match colAlgo d with
      | 0 => got 2 ((o + 2 * p - me - 1) % p) ((me + 1) % p)
      | 1 => got 3 (treeDepth ((me - 1) / 2)) ((me - 1) / 2)
      | _ =>
        let p' := powBelow p
        if p' ≤ me then got 2 p'.log2 (me - p')
        else let t := (Nat.xor me o).log2; got 2 t (Nat.xor me (2 ^ t))

/-- Where this member passes the result of element `i` on: (phase, step, rank). -/
def colPass (r : ColRun) (i : Nat) (c : Chip) : List (Nat × Nat × Nat) :=
  let p := groupP r.group c
  let me := groupRank r.group c
  let n := colN r.desc
  let others := (List.range p).filter fun k => k != me
  match colOp r.desc with
  | 0 =>
    let o := colOwner r i c
    match colAlgo r.desc with
    | 0 => let k := (o + p - me) % p; if k + 1 < p then [(2, k, (me + p - 1) % p)] else []
    | 1 => (treeKids p me).map fun x => (3, treeDepth me, x)
    | _ =>
      let p' := powBelow p
      if p' ≤ me then []
      else
        let t0 := if me = o then 0 else (Nat.xor me o).log2 + 1
        ((List.range p'.log2).filter fun t => decide (t0 ≤ t)).map (fun t => (2, t, Nat.xor me (2 ^ t))) ++
        (if me + p' < p then [(2, p'.log2, me + p')] else [])
  | 1 =>
    let k := shardOf n p i
    if colOwner r i c = me ∧ k ≠ me then [(2, 0, k)] else []
  | 2 => if shardOf n p i = me then others.map fun k => (2, 0, k) else []
  | 3 => if me = colRoot r.desc then others.map fun k => (3, 0, k) else []
  | _ => []

/-- The elements of this member's output: the first, and how many (R390). -/
def colOutRange (r : ColRun) (c : Chip) : Nat × Nat :=
  let n := colN r.desc
  let p := groupP r.group c
  let me := groupRank r.group c
  match colOp r.desc with
  | 1 => (shardStart n p me, shardStart n p (me + 1) - shardStart n p me)
  | 5 => (0, 0)
  | _ => (0, n)

/-! ### ALL_TO_ALL and BARRIER -/

/-- Elements that this member sends to, and receives from, rank `k` (R390): the shards of equal counts, or the `SPLIT_TABLE`'s P
counts to send followed by its P counts to receive, 8 B each (DESIGN CHOICE, log entry 27). -/
def splitSend (r : ColRun) (k : Nat) (c : Chip) : Nat :=
  let p := groupP r.group c
  let t := colF r.desc 0x30 63 0
  if t = 0 then shardStart (colN r.desc) p (k + 1) - shardStart (colN r.desc) p k else ld (colSpace r.queue c) (t + 8 * k) 8 c
def splitRecv (r : ColRun) (k : Nat) (c : Chip) : Nat :=
  let p := groupP r.group c
  let me := groupRank r.group c
  let t := colF r.desc 0x30 63 0
  if t = 0 then shardStart (colN r.desc) p (me + 1) - shardStart (colN r.desc) p me else ld (colSpace r.queue c) (t + 8 * (p + k)) 8 c
def splitStart (r : ColRun) (k : Nat) (c : Chip) : Nat := ((List.range k).map fun j => splitSend r j c).sum

/-- The block received from rank `k`, once it is whole. -/
def blockFrom (r : ColRun) (k : Nat) (c : Chip) : Option (List Nat) :=
  let me := groupRank r.group c
  (List.range (splitRecv r k c)).foldr (fun i acc =>
    match (if k = me then some (colElem r 0 (splitStart r me c + i) c) else colRecv r 4 0 k i), acc with
    | some x, some l => some (x :: l)
    | _, _ => none) (some [])

/-! ### Sending -/

/-- The tile of element `i`: tiles are cut at global indices that are multiples of 65,536. -/
def colTile (r : ColRun) (i : Nat) : Nat := (colOff r.desc + i) / 65536

/-- The elements of the collective by tile: (tile, first element, count). -/
def colTiles (r : ColRun) : List (Nat × Nat × Nat) :=
  let n := colN r.desc
  let o := colOff r.desc
  (List.range ((o + n - 1) / 65536 + 1 - o / 65536)).map fun j =>
    let t := o / 65536 + j
    let lo := t * 65536 - o
    (t, lo, min n ((t + 1) * 65536 - o) - lo)

/-- A segment posted on `COL_QP` (R404). -/
def segPost (r : ColRun) (phase step rank start : Nat) (sat byStop : Bool) (payload : List Nat) (c : Chip) : Chip :=
  let qp := rd Reg.COL_COL_QP c
  let g := r.group
  let opf := leBytes 4 r.seq ++ leBytes 4 (g + phase * 2 ^ 12 + step % 2 ^ 16 * 2 ^ 16) ++
    leBytes 4 (groupRank g c + paramCheck r.desc (groupContrib g c) * 2 ^ 16) ++ leBytes 8 (start + b2n sat * 2 ^ 40 + b2n byStop * 2 ^ 41)
  (postMsg qp 8 (rankDev g rank c) qp (groupTag g c) payload.length none none payload opf (bump (Reg.COL_CTR 3) 1 c)).2

/-- The bytes of consecutive values in a phase. -/
def segBytes (r : ColRun) (phase : Nat) (vals : List Nat) : List Nat :=
  match phase with
  | 0 => vals
  | 1 => vals.flatMap (leBytes (wireBits (colWire r.desc) / 8))
  | _ => packCodes (colFmtOut r.desc) vals

/-- Everything that element `i` sends: (phase, step, rank), value, saturation. -/
def colSends (r : ColRun) (i : Nat) (c : Chip) : List ((Nat × Nat × Nat) × Option (Nat × Bool)) :=
  let w := colWire r.desc
  (if colReduces r.desc then
     (if isAnchored (colFmtIn r.desc) then (anchorSends r i c).map fun s => ((0, s.1, s.2.1), s.2.2.map (·, false)) else []) ++
     (match colPath r i c with
      | (v, some (step, k)) => [((1, step, k), v.map fun x => (ofSigned (wireBits w) (wireInt w x), false))]
      | (_, none) => [])
   else []) ++
  (colPass r i c).map fun s => (s, colResult r i c)

/-- The distinct destinations among the elements of a range. -/
def colKeys (r : ColRun) (lo n : Nat) (c : Chip) : List (Nat × Nat × Nat) :=
  (List.range n).foldl (fun ks j => (colSends r (lo + j) c).foldl (fun ks s => if ks.elem s.1 then ks else ks ++ [s.1]) ks) []

/-- The first element of each anchor block in a range, for the ANCHOR phase. -/
def blockFirsts (r : ColRun) (lo n : Nat) : List Nat :=
  (List.range n).filterMap fun j => if j = 0 ∨ (colOff r.desc + lo + j) % 256 = 0 then some (lo + j) else none

/-- The segment of one destination in a tile, when all its values are known: first element, values, saturation. -/
def colSegment (r : ColRun) (key : Nat × Nat × Nat) (lo n : Nat) (c : Chip) : Option (Nat × List Nat × Bool) :=
  let is := if key.1 = 0 then blockFirsts r lo n else (List.range n).map (lo + ·)
  let mine := is.filterMap fun i => ((colSends r i c).find? fun s => s.1 == key).map fun s => (i, s.2)
  match mine with
  | [] => none
  | (i0, _) :: _ =>
    if mine.all fun x => x.2.isSome then
      some (i0, mine.map (fun x => (x.2.map (·.1)).getD 0), mine.any fun x => (x.2.map (·.2)).getD false)
    else none

/-- A run replaced. -/
def setRun (r : ColRun) (c : Chip) : Chip :=
  { c with colRuns := c.colRuns.map fun x => if x.queue == r.queue then r else x }

/-- The run of a queue. -/
def runOf (q : Nat) (c : Chip) : Option ColRun := c.colRuns.find? fun r => r.queue == q

/-- One tile's segments sent as far as they are known. -/
def colSendTile (q : Nat) (t : Nat × Nat × Nat) (c : Chip) : Chip :=
  match runOf q c with
  | none => c
  | some r =>
    (colKeys r t.2.1 t.2.2 c).foldl (fun c k =>
      match runOf q c with
      | none => c
      | some r =>
        let mark := (k.1, k.2.1, k.2.2, t.1)
        if r.sent.elem mark then c
        else match colSegment r k t.2.1 t.2.2 c with
          | some (i0, vals, sat) =>
            let c := if k.1 = 0 then bump (Reg.COL_CTR 2) vals.length c else c
            segPost r k.1 k.2.1 k.2.2 i0 sat false (segBytes r k.1 vals) (setRun { r with sent := r.sent ++ [mark] } c)
          | none => c) c

/-- The blocks of ALL_TO_ALL, in pieces of at most 65,536 elements, and the segments of BARRIER. -/
def colSendDirect (q : Nat) (c : Chip) : Chip :=
  match runOf q c with
  | none => c
  | some r =>
    let me := groupRank r.group c
    ((List.range (groupP r.group c)).filter fun k => k != me).foldl (fun c k =>
      match runOf q c with
      | none => c
      | some r =>
        if r.sent.elem (4, 0, k, 0) then c
        else
          let c := setRun { r with sent := r.sent ++ [(4, 0, k, 0)] } c
          if colOp r.desc = 5 then segPost r 5 0 k 0 false false [0] c
          else
            let n := splitSend r k c
            (List.range (ceilDiv n 65536)).foldl (fun c j =>
              let m := min 65536 (n - 65536 * j)
              segPost r 4 0 k (65536 * j) false false
                (packCodes (colFmtOut r.desc) ((List.range m).map fun i => colElem r 0 (splitStart r k c + 65536 * j + i) c)) c) c) c

/-- The whole output of a run, once every element of it is known: codes, and saturation. -/
def colOutput (r : ColRun) (c : Chip) : Option (List Nat × Bool) :=
  if colOp r.desc = 5 then
    if (List.range (groupP r.group c)).all fun k => k == groupRank r.group c || r.segs.any fun s => s.phase == 5 && s.rank == k
    then some ([], false) else none
  else if colOp r.desc = 4 then
    ((List.range (groupP r.group c)).foldr (fun k acc =>
      match blockFrom r k c, acc with
      | some b, some l => some (b ++ l)
      | _, _ => none) (some [])).map (·, false)
  else
    let o := colOutRange r c
    (List.range o.2).foldr (fun j acc =>
      match colResult r (o.1 + j) c, acc with
      | some x, some l => some (x.1 :: l.1, x.2 || l.2)
      | _, _ => none) (some ([], false))

/-- Every segment that this run owes has been sent. -/
def colAllSent (r : ColRun) (c : Chip) : Bool :=
  if colOp r.desc = 4 ∨ colOp r.desc = 5 then
    (List.range (groupP r.group c)).all fun k => k == groupRank r.group c || r.sent.elem (4, 0, k, 0)
  else (colTiles r).all fun t => (colKeys r t.2.1 t.2.2 c).all fun k => r.sent.elem (k.1, k.2.1, k.2.2, t.1)

/-- ABORT to every other member of a group (R405, R409, R412). -/
def sendAborts (r : ColRun) (byStop : Bool) (c : Chip) : Chip :=
  ((List.range (groupP r.group c)).filter fun k => k != groupRank r.group c).foldl
    (fun c k => segPost r 0xF 0 k 0 false byStop [0] c) c

/-- A run ends with a status found on this member; a failure is told to the members. -/
def colFail (q status failRank : Nat) (c : Chip) : Chip :=
  match runOf q c with
  | none => c
  | some r =>
    if r.status.isSome then c
    else
      let c := setRun { r with status := some status, failRank := failRank } c
      if status = 5 ∨ status = 7 ∨ status = 8 then sendAborts r false c else c

/-- A run's sources checked: 8 for an endpoint outside reach, 7 for poison (R387, R400), 0 otherwise. -/
def colSourceState (r : ColRun) (c : Chip) : Nat :=
  let n := elemBytes (colFmtIn r.desc) (colInCount r c)
  if (colSources r c).any fun s => !endpointOk s n c then 8
  else if (colSources r c).any fun s => (spotRead s n c).2 then 7
  else 0

/-- A run goes as far as what it has allows: sources checked, segments sent, and SUCCESS once its output is known. -/
def colAdvance (q : Nat) (c : Chip) : Chip :=
  match runOf q c with
  | none => c
  | some r =>
    if r.status.isSome || !working 0x61 c then c
    else
      let st := colSourceState r c
      if st ≠ 0 then colFail q st 0 c
      else
        let c := if colOp r.desc = 4 ∨ colOp r.desc = 5 then colSendDirect q c else (colTiles r).foldl (fun c t => colSendTile q t c) c
        match runOf q c with
        | none => c
        | some r => match colOutput r c with
          | some o =>
            if colAllSent r c then
              setRun { r with status := some 0, satAny := o.2 || r.segs.any (fun s => (s.phase == 2 || s.phase == 3) && s.sat) } c
            else c
          | none => c

/-! ### Starting and ending descriptors -/

/-- A reduction's formats are those that R391 admits. -/
def colFormatsOk (d : List Nat) : Bool :=
  if colReduces d then
    let f := colFmtIn d
    let o := colFmtOut d
    (decide (f ≤ 4) || isIntFmt f) && wireOk (colWire d) f && (decide (o ≤ 4) || isIntFmt o) && outSuits (isIntFmt f) o
  else if colOp d = 5 then true
  else colFmtIn d == colFmtOut d && colFmtIn d != 0xF

/-- BAD_DESC (R391): reserved fields, `ALGO` 3, destination count, formats, `ROOT`, element and index ranges (R386, R388). -/
def colBad (d : List Nat) (p : Nat) : Bool :=
  decide (5 < colOp d) || colAlgo d == 3 || colF d 0 7 6 != 0 || colF d 8 63 41 != 0 || colF d 0x10 63 48 != 0 ||
  colF d 0x28 15 4 != 0 || colF d 0x28 63 32 != 0 || (leNat d / 2 ^ (8 * 0x38)) % 2 ^ (8 * 0x40) != 0 ||
  (colOp d != 5 && (colF d 0x28 3 0 == 0 || decide (8 < colF d 0x28 3 0) || colN d == 0 || decide (2 ^ 40 < colN d))) ||
  !colFormatsOk d || (colOp d == 3 && decide (p ≤ colRoot d)) || decide (2 ^ 48 < colOff d + colN d)

/-- Contributions above the limit of the wire (R391). -/
def colTooMany (d : List Nat) (contrib : Nat) : Bool :=
  colReduces d && decide ((if colWire d = 1 then 524288 else 131072) < contrib)

/-- The state of a queue without a run (R411). -/
def colRest (q : Nat) (c : Chip) : Chip :=
  wr (Reg.COL_Q_STATE q)
    (if !rdb (Reg.COL_Q_EN q) c then 0
     else if (runOf q c).isSome then 2
     else if rdb Reg.COL_STOPPED c && rd (Reg.COL_HEAD q) c != rd (Reg.COL_TAIL q) c then 3 else 1) c
def colRestAll (c : Chip) : Chip := (List.range 16).foldl (fun c q => colRest q c) c

/-- Segments held for a collective that starts are placed with it (R384). -/
def colTakeHeld (r : ColRun) (c : Chip) : Chip :=
  let mine := c.colHeld.filter fun s => s.group == r.group && s.seq == r.seq
  let bad := mine.find? fun s => s.check != paramCheck r.desc (groupContrib r.group c)
  let abort := mine.find? fun s => s.phase == 0xF
  let c := { c with colHeld := c.colHeld.filter fun s => !(s.group == r.group && s.seq == r.seq) }
  match abort, bad with
  | some s, _ => setRun { r with status := some (if s.byStop then 0xA else 6), failRank := s.rank } c
  | none, some _ => colFail r.queue 5 0 c
  | none, none => setRun { r with segs := mine } c

/-- The descriptor at the head of queue `q` starts, when its `OP` is `op` (a reserved `OP` starts under any of the six). -/
def colStart (op q : Nat) (c : Chip) : Chip :=
  let h := rd (Reg.COL_HEAD q) c
  if !working 0x61 c || !rdb (Reg.COL_Q_EN q) c || (runOf q c).isSome || h == rd (Reg.COL_TAIL q) c || rdb Reg.COL_STOPPED c ||
     c.colBoundary || !ownerIssues 0 (rd (Reg.COL_OWNER q) c) c then c
  else
    let d := ldBytes (colSpace q c) (rd (Reg.COL_BASE q) c * 4096 + 128 * (h % 2 ^ rd (Reg.COL_LOG2_N q) c)) 128 c
    if colOp d ≠ op ∧ colOp d ≤ 5 then c
    else
      let g := colF d 0 31 20
      let r : ColRun := { queue := q, group := g, seq := groupSeq g c, desc := d, segs := [], sent := [], satAny := false,
                          special := false, status := none, failRank := 0 }
      let start := fun (r : ColRun) (c : Chip) => wr (Reg.COL_Q_STATE q) 2 { c with colRuns := c.colRuns ++ [r] }
      if colF d 4 15 0 ≠ rd (Reg.COL_GEN q) c then start { r with status := some 9 } c
      else if !groupValid g c || groupQueue g c != q then start { r with status := some 3 } c
      else
        let c := putF spDev (groupBase g c + 0x20) 31 0 (groupSeq g c + 1) c
        if colBad d (groupP g c) then start { r with status := some 2 } c
        else if colTooMany d (groupContrib g c) then start { r with status := some 4 } c
        else colAdvance q (colTakeHeld r (start r c))

/-- ALL_REDUCE. -/
def execAllReduce (q : Fin 16) : State → Host.Outcome State Fault Refusal := onChip (colStart 0 q.val)
/-- REDUCE_SCATTER. -/
def execReduceScatter (q : Fin 16) : State → Host.Outcome State Fault Refusal := onChip (colStart 1 q.val)
/-- ALL_GATHER. -/
def execAllGather (q : Fin 16) : State → Host.Outcome State Fault Refusal := onChip (colStart 2 q.val)
/-- BROADCAST. -/
def execBroadcast (q : Fin 16) : State → Host.Outcome State Fault Refusal := onChip (colStart 3 q.val)
/-- ALL_TO_ALL. -/
def execAllToAll (q : Fin 16) : State → Host.Outcome State Fault Refusal := onChip (colStart 4 q.val)
/-- BARRIER. -/
def execBarrier (q : Fin 16) : State → Host.Outcome State Fault Refusal := onChip (colStart 5 q.val)

/-- An output element is NaN, infinite, or −0 (R394). -/
def codeSpecial (f code : Nat) : Bool :=
  if isMx f || isIntFmt f then false
  else match decodeElem f code with
    | .nan => true
    | .inf _ => true
    | .fin s m _ => s && m == 0

/-- The output of a run written to every destination (R387), and the digests of R413. A destination outside reach, or one
whose port is blocked, makes the status SOURCE_ERROR. After a failure the bytes reached are unspecified (R410): a free
number of free bytes; on POISON none is written (R400). -/
def colWriteOut (r : ColRun) (c : Chip) : ColRun × Chip :=
  let f := colFmtOut r.desc
  let o := colOutRange r c
  match r.status, colOutput r c with
  | some 0, some out =>
    let bs := packCodes f out.1
    if (colDests r c).any fun s => !endpointOk s bs.length c then ({ r with status := some 8 }, c)
    else
      let sp := colReduces r.desc && out.1.any (codeSpecial f)
      let c := (colDests r c).foldl (fun c s => spotWrite s bs c) c
      let ctx := colF r.desc 0x28 31 16
      let c := if colF r.desc 0 18 18 = 1 then
          let src := (List.range (colSources r c).length).foldl (fun c s =>
            let b := colSrcBytes r s c
            wmkPass (ctx + s) (colFmtIn r.desc) 0x9007 (colOff r.desc) b.length false (fun j => b.getD j 0) c) c
          wmkPass (ctx + 8) f 0x9007 (colOff r.desc + o.1) bs.length false (fun j => bs.getD j 0) src
        else c
      let c := bump (Reg.COL_CTR 0) 1 (if colReduces r.desc then bump (Reg.COL_CTR 1) (colN r.desc) c else c)
      ({ r with special := sp }, c)
  | some st, _ =>
    if st = 1 ∨ st = 5 ∨ st = 6 ∨ st = 8 ∨ st = 0xA then
      let n := elemBytes f o.2
      let k := (freeVal c).toNat % (n + 1)
      let c := useFree c
      let bs := freeBytes k c
      (r, (colDests r c).foldl (fun c s => spotWrite s bs c) { c with free := c.free + k })
    else (r, c)
  | none, _ => (r, c)

/-- The status quadword (R392). -/
def colQuad (r : ColRun) : Nat :=
  r.status.getD 0 + b2n r.satAny * 2 ^ 8 + b2n r.special * 2 ^ 9 + r.failRank % 2 ^ 16 * 2 ^ 16 + 2 ^ 63

/-- The error that a status sets (R380), as (code, severity). -/
def colErrors (r : ColRun) : List (Nat × Nat) :=
  (match r.status with
   | some 5 => [(0x0602, 2)]
   | some 6 => [(0x0601, 2)]
   | some 7 => [(0x0603, 2)]
   | some 9 => [(0x0605, 0)]
   | _ => []) ++ (if r.satAny then [(0x0607, 0)] else [])

/-- `STOPPED` reads 1 once the boundary is passed and no collective runs (R411). -/
def colStopCheck (c : Chip) : Chip :=
  colRestAll (if c.colBoundary && c.colRuns.isEmpty then wr Reg.COL_STOPPED 1 c else c)

/-- A collective whose status is known ends (R392): output, status quadword, `HEAD`, `DONE`, `LINE`. -/
def collectiveEnd (q : Nat) (c : Chip) : Chip :=
  match runOf q c with
  | none => c
  | some r =>
    if r.status.isNone then c
    else
      let w := colWriteOut r c
      let r := w.1
      let c := w.2
      let h := rd (Reg.COL_HEAD q) c
      let a := rd (Reg.COL_BASE q) c * 4096 + 128 * (h % 2 ^ rd (Reg.COL_LOG2_N q) c)
      let c := ownPut (rd (Reg.COL_OWNER q) c) (a + 0x78) (leBytes 8 (colQuad r)) { c with colRuns := c.colRuns.filter fun x => x.queue != q }
      let c := bump (Reg.COL_DONE q) 1 (bump (Reg.COL_HEAD q) 1 c)
      let c := if r.status = some 9 then c else pulseIf (rdb (Reg.COL_BOUND q) c) (rd (Reg.COL_LINE q) c) c
      let c := raiseAll 0x61 (colErrors r) c
      let c := if rdb Reg.COL_STOP_ARM c && colF r.desc 0 19 19 == 1 && r.status != some 9 then { c with colBoundary := true } else c
      colStopCheck c

/-- COLLECTIVE_END. -/
def execCollectiveEnd (q : Fin 16) : State → Host.Outcome State Fault Refusal := onChip (collectiveEnd q.val)

/-! ### Segments (R384, R385, R404–R408) -/

/-- A segment that is dropped unplaced (R385, R406). -/
def segReject (c : Chip) : Chip := raise 0x61 0x0604 0 c

/-- ABORT of a running collective (R408). -/
def colAbort (group seq rank : Nat) (byStop : Bool) (c : Chip) : Chip :=
  match c.colRuns.find? fun r => r.group == group && r.seq == seq && r.status.isNone with
  | some r => setRun { r with status := some (if byStop then 0xA else 6), failRank := rank } c
  | none => c

/-- A whole segment taken: rejected, dropped as late, held for a later collective, or placed. -/
def colSegTake (s : Segment) (c : Chip) : Chip :=
  if !working 0x61 c then c
  else
    let c := bump (Reg.COL_CTR 4) 1 c
    if !groupValid s.group c || decide (groupP s.group c ≤ s.rank) || rankDev s.group s.rank c != s.dev then segReject c
    else match c.colRuns.find? fun r => r.group == s.group && r.seq == s.seq && r.status.isNone with
      | some r =>
        if s.phase = 0xF then colAbort s.group s.seq s.rank s.byStop c
        else if s.check ≠ paramCheck r.desc (groupContrib s.group c) then colFail r.queue 5 0 c
        else colAdvance r.queue (setRun { r with segs := r.segs ++ [s] } c)
      | none =>
        let back := (groupSeq s.group c + 2 ^ 32 - s.seq) % 2 ^ 32
        if 1 ≤ back ∧ back ≤ 2 ^ 31 then segReject c else { c with colHeld := c.colHeld ++ [s] }

/-- COLL_SEGMENT: a segment that finds no room in staging is answered `BUSY` (R407). -/
def execCollSegment (seg : Segment) : State → Host.Outcome State Fault Refusal :=
  onChip fun c =>
    if working 0x61 c && stagingFull seg.payload.length c then raise 0x61 0x0606 0 (bump (Reg.COL_CTR 5) 1 c) else colSegTake seg c

/-- COLL_ABORT (R408). -/
def execCollAbort (group seq rank : Nat) (byStop : Bool) : State → Host.Outcome State Fault Refusal :=
  onChip (colAbort group seq rank byStop)

/-- MESSAGE_DELIVER (R299, R313, R356). -/
def execMessageDeliver (dev msgId : Nat) : State → Host.Outcome State Fault Refusal := onChip (deliver colSegTake dev msgId)

/-! ### `COL_QP`, groups and stop -/

/-- COL takes `COL_QP` to ACTIVE (R379). -/
def colQpUp (c : Chip) : Chip := let q := rd Reg.COL_COL_QP c; qpActive q (qpReady q c)

/-- COL_QP_RESTART: through RESET, READY and ACTIVE, then the ABORT segments (R409). -/
def execColQpRestart : State → Host.Outcome State Fault Refusal :=
  onChip fun c =>
    let q := rd Reg.COL_COL_QP c
    if qpState q c = 3 ∧ qpOwner q c = 0x9007 ∧ working 0x61 c = true then
      let c := colQpUp (qpForceReset q c)
      c.colAborts.foldl (fun c a =>
        match c.colRuns.find? fun r => r.group == a.1 && r.seq == a.2.1 with
        | some r => sendAborts r a.2.2 c
        | none => c) { c with colAborts := [] }
    else c

/-- The check of VALIDATE (R382). -/
def groupOk (g : Nat) (c : Chip) : Bool :=
  let p := groupP g c
  let devs := (List.range p).map fun r => rankDev g r c
  decide (1 ≤ p) && decide (p ≤ 65536) && groupF g 0 19 17 c == 0 && groupF g 0 31 28 c == 0 && groupF g 0x10 31 20 c == 0 &&
  groupF g 0x10 63 48 c == 0 && ld spDev (groupBase g c + 0x18) 8 c == 0 && decide (groupRank g c < p) &&
  rankDev g (groupRank g c) c == rd Reg.AHN_DEVICE_ID c && decide devs.Nodup && decide (1 ≤ groupSources g c) &&
  decide (groupSources g c ≤ 8) && decide (groupSources g c ≤ groupContrib g c) && decide (groupContrib g c ≤ 524288) &&
  inActivity 7 (groupF g 8 63 0 c) (2 * p) c

/-- A write of the group command register (R382). -/
def groupCommand (p : Party) (g cmd : Nat) (f : Chip → Chip) : Chip → Chip :=
  regAccess p 0x61 0x124 (g + cmd * 2 ^ 12 + 2 ^ 31) fun c =>
    if groupOwner g c = ownerCode p c ∨ (isControl p c = true ∧ isStallCode (groupOwner g c) = true) then f c
    else wr Reg.COL_GROUP_RESULT 1 c

/-- GROUP_VALIDATE. -/
def execGroupValidate (p : Party) (g : Fin 4096) : State → Host.Outcome State Fault Refusal :=
  onChip (groupCommand p g.val 0 fun c =>
    if groupOk g.val c then
      wr Reg.COL_GROUP_RESULT 0 (putF spDev (groupBase g.val c + 0x24) 0 0 1 (putF spDev (groupBase g.val c + 0x20) 31 0 0 c))
    else wr Reg.COL_GROUP_RESULT 2 c)

/-- GROUP_INVALIDATE: refused with 0x02 while a collective of the group runs. -/
def execGroupInvalidate (p : Party) (g : Fin 4096) : State → Host.Outcome State Fault Refusal :=
  onChip (groupCommand p g.val 1 fun c =>
    if c.colRuns.any fun r => r.group == g.val then wr Reg.COL_GROUP_RESULT 2 c
    else wr Reg.COL_GROUP_RESULT 0 (putF spDev (groupBase g.val c + 0x24) 0 0 0 c))

/-- A write of `TAIL` by the queue's owner (R247, R377). -/
def colTailWrite (p : Party) (q tail : Nat) (c : Chip) : Chip :=
  if rd (Reg.COL_OWNER q) c = ownerCode p c then colRest q (wr (Reg.COL_TAIL q) tail (wakeFor 0x61 c))
  else refuse 0x61 0x03 (0x410 + 0x20 * q) c

/-- COL_TAIL. -/
def execColTail (p : Party) (q : Fin 16) (tail : Nat) : State → Host.Outcome State Fault Refusal :=
  onChip fun c => match p with
    | .stall _ => colTailWrite p q.val tail c
    | _ => regAccess p 0x61 (0x410 + 0x20 * q.val) tail (colTailWrite p q.val tail) c

/-- STOP_ARM (R411). -/
def execStopArm (p : Party) (on : Bool) : State → Host.Outcome State Fault Refusal :=
  onChip (regAccess p 0x61 0x12C (b2n on) fun c =>
    wrb Reg.COL_STOP_ARM on (if on then c else { c with colBoundary := false }))

/-- `STOP_NOW` written: every running collective ends with STOPPED (R412). -/
def colStopNow (c : Chip) : Chip :=
  if rdb Reg.COL_STOPPED c then c
  else
    let live := c.colRuns.filter fun r => r.status.isNone
    let c := live.foldl (fun c r => sendAborts r true (setRun { r with status := some 1 } c)) c
    colRestAll (wr Reg.COL_STOPPED 1 c)

/-- STOP_NOW. -/
def execStopNow (p : Party) : State → Host.Outcome State Fault Refusal := onChip (regAccess p 0x61 0x12C 2 colStopNow)

/-- COL_RESUME (R412). -/
def execColResume (p : Party) : State → Host.Outcome State Fault Refusal :=
  onChip (regAccess p 0x61 0x12C 4 fun c =>
    colRestAll (wr Reg.COL_STOPPED 0 (wr Reg.COL_STOP_ARM 0 { c with colBoundary := false })))

/-! ### The page -/

/-- COL enters RUNNING (R379): `COL_QP` to ACTIVE, the partition's size shown. -/
def colOn (c : Chip) : Chip :=
  let p := rd Reg.COL_POOL c
  let cores := poolCores p c
  let clusters := (List.range 21).filter fun k => cores.any fun n => n / 16 == k
  colQpUp (wr Reg.COL_CORES cores.length (wr Reg.COL_CLUSTERS clusters.length c))

/-- COL enters OFF (R370): its queue pairs go through ERROR to RESET; its collectives and queues end. -/
def colPageOff (c : Chip) : Chip :=
  let c := qpResetOwner 0x9007 { c with colRuns := [], colHeld := [], colAborts := [], colBoundary := false }
  unbindPage 0x61 c

end Sys2Proof.Machine
end

