-- ==== Sys2Proof/Machine/PailArray.lean ====
section
/-! DEFINITION. Pail's array (R631–R642): stripes over the eight SSDs, parity and rebuilding, and reading, writing, trimming and checking volume blocks. -/

namespace Sys2Proof.Machine

/-! ### Parity (R633) -/

/-- Twice an element of GF(2^8) with the polynomial 0x11D. -/
def raidDouble (a : Nat) : Nat := if a < 128 then 2 * a else (2 * a) ^^^ 0x11D

/-- The product of two elements. -/
def raidMul : Nat → Nat → Nat → Nat
  | 0, _, _ => 0
  | n + 1, a, b => (if b % 2 = 1 then a else 0) ^^^ raidMul n (raidDouble a) (b / 2)

/-- g^d, with g = 0x02. -/
def raidPow (d : Nat) : Nat := (List.range d).foldl (fun a _ => raidDouble a) 1

/-- The inverse of an element that is not 0. -/
def raidInv (a : Nat) : Nat := ((List.range 256).find? fun x => raidMul 8 a x == 1).getD 0

def xorB (a b : List Nat) : List Nat := List.zipWith (· ^^^ ·) a b
def mulB (k : Nat) (a : List Nat) : List Nat := a.map (raidMul 8 k)

/-- P of six blocks. -/
def parityP (ds : List (List Nat)) : List Nat := ds.foldl xorB (List.replicate 4096 0)
/-- Q of six blocks. -/
def parityQ (ds : List (List Nat)) : List Nat :=
  (List.range ds.length).foldl (fun a d => xorB a (mulB (raidPow d) (ds.getD d []))) (List.replicate 4096 0)

/-- The positions of a row that hold nothing. -/
def rowHoles (row : List (Option (List Nat))) : List Nat := (List.range 8).filter fun p => (row.getD p none).isNone

/-- The six data blocks of a row whose positions are D0–D5, P, Q, when at most two are missing (R633). -/
def rowData (row : List (Option (List Nat))) : Option (List (List Nat)) :=
  let z := List.replicate 4096 0
  let ds := (row.take 6).map fun o => o.getD z
  let p := (row.getD 6 none).getD z
  let q := (row.getD 7 none).getD z
  let a := xorB p (parityP ds)
  let b := xorB q (parityQ ds)
  match rowHoles row with
  | [] => some ds
  | [x] => if 6 ≤ x then some ds else some (ds.set x a)
  | [x, y] =>
    if 6 ≤ x then some ds
    else if y = 6 then some (ds.set x (mulB (raidInv (raidPow x)) b))
    else if y = 7 then some (ds.set x a)
    else
      let dx := mulB (raidInv (raidPow x ^^^ raidPow y)) (xorB b (mulB (raidPow y) a))
      some ((ds.set x dx).set y (xorB a dx))
  | _ => none

/-! ### Places (R632, R634) -/

def ssdOf (s pos : Nat) : Nat := (s + pos) % 8
def ssdByte (s k : Nat) : Nat := 0x10000000 + 65536 * s + 4096 * k

/-- SSD `n` is missing (R639). -/
def ssdMissing (n : Nat) (c : Chip) : Bool := (rd Reg.PAL_MISSING c).testBit n

/-- The unit of stripe `s` on SSD `n` is in service: the SSD is not missing, or the rebuild has passed the stripe (R642). -/
def unitServes (n s : Nat) (c : Chip) : Bool :=
  !ssdMissing n c || (c.palRebuild == some n && decide (s < rd Reg.PAL_REBUILD_DONE c))

/-- Volume block `b` of a volume at stripe `base`: stripe, data unit, row. -/
def volPlace (base b : Nat) : Nat × Nat × Nat := (base + b / 96, b % 96 / 16, b % 16)

/-- The block at a position of a row; `bad` lists blocks that fail their check, as (SSD, SSD byte offset). -/
def unitBlock (s k pos : Nat) (bad : List (Nat × Nat)) (c : Chip) : Option (List Nat) :=
  let n := ssdOf s pos
  if unitServes n s c && !bad.elem (n, ssdByte s k) && !anyPoison (spSsd n) (ssdByte s k) 4096 c then
    some (ldBytes (spSsd n) (ssdByte s k) 4096 c) else none

/-- The row k of stripe s. -/
def unitRow (s k : Nat) (bad : List (Nat × Nat)) (c : Chip) : List (Option (List Nat)) :=
  (List.range 8).map fun p => unitBlock s k p bad c

/-- A block written at a position, where the unit is in service. -/
def unitPut (s k pos : Nat) (b : List Nat) (c : Chip) : Chip :=
  if unitServes (ssdOf s pos) s c then put (spSsd (ssdOf s pos)) (ssdByte s k) b c else c

/-- Failing blocks of a row whose SSDs are in service. -/
def rowBad (s k : Nat) (bad : List (Nat × Nat)) (c : Chip) : List Nat :=
  (List.range 8).filter fun p => unitServes (ssdOf s p) s c && (unitBlock s k p bad c).isNone

/-- The failing blocks of a row rebuilt and rewritten, with `BLOCK_REPAIRED` (R637). -/
def rowRepair (s k : Nat) (bad : List (Nat × Nat)) (ds : List (List Nat)) (c : Chip) : Chip :=
  (rowBad s k bad c).foldl (fun c p =>
    let b := if p < 6 then ds.getD p [] else if p = 6 then parityP ds else parityQ ds
    raise 0x80 0x0F03 1 (bump (Reg.PAL_CTR 3) 1 (unitPut s k p b c))) c

/-- One volume block read: its bytes, whether it could not be rebuilt, and the chip after a repair (R637, R640). -/
def volBlock (base b : Nat) (bad : List (Nat × Nat)) (c : Chip) : List Nat × Bool × Chip :=
  let r := volPlace base b
  let row := unitRow r.1 r.2.2 bad c
  match row.getD r.2.1 none with
  | some x => (x, false, c)
  | none => match rowData row with
    | some ds => (ds.getD r.2.1 [], false, if unitServes (ssdOf r.1 r.2.1) r.1 c then rowRepair r.1 r.2.2 bad ds c else c)
    | none => (List.replicate 4096 0, true, c)

/-- Volume blocks read in turn: each block with whether it is lost. -/
def volRead (base : Nat) (bad : List (Nat × Nat)) : Nat → Nat → Chip → List (List Nat × Bool) × Chip
  | _, 0, c => ([], c)
  | b, n + 1, c =>
    let r := volBlock base b bad c
    let t := volRead base bad (b + 1) n r.2.2
    ((r.1, r.2.1) :: t.1, t.2)

/-- `MEDIA_ERROR` raised when a block is lost (R637). -/
def mediaError (l : List (List Nat × Bool)) (c : Chip) : Chip := if l.any (·.2) then raise 0x80 0x0F04 2 c else c

/-! ### Writing (R635) -/

/-- The data units that blocks `[b, b + n)` of one stripe change. -/
def unitsTouched (b n : Nat) : List Nat := (List.range 6).filter fun d => overlaps (b % 96) n (16 * d) 16

/-- One row written: the new blocks by data unit. A stripe with three changed units or fewer moves the stored parity by the
change; otherwise, or where a unit is missing, parity comes from all six units (R635, R640). -/
def rowWrite (s k touched : Nat) (new : List (Option (List Nat))) (c : Chip) : Chip :=
  if new.all (·.isNone) then c
  else
    let row := unitRow s k [] c
    let old := (rowData row).getD (List.replicate 6 (List.replicate 4096 0))
    let ds := (List.range 6).map fun d => (new.getD d none).getD (old.getD d [])
    let delta := (List.range 6).map fun d => xorB (ds.getD d []) (old.getD d [])
    let step := decide (touched ≤ 3) && (rowHoles row).isEmpty
    let p := if step then xorB ((row.getD 6 none).getD []) (parityP delta) else parityP ds
    let q := if step then xorB ((row.getD 7 none).getD []) (parityQ delta) else parityQ ds
    let c := (List.range 6).foldl (fun c d => match new.getD d none with
      | some b => unitPut s k d b c
      | none => c) c
    unitPut s k 7 q (unitPut s k 6 p c)

/-- `n` blocks written from block `b` of one stripe of a volume. -/
def stripeWrite (base b n : Nat) (bytes : List Nat) (c : Chip) : Chip :=
  let s := base + b / 96
  (List.range 16).foldl (fun c k =>
    rowWrite s k (unitsTouched b n).length ((List.range 6).map fun d =>
      let i := 16 * d + k
      if b % 96 ≤ i ∧ i < b % 96 + n then some ((bytes.drop (4096 * (i - b % 96))).take 4096) else none) c) c

/-- Volume blocks written, stripe after stripe. -/
def volWrite (base : Nat) : Nat → Nat → Nat → List Nat → Chip → Chip
  | 0, _, _, _, c => c
  | fuel + 1, b, n, bytes, c =>
    if n = 0 then c
    else
      let k := min n (96 - b % 96)
      volWrite base fuel (b + k) (n - k) (bytes.drop (4096 * k)) (stripeWrite base b k bytes c)

/-- Whole units of `[b, b + n)` deallocated and the rest written as zeros, both reading as zeros with their parity (R653). -/
def volTrim (base b n : Nat) (c : Chip) : Chip := volWrite base (n + 1) b n (List.replicate (4096 * n) 0) c

/-! ### Checking (R637, R638, R654, R658) -/

/-- One row checked: failing blocks repaired; with every block good, parity that differs from its data is rewritten. Answers
whether parity was rewritten and whether a block is lost. -/
def rowCheck (s k : Nat) (bad : List (Nat × Nat)) (c : Chip) : Bool × Bool × Chip :=
  let row := unitRow s k bad c
  match rowData row with
  | none => (false, true, c)
  | some ds =>
    if (rowHoles row).isEmpty then
      let fixP := row.getD 6 none != some (parityP ds)
      let fixQ := row.getD 7 none != some (parityQ ds)
      let c := if fixP then unitPut s k 6 (parityP ds) c else c
      (fixP || fixQ, false, if fixQ then unitPut s k 7 (parityQ ds) c else c)
    else (false, false, rowRepair s k bad ds c)

/-- An error with a telemetry record whether it is latched or not. -/
def raiseTold (page code sev : Nat) (c : Chip) : Chip :=
  let r := latchErr page code sev c
  telemetry 1 page sev (errBody page code r.1) r.1

/-- One stripe checked. Answers whether a block is lost. -/
def stripeCheck (s : Nat) (bad : List (Nat × Nat)) (c : Chip) : Bool × Chip :=
  let r := (List.range 16).foldl (fun (a : Bool × Bool × Chip) k =>
    let x := rowCheck s k bad a.2.2
    (a.1 || x.1, a.2.1 || x.2.1, x.2.2)) (false, false, c)
  let c := if r.1 then raiseTold 0x80 0x0F02 1 (bump (Reg.PAL_CTR 4) 1 (wr Reg.PAL_LAST_REPAIR_STRIPE s r.2.2)) else r.2.2
  (r.2.1, if r.2.1 then raise 0x80 0x0F04 2 c else c)

/-- Several stripes checked. -/
def stripesCheck (bad : List (Nat × Nat)) (l : List Nat) (c : Chip) : Bool × Chip :=
  l.foldl (fun (a : Bool × Chip) s => let x := stripeCheck s bad a.2; (a.1 || x.1, x.2)) (false, c)

/-- P and Q of a stripe recomputed from its data (R636). -/
def stripeReplay (s : Nat) (c : Chip) : Chip :=
  (List.range 16).foldl (fun c k =>
    match rowData (unitRow s k [] c) with
    | some ds => unitPut s k 7 (parityQ ds) (unitPut s k 6 (parityP ds) c)
    | none => c) c

/-- Every unit of slot `n` written from the other units, stripe after stripe (R642). -/
def slotRebuild (n : Nat) (c : Chip) : Chip :=
  (List.range (rd Reg.PAL_ARRAY_STRIPES c)).foldl (fun c s =>
    (List.range 16).foldl (fun c k =>
      match rowData (unitRow s k [] c) with
      | some ds =>
        let p := (n + 8 - s % 8) % 8
        put (spSsd n) (ssdByte s k) (if p < 6 then ds.getD p [] else if p = 6 then parityP ds else parityQ ds) c
      | none => c) c) c

/-! ### Volumes -/

/-- A volume serves an owner code (R648). -/
def volServes (v o : Nat) (c : Chip) : Bool :=
  rdb (Reg.PAL_VALID v) c && (rd (Reg.PAL_OWNER v) c == o ||
    (decide (0x9000 ≤ o) && decide (o ≤ 0x900B) && (rd (Reg.PAL_GRANT v) c).testBit (o - 0x9000)))

/-- The blocks of a volume. -/
def volBlocks (v : Nat) (c : Chip) : Nat := 96 * rd (Reg.PAL_STRIPES v) c

/-- The array serves commands: PAL takes part in work and the array is not FAILED. -/
def arrayServes (c : Chip) : Bool := working 0x80 c && decide (rd Reg.PAL_ARRAY_STATE c ≠ 4)

/-- Bytes `[off, off + n)` of a volume read for a block of the device, with whether any of them is lost. -/
def volBytes (v off n : Nat) (c : Chip) : List Nat × Bool × Chip :=
  let b := off / 4096
  let r := volRead (rd (Reg.PAL_BASE_STRIPE v) c) [] b (ceilDiv (off + n) 4096 - b) c
  (((r.1.flatMap (·.1)).drop (off % 4096)).take n, r.1.any (·.2), r.2)

end Sys2Proof.Machine
end

