-- ==== Sys2Proof/Machine/Pail.lean ====
section
/-! DEFINITION. Pail's queues, commands and segments (R639–R665). -/

namespace Sys2Proof.Machine

/-! ### Buffers named by `TARGET` and `SPUR_PORT` -/

/-- The pieces of a buffer for an owner (R338, R646, R699, R700). -/
def bufPieces (o target port addr n : Nat) (c : Chip) : List Piece :=
  if target < 2 then
    if addr + n ≤ 2 ^ 62 then route o (2 ^ 62 * (target + 1) + addr) n c else [⟨.outside, n⟩]
  else if target = 2 then
    [⟨if !reachesSpur o port c then .outside else if spurBlocked port c then .blocked else .mem (spAcc port) addr, n⟩]
  else route o addr n c

/-- The whole buffer lies in the owner's reach. -/
def bufReached (o target port addr n : Nat) (c : Chip) : Bool := !(bufPieces o target port addr n c).any fun p => p.dest == .outside

/-- What a buffer reads, and whether any of it is poisoned. -/
def bufRead (o target port addr n : Nat) (c : Chip) : List Nat × Bool :=
  let ps := bufPieces o target port addr n c
  (ps.flatMap (pieceBytes · c), ps.any (piecePoison · c))

/-- Bytes written to a buffer; a stall's host memory is logged first (R747), and what lies outside a stall's memory is reported
and not written (R735). -/
def bufWrite (o target port addr : Nat) (bs : List Nat) (c : Chip) : Chip :=
  let c := if isStallCode o && !bufReached o target port addr bs.length c then stallOutOfReach c else c
  let c := if target < 2 then stallDirty o addr bs.length c else c
  writePieces (bufPieces o target port addr bs.length c) bs c

/-- A buffer's bytes poisoned. -/
def bufPoison (o target port addr n : Nat) (c : Chip) : Chip :=
  (bufPieces o target port addr n c).foldl (fun c p => writeTo p.dest (fun sp a => poisonRange sp a p.len) c) c

/-! ### Queues (R643, R644, R647) -/

def PalQ.idle : PalQ := ⟨0, 0, []⟩
def palBase (q : Nat) (c : Chip) : Nat := rd Reg.PAL_QUEUE_TABLE c + 64 * q
def palF (q off hi lo : Nat) (c : Chip) : Nat := ldF spDev (palBase q c + off) hi lo c
def palPut (q off hi lo v : Nat) (c : Chip) : Chip := putF spDev (palBase q c + off) hi lo v c
def palOwner (q : Nat) (c : Chip) : Nat := palF q 0x10 15 0 c
def palGen (q : Nat) (c : Chip) : Nat := palF q 0x10 31 16 c
def palActive (q : Nat) (c : Chip) : Bool := palF q 0x20 0 0 c == 1
def getPalQ (q : Nat) (c : Chip) : PalQ := mapGet PalQ.idle c.palQs q
def setPalQ (q : Nat) (x : PalQ) (c : Chip) : Chip := { c with palQs := mapPut PalQ.idle c.palQs q x }

/-- The host port that an owner's MSI-X messages go to. -/
def ownerHost (o : Nat) (c : Chip) : Option Nat :=
  if isStallCode o then some (stallHome o c) else if o = 0x8000 then some 0 else if o = 0x8001 then some 1 else none

/-- Waiting completions written while the ring has room, `PHASE` last (R647); one of a stale generation is discarded (R350). -/
def palFlush (q : Nat) : Nat → Chip → Chip
  | 0, c => c
  | fuel + 1, c =>
    let x := getPalQ q c
    match x.recs with
    | [] => c
    | r :: t =>
      if r.2 ≠ palGen q c then palFlush q fuel (setPalQ q { x with recs := t } c)
      else
        let tail := palF q 0x24 11 0 c
        let log2 := palF q 8 3 0 c
        if 2 ^ log2 - 1 ≤ (tail + 4096 - x.cqHead) % 4096 then c
        else
          let ph := palF q 0x24 31 31 c
          let o := palOwner q c
          let c := ownPut o (palF q 8 63 12 c * 4096 + 16 * (tail % 2 ^ log2))
            (r.1 ++ leBytes 4 (palF q 0x20 27 16 c + ph * 2 ^ 31)) (setPalQ q { x with recs := t } c)
          let c := palPut q 0x24 11 0 (tail + 1) c
          let c := if (tail + 1) % 2 ^ log2 = 0 then palPut q 0x24 31 31 (1 - ph) c else c
          let c := pulseIf (palF q 0x14 12 12 c == 1) (palF q 0x14 11 0 c) c
          let c := match ownerHost o c with
            | some h => if palF q 0x14 27 27 c = 1 then sendMsix h 2 (palF q 0x14 26 16 c) c else c
            | none => c
          palFlush q fuel c

/-- A completion of 12 bytes joins the queue's completions (R647). -/
def palRecord (q cmdId tag gen status blocks : Nat) (c : Chip) : Chip :=
  let x := getPalQ q c
  let c := setPalQ q { x with recs := x.recs ++ [(leBytes 4 cmdId ++ leBytes 4 (status + tag * 2 ^ 8 + gen * 2 ^ 16) ++ leBytes 4 blocks, gen)] } c
  let c := palFlush q (x.recs.length + 1) c
  if (getPalQ q c).recs.isEmpty then c else bump (Reg.PAL_CTR 5) 1 c

/-- The status that marks a command whose queue went to RESET (R650): no completion is written. -/
def palGone : Nat := 0x100

/-- A command ends (R647): its tag is free. -/
def palEnd (x : PalCmd) (status : Nat) (c : Chip) : Chip :=
  let c := { c with palCmds := c.palCmds.filter fun y => y.n != x.n }
  if status = palGone then c
  else palRecord x.queue x.cmdId x.tag x.gen status (x.done % 2 ^ 14)
    (palPut x.queue 0x28 31 0 (setBits (palF x.queue 0x28 31 0 c) x.tag 1 0) c)

/-! ### Segments (R657) -/

/-- The segments of blocks `[b, b + n)`, as (first block, blocks). -/
def segList : Nat → Nat → Nat → List (Nat × Nat)
  | 0, _, _ => []
  | fuel + 1, b, n =>
    if n = 0 then []
    else
      let k := if b % 96 = 0 ∧ 192 ≤ n then 192 else min n (96 - b % 96)
      (b, k) :: segList fuel (b + k) (n - k)

/-- The segments of a command; VERIFY, which moves no data, is one. -/
def palSegs (x : PalCmd) : List (Nat × Nat) := if x.op = 5 then [(x.block, x.blocks)] else segList x.blocks x.block x.blocks

/-- The staging that a segment of an operation needs, in bytes. -/
def segStaging (op n : Nat) : Nat := if op = 5 then 0 else if op = 4 then 0x10000 else if n = 192 then 0x100000 else 0x80000

/-- The operation moves blocks under a range lock (R651). -/
def isRangeOp (op : Nat) : Bool := op == 1 || op == 2 || op == 4 || op == 5

/-- Staging in use. -/
def palStaged (c : Chip) : Nat :=
  (c.palCmds.map fun x => (x.active.map fun a => segStaging x.op ((palSegs x).getD a.1 (0, 0)).2).sum).sum

/-- An earlier command keeps command `x` from starting (R651). -/
def palLocked (x : PalCmd) (c : Chip) : Bool :=
  c.palCmds.any fun y => decide (y.n < x.n) && isRangeOp y.op && y.vol == x.vol && overlaps y.block y.blocks x.block x.blocks &&
    (y.op == 2 || y.op == 4 || x.op == 2 || x.op == 4)

/-- The first command, in arrival order, that has a segment to start. -/
def palReady (c : Chip) : Option PalCmd :=
  c.palCmds.find? fun x => isRangeOp x.op && x.status == 0 && decide (x.next < (palSegs x).length) && !palLocked x c

def setPalCmd (x : PalCmd) (c : Chip) : Chip := { c with palCmds := c.palCmds.map fun y => if y.n == x.n then x else y }

/-- A segment changes part of a stripe only, so that it is journalled (R635). -/
def segPartial (g : Nat × Nat) : Bool := decide (g.2 % 96 ≠ 0)

/-- A segment starts: a WRITE's data is staged; poisoned data ends the command (R656). A partial stripe is journalled. -/
def palStart (x : PalCmd) (c : Chip) : Chip :=
  let g := (palSegs x).getD x.next (0, 0)
  if x.op = 2 then
    let r := bufRead x.owner x.target x.port (x.addr + 4096 * (g.1 - x.block)) (4096 * g.2) c
    if r.2 then setPalCmd { x with status := 0x0A } c
    else
      let c := if segPartial g then bump (Reg.PAL_CTR 6) 1 { c with palJournal := setAdd c.palJournal (x.base + g.1 / 96) } else c
      setPalCmd { x with next := x.next + 1, active := x.active ++ [(x.next, r.1)] } c
  else setPalCmd { x with next := x.next + 1, active := x.active ++ [(x.next, [])] } c

/-- A command whose segments have all ended is completed. -/
def palFinish (c : Chip) : Chip :=
  c.palCmds.foldl (fun c x =>
    if isRangeOp x.op && x.active.isEmpty && (x.status != 0 && x.status != 5 || x.next == (palSegs x).length) then palEnd x x.status c else c) c

/-- Segments start, in arrival order, while staging lasts. -/
def palPump : Nat → Chip → Chip
  | 0, c => c
  | fuel + 1, c =>
    match palReady c with
    | none => c
    | some x =>
      let need := segStaging x.op ((palSegs x).getD x.next (0, 0)).2
      if palStaged c + need ≤ 2 ^ rd Reg.PAL_STAGING_LOG2 c then palPump fuel (palFinish (palStart x c)) else c

/-- Segments start as far as staging lasts. -/
def palRun (c : Chip) : Chip := palPump ((c.palCmds.map fun x => x.blocks).sum + 1) (palFinish c)

/-! ### Taking entries (R646, R648, R649) -/

/-- An entry of 64 bytes, and whether it is malformed. -/
def palParse (b : List Nat) : PalCmd × Nat × Bool × Bool :=
  let v := leNat b
  let f := fun off hi lo => bits v (8 * off + hi) (8 * off + lo)
  let op := f 0 3 0
  let n := f 0x10 13 0
  let data := isRangeOp op
  let bad := f 0 15 10 != 0 || f 0 23 22 != 0 || f 0 31 26 != 0 || f 4 31 16 != 0 || f 8 63 48 != 0 || f 0x10 63 14 != 0 ||
    f 0x20 31 6 != 0 || f 0x28 191 0 != 0 || op == 0 || decide (9 < op) || decide (8192 < n) || (data && n == 0) ||
    (!data && op != 6 && n != 0) || decide (3 < f 0x20 2 0)
  ({ n := 0, queue := 0, owner := 0, tag := f 0 8 4, op := op, vol := f 0 21 16, base := 0, block := f 8 47 0, blocks := n,
     addr := f 0x18 63 0, target := f 0x20 2 0, port := f 0x20 5 3, cmdId := f 0x24 31 0, gen := f 4 15 0, next := 0, active := [],
     done := 0, status := 0, flushed := [] }, f 0 25 24, f 0 9 9 == 1, bad)

/-- Queue `q` has an entry that Pail may take: ACTIVE, no completion waits (R647), its owner runs (R749) and is not held back
(R741). -/
def palWaits (q : Nat) (c : Chip) : Bool :=
  decide (q < 0xFFD) && palActive q c && palF q 0x20 27 16 c != (getPalQ q c).sqTail && (getPalQ q c).recs.isEmpty &&
  ownerIssues 2 (palOwner q c) c &&
  (!isStallCode (palOwner q c) || decide (0 < mapGet (0 : Int) c.stallPail (palOwner q c)))

/-- It is the turn of queue `q`: no queue between the latest turn and it has an entry to take (R649). -/
def palMyTurn (q : Nat) (c : Chip) : Bool :=
  !c.palQs.any fun e => e.1 != q && decide ((e.1 + 4095 - c.palTurn) % 4096 < (q + 4095 - c.palTurn) % 4096) && palWaits e.1 c

/-- The status with which a command ends as soon as it is taken; 0 when it runs (R648). -/
def palStatus (x : PalCmd) (bad : Bool) (c : Chip) : Nat :=
  if bad then 1
  else if (palF x.queue 0x28 31 0 c).testBit x.tag then 2
  else if rd Reg.PAL_ARRAY_STATE c = 4 then 6
  else if x.op = 9 then (if x.owner = 0x8000 ∨ x.owner = 0x8001 then 0 else 9)
  else if !volServes x.vol x.owner c then 3
  else if isRangeOp x.op && decide (volBlocks x.vol c < x.block + x.blocks) then 4
  else if (x.op = 1 ∨ x.op = 2) ∧ bufReached x.owner x.target x.port x.addr (4096 * x.blocks) c = false then 4
  else if x.op = 6 ∧ bufReached x.owner x.target x.port x.addr 4096 c = false then 4
  else 0

/-- The volume's running self-test. -/
def palTest (v : Nat) (c : Chip) : Option PalCmd := c.palCmds.find? fun x => (x.op == 7 || x.op == 8) && x.vol == v

/-- Running self-tests pause at the arrival of a command (R659). -/
def palPause (c : Chip) : Chip :=
  (List.range 64).foldl (fun c v => if rd (Reg.PAL_TEST_STATE v) c = 1 then wr (Reg.PAL_TEST_STATE v) 2 c else c) c

/-- The 4 KiB that IDENTIFY writes (R655). -/
def palIdentity (v : Nat) (c : Chip) : List Nat :=
  leBytes 8 (volBlocks v c) ++ leBytes 8 (rd Reg.PAL_ARRAY_STATE c + rd Reg.PAL_MISSING c * 2 ^ 8) ++
  leBytes 4 0 ++ leBytes 4 50 ++ leBytes 4 2000 ++ leBytes 4 40000 ++ List.replicate 4064 0

/-- A command that passed its checks runs (R651–R655, R658, R660, R663). -/
def palBegin (x : PalCmd) (ps : Nat) (abort : Bool) (c : Chip) : Chip :=
  let busy := fun (c : Chip) => palPut x.queue 0x28 31 0 (palF x.queue 0x28 31 0 c ||| 2 ^ x.tag) c
  let add := fun (c : Chip) => busy { c with palCmds := c.palCmds ++ [x] }
  if isRangeOp x.op then palRun (add c)
  else if x.op = 3 then add c
  else if x.op = 6 then palEnd x 0 (bufWrite x.owner x.target x.port x.addr (palIdentity x.vol c) c)
  else if x.op = 9 then
    let idle := c.palCmds.isEmpty
    let c := wr Reg.PAL_PS_MAX ps c
    palEnd x 0 (if idle && decide (rd Reg.PAL_PS_CUR c < ps) then wr Reg.PAL_PS_CUR ps c else c)
  else if abort then
    match palTest x.vol c with
    | some t => palEnd x 0 (palEnd t 7 (wr (Reg.PAL_TEST_STATE x.vol) 0 c))
    | none => palEnd x 0 c
  else if (palTest x.vol c).isSome then palEnd x 8 c
  else wr (Reg.PAL_TEST_STATE x.vol) 1 (wr (Reg.PAL_TEST_DONE x.vol) 0 (add c))

/-- Pail takes the next entry of queue `q` in its turn, when its operation is `op` (an entry of no operation is taken by any). -/
def palTake (op q : Nat) (c : Chip) : Chip :=
  if !working 0x80 c || !palWaits q c || !palMyTurn q c || decide (4096 ≤ (c.palCmds.filter fun x => isRangeOp x.op).length) then c
  else
    let head := palF q 0x20 27 16 c
    let o := palOwner q c
    let a := palF q 0 63 12 c * 4096 + 64 * (head % 2 ^ palF q 0 3 0 c)
    let r := palParse (ldBytes (ownerSpace o c) a 64 c)
    let bad := r.2.2.2 || anyPoison (ownerSpace o c) a 64 c
    if r.1.op ≠ op ∧ 1 ≤ r.1.op ∧ r.1.op ≤ 9 then c
    else
      let c := palPut q 0x20 27 16 (head + 1) { c with palTurn := q }
      if r.1.gen ≠ palGen q c then c
      else
        let x := { r.1 with n := c.palNext, queue := q, owner := o, base := rd (Reg.PAL_BASE_STRIPE r.1.vol) c : PalCmd }
        let c := bump (Reg.PAL_CTR 0) 1 { c with palNext := c.palNext + 1 }
        let c := if isStallCode o then
            let cost : Int := (4096 * max 1 x.blocks : Nat)
            { c with stallPail := mapPut (0 : Int) c.stallPail o (mapGet (0 : Int) c.stallPail o - cost * 65536) } else c
        let deep := if x.op = 9 then rd Reg.PAL_PS_CUR c else 0
        let c := palPause (wr Reg.PAL_PS_CUR deep c)
        match palStatus x bad c with
        | 0 => palBegin x r.2.1 r.2.2.1 c
        | st => palRecord q x.cmdId x.tag x.gen st 0 c

/-- PAIL_READ. -/
def execPailRead (q : Fin 4096) : State → Host.Outcome State Fault Refusal := onChip (palTake 1 q.val)
/-- PAIL_WRITE. -/
def execPailWrite (q : Fin 4096) : State → Host.Outcome State Fault Refusal := onChip (palTake 2 q.val)
/-- FLUSH. -/
def execFlush (q : Fin 4096) : State → Host.Outcome State Fault Refusal := onChip (palTake 3 q.val)
/-- TRIM. -/
def execTrim (q : Fin 4096) : State → Host.Outcome State Fault Refusal := onChip (palTake 4 q.val)
/-- VERIFY. -/
def execVerify (q : Fin 4096) : State → Host.Outcome State Fault Refusal := onChip (palTake 5 q.val)
/-- IDENTIFY. -/
def execIdentify (q : Fin 4096) : State → Host.Outcome State Fault Refusal := onChip (palTake 6 q.val)
/-- SELFTEST_SHORT. -/
def execSelftestShort (q : Fin 4096) : State → Host.Outcome State Fault Refusal := onChip (palTake 7 q.val)
/-- SELFTEST_EXTENDED. -/
def execSelftestExtended (q : Fin 4096) : State → Host.Outcome State Fault Refusal := onChip (palTake 8 q.val)
/-- SET_POWER. -/
def execSetPower (q : Fin 4096) : State → Host.Outcome State Fault Refusal := onChip (palTake 9 q.val)

/-! ### Segments end (R637, R641, R652, R656) -/

/-- The data effect of a segment: read blocks reach the owner, a lost block as poison; staged data reaches the SSDs; a TRIM
zeroes; a VERIFY checks its stripes. Answers whether a block is lost. -/
def segEffect (x : PalCmd) (g : Nat × Nat) (data : List Nat) (bad : List (Nat × Nat)) (c : Chip) : Bool × Chip :=
  match x.op with
  | 1 =>
    let r := volRead x.base bad g.1 g.2 c
    let dst := x.addr + 4096 * (g.1 - x.block)
    let c := bump (Reg.PAL_CTR 1) g.2 (mediaError r.1 r.2)
    let c := bufWrite x.owner x.target x.port dst (r.1.flatMap (·.1)) c
    (r.1.any (·.2), (List.range g.2).foldl (fun c i =>
      if (r.1.getD i ([], false)).2 then bufPoison x.owner x.target x.port (dst + 4096 * i) 4096 c else c) c)
  | 2 =>
    let c := volWrite x.base (g.2 + 1) g.1 g.2 data c
    (false, bump (Reg.PAL_CTR 2) g.2 { c with palJournal := if segPartial g then setDel c.palJournal (x.base + g.1 / 96) else c.palJournal })
  | 4 => (false, volTrim x.base g.1 g.2 c)
  | _ => stripesCheck bad ((List.range ((g.1 + g.2 + 95) / 96 - g.1 / 96)).map fun i => x.base + g.1 / 96 + i) c

/-- SEGMENT_DONE: the segment of a command that `res` names ends; `res.bad` are the blocks that failed their check. -/
def segmentDone (q tag : Nat) (res : SegResult) (c : Chip) : Chip :=
  match c.palCmds.find? fun x => x.queue == q && x.tag == tag && x.active.any fun a => a.1 == res.seg with
  | none => c
  | some x =>
    let g := (palSegs x).getD res.seg (0, 0)
    let data := ((x.active.find? fun a => a.1 == res.seg).map (·.2)).getD []
    let r := segEffect x g data res.bad c
    let x := { x with active := x.active.filter (fun a => a.1 != res.seg), done := x.done + g.2,
                      status := if r.1 && x.status == 0 then 5 else x.status }
    palRun (setPalCmd x r.2)

def execSegmentDone (q : Fin 4096) (tag : Fin 32) (res : SegResult) : State → Host.Outcome State Fault Refusal :=
  onChip (segmentDone q.val tag.val res)

/-- FLUSH commands whose SSDs have all completed their flush end (R652). -/
def flushCheck (c : Chip) : Chip :=
  c.palCmds.foldl (fun c x =>
    if x.op = 3 ∧ ((List.range 8).all fun n => ssdMissing n c || x.flushed.elem n) = true then palEnd x 0 c else c) c

/-- SSD_FLUSH_COMPLETE: SSD `n` has completed a flush for volume `v`, which counts for the FLUSH commands whose earlier writes
and trims are complete. -/
def ssdFlushComplete (v n : Nat) (c : Chip) : Chip :=
  let ready := fun (x : PalCmd) => x.op == 3 && x.vol == v &&
    !(c.palCmds.any fun y => decide (y.n < x.n) && y.vol == v && (y.op == 2 || y.op == 4))
  flushCheck { c with palCmds := c.palCmds.map fun x => if ready x then { x with flushed := setAdd x.flushed n } else x }

def execSsdFlushComplete (v : Fin 64) (n : Fin 8) : State → Host.Outcome State Fault Refusal := onChip (ssdFlushComplete v.val n.val)

/-! ### Self-tests (R658–R660) -/

/-- SELFTEST_RESUME: no command but self-tests is outstanding. -/
def selftestResume (v : Nat) (c : Chip) : Chip :=
  if rd (Reg.PAL_TEST_STATE v) c = 2 && !(c.palCmds.any fun x => x.op != 7 && x.op != 8) then wr (Reg.PAL_TEST_STATE v) 1 c else c

def execSelftestResume (v : Fin 64) : State → Host.Outcome State Fault Refusal := onChip (selftestResume v.val)

/-- The stripes that a test checks. -/
def testStripes (v : Nat) (short : Bool) (c : Chip) : List Nat :=
  let base := rd (Reg.PAL_BASE_STRIPE v) c
  let n := rd (Reg.PAL_STRIPES v) c
  if short then (List.range (min 1048576 (ceilDiv n 64))).map fun i => base + 64 * i else (List.range n).map fun i => base + i

/-- SELFTEST_COMPLETE: the test of volume `v` ends; a short test may have reached its 2 minutes after `checked` stripes. -/
def selftestComplete (v checked : Nat) (bad : List (Nat × Nat)) (c : Chip) : Chip :=
  match palTest v c with
  | none => c
  | some x =>
    if rd (Reg.PAL_TEST_STATE v) c ≠ 1 then c
    else
      let all := testStripes v (x.op == 7) c
      let l := if x.op = 7 then all.take checked else all
      let r := stripesCheck bad l c
      let c := wr (Reg.PAL_TEST_DONE v) l.length (wr (Reg.PAL_TEST_STATE v) 0 r.2)
      palEnd { x with done := l.length } (if r.1 then 5 else 0) c

def execSelftestComplete (v : Fin 64) (checked : Nat) (bad : List (Nat × Nat)) : State → Host.Outcome State Fault Refusal :=
  onChip (selftestComplete v.val checked bad)

/-! ### Power states (R661, R662) -/

/-- PS_ENTRY: the idle time of the next deeper state has passed. -/
def psEntry (c : Chip) : Chip :=
  let s := rd Reg.PAL_PS_CUR c
  if running 0x80 c && c.palCmds.isEmpty && c.palRebuild.isNone && decide (s < rd Reg.PAL_PS_MAX c) then wr Reg.PAL_PS_CUR (s + 1) c else c

def execPsEntry : State → Host.Outcome State Fault Refusal := onChip psEntry

/-! ### SSDs (R639–R642) -/

/-- `ARRAY_STATE` follows `MISSING`. -/
def arrayState (c : Chip) : Chip :=
  let k := popCount 8 (rd Reg.PAL_MISSING c)
  wr Reg.PAL_ARRAY_STATE (if k = 0 then 1 else if k = 1 then 2 else if k = 2 then 3 else 4) c

/-- The array fails (R641): writes in progress leave unspecified blocks, and every command ends with ARRAY_FAILED. -/
def arrayFail (c : Chip) : Chip :=
  let spoil := fun (c : Chip) (x : PalCmd) => x.active.foldl (fun c a =>
    let g := (palSegs x).getD a.1 (0, 0)
    volWrite x.base (g.2 + 1) g.1 g.2 (freeBytes (4096 * g.2) c) { c with free := c.free + 4096 * g.2 }) c
  let c := (c.palCmds.filter fun x => x.op == 2).foldl spoil c
  let c := c.palCmds.foldl (fun c x => palEnd x (if x.status = palGone then palGone else 6) c) c
  raise 0x80 0x0F05 2 ((List.range 64).foldl (fun c v => wr (Reg.PAL_TEST_STATE v) 0 c) { c with palRebuild := none })

/-- SSD `n` fails (R639). -/
def ssdFail (n : Nat) (c : Chip) : Chip :=
  if !working 0x80 c && pageState 0x80 c ≠ 6 || ssdMissing n c && c.palRebuild ≠ some n then c
  else
    let c := wr Reg.PAL_MISSING (rd Reg.PAL_MISSING c ||| 2 ^ n) c
    let c := arrayState { c with palRebuild := if c.palRebuild = some n then none else c.palRebuild }
    let c := raise 0x80 0x0F01 2 c
    if rd Reg.PAL_ARRAY_STATE c = 4 then arrayFail c else flushCheck c

def execSsdFailed (n : Fin 8) : State → Host.Outcome State Fault Refusal := onChip (ssdFail n.val)

/-- The SSD in slot `n` has the format and size of R665. -/
def ssdFits (n : Nat) : Bool := Config.ssdFormatOk n && decide (0x10000000 + 0x10000 ≤ Config.ssdBytes n)

/-- REBUILD_GO (R642). -/
def execRebuildGo (p : Party) (n : Fin 8) : State → Host.Outcome State Fault Refusal :=
  onChip (regAccess p 0x80 0x124 (n.val + 2 ^ 31) fun c =>
    if !working 0x80 c || !ssdMissing n.val c || c.palRebuild.isSome || !portUp (0x18 + n.val) c || !ssdFits n.val then refuse 0x80 0x22 0x124 c
    else wr Reg.PAL_REBUILD_DONE 0 { c with palRebuild := some n.val })

/-- REBUILD_DONE. -/
def rebuildDone (c : Chip) : Chip :=
  match c.palRebuild with
  | none => c
  | some n =>
    let c := slotRebuild n { c with palRebuild := none }
    let c := wr Reg.PAL_REBUILD_DONE (rd Reg.PAL_ARRAY_STRIPES c) (wr Reg.PAL_MISSING (setBits (rd Reg.PAL_MISSING c) n 1 0) c)
    raise 0x80 0x0F06 0 (arrayState c)

def execRebuildDone : State → Host.Outcome State Fault Refusal := onChip rebuildDone

/-! ### Doorbells and queue commands (R643, R644, R650) -/

/-- A doorbell of the owner of an ACTIVE queue, else a drop is counted. -/
def palDoorbell (p : Party) (q : Nat) (f : Chip → Chip) (c : Chip) : Chip :=
  if ownerCode p c = palOwner q c ∧ palActive q c = true then f (wakeFor 0x80 c) else bump (Reg.PAL_CTR 7) 1 c

/-- `SQ_TAIL` and `CQ_HEAD` written; the second frees slots for waiting completions. -/
def palSqTail (p : Party) (q tail : Nat) : Chip → Chip :=
  palDoorbell p q fun c => setPalQ q { getPalQ q c with sqTail := tail % 4096 } c
def palCqHead (p : Party) (q head : Nat) : Chip → Chip :=
  palDoorbell p q fun c => palFlush q (getPalQ q c).recs.length (setPalQ q { getPalQ q c with cqHead := head % 4096 } c)

/-- PAIL_SQ_TAIL. -/
def execPailSqTail (p : Party) (q : Fin 4096) (tail : Nat) : State → Host.Outcome State Fault Refusal := onChip (palSqTail p q.val tail)

/-- PAIL_CQ_HEAD. -/
def execPailCqHead (p : Party) (q : Fin 4096) (head : Nat) : State → Host.Outcome State Fault Refusal := onChip (palCqHead p q.val head)

/-- A queue enters RESET (R650): segments already issued complete without a completion record. -/
def palResetQueue (q : Nat) (c : Chip) : Chip :=
  let gone := fun (x : PalCmd) => x.queue == q
  let c := { c with palCmds := (c.palCmds.filter fun x => !gone x || !x.active.isEmpty).map fun x =>
                      if gone x then { x with status := palGone } else x }
  let c := (List.range 64).foldl (fun c v => if (palTest v c).isNone then wr (Reg.PAL_TEST_STATE v) 0 c else c) c
  let c := palPut q 0x24 31 31 1 (palPut q 0x24 11 0 0 (palPut q 0x20 27 16 0 (palPut q 0x20 0 0 0 c)))
  palRun (setPalQ q PalQ.idle (unbindProducer 0x80 q (palPut q 0x28 31 0 0 c)))

/-- Every queue of an owner code to RESET (R650). -/
def palResetOwner (o : Nat) (c : Chip) : Chip :=
  (List.range 0xFFD).foldl (fun c q => if palOwner q c = o ∧ palActive q c = true then palResetQueue q c else c) c

/-- The check of a context (R643). -/
def palContextOk (q : Nat) (c : Chip) : Bool :=
  let o := palOwner q c
  let ringOk := fun off lo e =>
    let l := palF q off 3 0 c
    decide (lo ≤ l) && decide (l ≤ 12) && palF q off 11 4 c == 0 && ownerReaches o (palF q off 63 12 c * 4096) (e * 2 ^ l) c
  ringOk 0 4 64 && ringOk 8 5 16 && ownerValid o && palF q 0x14 15 13 c == 0 && palF q 0x14 31 28 c == 0 &&
  ld spDev (palBase q c + 0x18) 8 c == 0 && !(palF q 0x14 12 12 c == 1 && lineTaken (palF q 0x14 11 0 c) c)

/-- A write of the queue command register (R650). -/
def palCommand (p : Party) (q cmd : Nat) (f : Chip → Chip) : Chip → Chip :=
  regAccess p 0x80 0x150 (q + cmd * 2 ^ 12 + 2 ^ 31) fun c =>
    if ownerCode p c = palOwner q c ∨ (isControl p c = true ∧ isStallCode (palOwner q c) = true) then f c else wr Reg.PAL_PQ_RESULT 1 c

/-- PQ_RESET. -/
def execPqReset (p : Party) (q : Fin 4096) : State → Host.Outcome State Fault Refusal :=
  onChip (palCommand p q.val 0 fun c => wr Reg.PAL_PQ_RESULT 0 (palResetQueue q.val c))

/-- ACTIVE from RESET, after the check. -/
def palActivate (q : Nat) (c : Chip) : Chip :=
  if palActive q c || !palContextOk q c then wr Reg.PAL_PQ_RESULT 2 c
  else
    let c := if palF q 0x14 12 12 c = 1 then bindProducer (palF q 0x14 11 0 c) 0x80 q c else c
    wr Reg.PAL_PQ_RESULT 0 (setPalQ q PalQ.idle (palPut q 0x24 31 31 1 (palPut q 0x20 0 0 1 c)))

/-- PQ_ACTIVE. -/
def execPqActive (p : Party) (q : Fin 4096) : State → Host.Outcome State Fault Refusal := onChip (palCommand p q.val 1 (palActivate q.val))

/-- VOLUME_VALIDATE: `VALID` written 1 (R664). -/
def volValidate (v : Nat) (c : Chip) : Chip :=
  let base := rd (Reg.PAL_BASE_STRIPE v) c
  let n := rd (Reg.PAL_STRIPES v) c
  let off := 0x810 + 0x20 * v
  if rdb (Reg.PAL_VALID v) c then c
  else if rd Reg.PAL_ARRAY_STRIPES c < base + n then refuse 0x80 0x04 off c
  else if (List.range 64).any fun w => rdb (Reg.PAL_VALID w) c &&
      overlaps base n (rd (Reg.PAL_BASE_STRIPE w) c) (rd (Reg.PAL_STRIPES w) c) then refuse 0x80 0x05 off c
  else wr (Reg.PAL_VALID v) 1 c

def execVolumeValidate (p : Party) (v : Fin 64) : State → Host.Outcome State Fault Refusal :=
  onChip (regAccess p 0x80 (0x810 + 0x20 * v.val) (2 ^ 31) fun c =>
    if isHost p then volValidate v.val c else refuse 0x80 0x03 (0x810 + 0x20 * v.val) c)

/-! ### The page -/

/-- PAL enters RUNNING (R634, R636): SSDs whose pages do not run are missing; journalled stripes are replayed. -/
def palOn (c : Chip) : Chip :=
  let up := (List.range 8).filter fun n => running (0x18 + n) c
  let c := wr Reg.PAL_MISSING (((List.range 8).filter fun n => !up.elem n).map (2 ^ ·)).sum c
  let least := (up.map Config.ssdBytes).foldl min (Config.ssdBytes (up.headD 0))
  let c := arrayState (wr Reg.PAL_ARRAY_STRIPES ((least - 0x10000000) / 0x10000) c)
  if c.palJournal.isEmpty then c
  else raise 0x80 0x0F07 0 { c.palJournal.foldl (fun c s => stripeReplay s c) c with palJournal := [] }

/-- PAL enters OFF: every queue is in RESET. -/
def palOff (c : Chip) : Chip :=
  let c := (c.palQs.map (·.1)).foldl (fun c q => palResetQueue q c) c
  unbindPage 0x80 (wr Reg.PAL_ARRAY_STATE 0 { c with palCmds := [], palQs := [], palRebuild := none })

end Sys2Proof.Machine
end

