-- ==== Sys2Proof/Machine/LaybyRec.lean ====
section
/-! DEFINITION. Layby's tables, slots and records (R495–R507, R515, R527, R530–R536): the layouts, the making of a record and its check, the choice of partners. -/

namespace Sys2Proof.Machine

/-- Layby's owner code. -/
def lbyCode : Nat := 0x9008

def lbyUp (f : LbySt → LbySt) (c : Chip) : Chip := { c with lby := f c.lby }

/-! ### Members (R500–R502) -/

def lbyMember (r : Nat) (c : Chip) : Nat := ld spDev (rd Reg.LBY_MEMBER_TABLE c + 8 * r) 8 c
def lbyDev (r : Nat) (c : Chip) : Nat := bits (lbyMember r c) 15 0
def lbyGroup (r : Nat) (c : Chip) : Nat := bits (lbyMember r c) 31 16
def lbyDeparted (r : Nat) (c : Chip) : Bool := (lbyMember r c).testBit 32
def lbyMembers (c : Chip) : Nat := rd Reg.LBY_MEMBERS c
def lbyRank (c : Chip) : Nat := rd Reg.LBY_MY_RANK c

/-- The ranks that are not `DEPARTED`, ascending. -/
def lbyRanks (c : Chip) : List Nat := (List.range (lbyMembers c)).filter fun r => !lbyDeparted r c

/-- Every such rank but the member's own. -/
def lbyOthers (c : Chip) : List Nat := (lbyRanks c).filter fun r => r != lbyRank c

/-- The leader as the member knows it (R501, R514). -/
def lbyLeaderOf (c : Chip) : Nat :=
  let rs := (lbyRanks c).filter fun r => !c.lby.failed.elem r
  match rs.find? fun r => !c.lby.leaving.elem r with
  | some r => r
  | none => rs.headD (lbyRank c)

def lbyIsLeader (c : Chip) : Bool := rd Reg.LBY_LEADER c == lbyRank c

/-- What a member reported at START (R502). -/
def lbyReport (r : Nat) (c : Chip) : Option (Nat × Nat × Nat) := c.lby.reports.find? fun x => x.1 == r

/-- Partner of rank `r` (R502), `used` the bytes assigned so far as (rank, bytes), among members not under handback. -/
def lbyPartnerOf (r : Nat) (used : List (Nat × Nat)) (c : Chip) : Option Nat :=
  let p := lbyMembers c
  let need := match lbyReport r c with
    | some x => 2 * x.2.1
    | none => 0
  ((List.range (p - 1)).map fun k => (r + 1 + k) % p).find? fun q =>
    lbyGroup q c != lbyGroup r c && !lbyDeparted q c && !c.lby.leaving.elem q &&
    (match lbyReport q c with
     | some x => decide (((used.filter fun u => u.1 == q).map (·.2)).sum + need ≤ x.2.2)
     | none => true)

/-- Partners assigned in ascending rank order, as (rank, partner). -/
def lbyAssign (c : Chip) : List Nat → List (Nat × Nat) → List (Nat × Option Nat)
  | [], _ => []
  | r :: t, used =>
    let q := lbyPartnerOf r used c
    let need := match lbyReport r c with
      | some x => 2 * x.2.1
      | none => 0
    (r, q) :: lbyAssign c t (match q with | some q => (q, need) :: used | none => used)

/-! ### Manifest entries and headers (R504–R506) -/

/-- Entry `i` of the manifest. -/
def lbyEntry (i : Nat) (c : Chip) : List Nat := ldBytes spDev (rd Reg.LBY_MANIFEST c + 256 * i) 256 c
def lbyCount (c : Chip) : Nat := rd Reg.LBY_MANIFEST_COUNT c

/-- Bits `[hi:lo]` of the quadword at `off` of a header. -/
def hdrF (h : List Nat) (off hi lo : Nat) : Nat := bits (leNat ((h.drop off).take 8)) hi lo
def hdrFmt (h : List Nat) : Nat := hdrF h 0 11 8
def hdrDims (h : List Nat) : Nat := hdrF h 0 15 12
def hdrProt (h : List Nat) : Bool := hdrF h 0 16 16 == 1
def hdrTensor (h : List Nat) : Nat := hdrF h 0x10 63 0
def hdrReplicas (h : List Nat) : Nat := if hdrF h 0x18 47 32 = 0 then 65536 else hdrF h 0x18 47 32
/-- (global extent, start, extent) of each dimension below `NDIM`. -/
def hdrBox (h : List Nat) : List (Nat × Nat × Nat) :=
  (List.range (hdrDims h)).map fun d =>
    (leNat ((h.drop (0x38 + 6 * d)).take 6), leNat ((h.drop (0x68 + 6 * d)).take 6), leNat ((h.drop (0x98 + 6 * d)).take 6))

/-- Elements of the slice. -/
def hdrElems (h : List Nat) : Nat := (hdrBox h).foldl (fun n d => n * d.2.2) 1

/-- Bytes of the slice's data: the elements, then the scale array of an MX format (R505). -/
def hdrBytes (h : List Nat) : Nat :=
  elemBytes (hdrFmt h) (hdrElems h) + if isMx (hdrFmt h) then hdrElems h / 32 else 0

/-- The coordinates of element `j` of a box in row-major order, last dimension first in the lists. -/
def boxCoords : List (Nat × Nat × Nat) → Nat → List Nat
  | [], _ => []
  | d :: t, j => (d.2.1 + j % d.2.2) :: boxCoords t (j / d.2.2)

/-- The row-major index of coordinates in an array of the given extents, last dimension first in both lists. -/
def rowMajor : List Nat → List Nat → Nat
  | s :: ss, x :: xs => x + s * rowMajor ss xs
  | _, _ => 0

/-- The global logical index of element `j` of the slice (R505). -/
def hdrIndex (h : List Nat) (j : Nat) : Nat :=
  let b := (hdrBox h).reverse
  rowMajor (b.map (·.1)) (boxCoords b j)

/-- The place in the slice of the element with those coordinates (last dimension first), when it lies in the slice's box. -/
def hdrPlace (h : List Nat) (xs : List Nat) : Option Nat :=
  let b := (hdrBox h).reverse
  if (b.zip xs).all (fun e => decide (e.1.2.1 ≤ e.2) && decide (e.2 < e.1.2.1 + e.1.2.2)) then
    some (rowMajor (b.map (·.2.2)) ((b.zip xs).map fun e => e.2 - e.1.2.1))
  else none

/-- The digest of a slice's data under a seed (R505, R554–R556, R558). -/
def hdrDigest (h : List Nat) (seed : Nat) (byte : Nat → Nat) : Nat :=
  let f := hdrFmt h
  let n := hdrElems h
  let e := (List.range n).foldl (fun a j => (a + digestTerm seed (hdrIndex h j) (canonCode f (elemCode f byte j))) % 2 ^ 64) 0
  if isMx f then
    (List.range (n / 32)).foldl (fun a k =>
      (a + digestTerm seed (Nat.lor (hdrIndex h (32 * k)) (2 ^ 63)) (byte (elemBytes f n + k))) % 2 ^ 64) e
  else e

/-- A manifest entry is well formed (R504–R506). -/
def lbyEntryOk (c : Chip) (h : List Nat) : Bool :=
  let f := hdrFmt h
  let b := hdrBox h
  hdrF h 0 7 0 == 1 && f != 0xF && decide (1 ≤ hdrDims h) && decide (hdrDims h ≤ 8) && hdrF h 0 31 19 == 0 && hdrF h 0x18 63 48 == 0 &&
  b.all (fun d => decide (1 ≤ d.2.2) && decide (d.2.1 + d.2.2 ≤ d.1)) &&
  (!isMx f || (match b.getLast? with | some d => d.2.2 % 32 == 0 | none => false)) &&
  decide (hdrBytes h ≤ 2 ^ 32) && (!rdb Reg.LBY_PROT c || hdrBytes h % 16 == 0) &&
  hdrF h 8 63 0 == 0 && hdrF h 0x20 63 0 == 0 && hdrF h 0x28 63 0 == 0 && hdrF h 0x30 63 0 == 0

/-- The replica index that writes a slice (R515). -/
def hdrWriter (h : List Nat) : Nat := (hdrTensor h + hdrIndex h 0) % 2 ^ 64 % hdrReplicas h
/-- This member's own replica index (R506). -/
def entryReplica (h : List Nat) : Nat := hdrF h 0xF8 31 16

/-- Bytes of a record: header and data, padded to 64 B (R497). -/
def recBytes (h : List Nat) : Nat := 256 + alignUp (hdrBytes h) 64

/-- The offsets of records of the given sizes in a slot, and the end of the last (R497). -/
def slotOffsets : Nat → List Nat → List Nat × Nat
  | at0, [] => ([], at0)
  | at0, n :: t => let r := slotOffsets (alignUp (at0 + n) 4096) t; (at0 :: r.1, if t.isEmpty then at0 + n else r.2)

def slotLayout (ns : List Nat) : List Nat × Nat := slotOffsets (alignUp (64 + 8 * ns.length) 4096) ns

/-- A slot header (R497). -/
def slotHeader (epoch job n bytes state rank : Nat) : List Nat :=
  leBytes 8 epoch ++ leBytes 4 job ++ leBytes 4 n ++ leBytes 8 bytes ++ leBytes 8 (state + rank * 2 ^ 16) ++ List.replicate 32 0

/-! ### The near copy -/

def nearSlot (e : Nat) (c : Chip) : Nat := rd Reg.LBY_NEAR_AREA c + e % 2 * rd Reg.LBY_NEAR_SLOT c
def slotEpoch (a : Nat) (c : Chip) : Nat := ld spDev a 8 c
def slotState3 (a : Nat) (c : Chip) : Nat := ldF spDev (a + 24) 2 0 c
/-- `SLOT_STATE` written. -/
def slotMark (a v : Nat) (c : Chip) : Chip := putF spDev (a + 24) 2 0 v c
/-- A slot returned to EMPTY. -/
def slotEmpty (a : Nat) (c : Chip) : Chip := zero spDev a 64 c

/-- The entries of the manifest. -/
def lbyEntries (c : Chip) : List (List Nat) := (List.range (lbyCount c)).map fun i => lbyEntry i c

/-- Offsets of the records in the near slot. -/
def nearOffsets (c : Chip) : List Nat × Nat := slotLayout ((lbyEntries c).map recBytes)

/-- The header of record `i` in a near slot. -/
def nearHeader (e off : Nat) (c : Chip) : List Nat := ldBytes spDev (nearSlot e c + off) 256 c

/-- The member writes a record whose header is `h` into the other copies (R515, R516, R517). -/
def recWritten (h ent : List Nat) : Bool := hdrWriter ent == entryReplica ent || hdrF h 0 17 17 == 1 || hdrF h 0 18 18 == 1

/-- The records of epoch `e` that the member writes into the Layby copy and the durable copy: (offset in the near slot,
bytes). -/
def lbyWrites (e : Nat) (c : Chip) : List (Nat × Nat) :=
  (((nearOffsets c).1.zip (lbyEntries c)).filter fun x => recWritten (nearHeader e x.1 c) x.2).map fun x => (x.1, recBytes x.2)

/-- `LBY_BYTES` (R502): the records that the member writes. -/
def lbyBytes (c : Chip) : Nat := (((lbyEntries c).filter fun h => hdrWriter h == entryReplica h).map recBytes).sum

/-- A header sealed over its data: ciphertext and tag with `PROT` 1, then `HDR_CRC` (R504, R507). -/
def recSeal (key h data : List Nat) : List Nat × List Nat :=
  let r := if hdrProt h then gcmEnc key ((h.drop 0xD0).take 12) (h.take 0xE0) data else (data, List.replicate 16 0)
  let h := h.take 0xE0 ++ r.2 ++ (h.drop 0xF0).take 12
  (h ++ leBytes 4 (crc32 h), r.1)

/-- The key of a record: `KEY_PAGE` and `KEY_SLOT` of its header. -/
def recKey (h : List Nat) (c : Chip) : List Nat := slotKey (hdrF h 0xC8 7 0) (hdrF h 0xC8 10 8) c

/-- The header of record `i` of epoch `e` from its manifest entry (R504, R507), not sealed. -/
def recHeader (ent data : List Nat) (i e att : Nat) (missed : Bool) (c : Chip) : List Nat :=
  let prot := rdb Reg.LBY_PROT c
  let byte := fun j => data.getD j 0
  let dev := rd Reg.AHN_DEVICE_ID c
  let page := rd Reg.LBY_KEY_PAGE c
  let iv := if prot then leBytes 2 dev ++ leBytes 4 e ++ leBytes 2 att ++ leBytes 4 i else List.replicate 12 0
  leBytes 4 (1 + hdrFmt ent * 2 ^ 8 + hdrDims ent * 2 ^ 12 + b2n prot * 2 ^ 16 + b2n missed * 2 ^ 18) ++ leBytes 4 (rd Reg.LBY_JOB_ID c) ++
  leBytes 8 e ++ leBytes 8 (hdrTensor ent) ++
  leBytes 8 (hdrF ent 0x18 15 0 + entryReplica ent * 2 ^ 16 + hdrF ent 0x18 47 32 * 2 ^ 32) ++
  leBytes 8 (hdrBytes ent) ++ leBytes 8 (hdrDigest ent 0 byte) ++ leBytes 8 (hdrDigest ent 1 byte) ++ (ent.drop 0x38).take 0x90 ++
  leBytes 4 (if prot then page + rd (Reg.KEY_TX_SLOT page) c * 2 ^ 8 else 0) ++ leBytes 4 att ++ iv ++ leBytes 4 0 ++ List.replicate 16 0 ++
  leBytes 8 (now c) ++ leBytes 2 dev ++ leBytes 2 (lbyRank c) ++ leBytes 4 0

/-- The data of a record in plain (R507). -/
def recPlain (addr : Nat) (h : List Nat) (c : Chip) : List Nat :=
  let d := ldBytes spDev (addr + 256) (hdrF h 0x20 63 0) c
  if hdrProt h then (gcmDec (recKey h c) ((h.drop 0xD0).take 12) (h.take 0xE0) d ((h.drop 0xE0).take 16)).1 else d

/-- A record is intact (R530). -/
def recIntact (addr : Nat) (h : List Nat) (c : Chip) : Bool :=
  let d := ldBytes spDev (addr + 256) (hdrF h 0x20 63 0) c
  let p := recPlain addr h c
  hdrF h 0xF8 63 32 == crc32 (h.take 0xFC) && hdrBytes h == hdrF h 0x20 63 0 &&
  (!hdrProt h || (gcmDec (recKey h c) ((h.drop 0xD0).take 12) (h.take 0xE0) d ((h.drop 0xE0).take 16)).2) &&
  hdrDigest h 0 (fun j => p.getD j 0) == hdrF h 0x28 63 0 && hdrDigest h 1 (fun j => p.getD j 0) == hdrF h 0x30 63 0

/-- A record's `REPLICA_DIVERGENT` set in the near copy, and the record sealed again (R504, R516). -/
def recDiverge (addr : Nat) (c : Chip) : Chip :=
  let h := ldBytes spDev addr 256 c
  let p := recPlain addr h c
  let h' := leBytes 4 (setBits (hdrF h 0 31 0) 17 1 1) ++ h.drop 4
  put spDev addr (recSeal (recKey h c) h' p).1 c

/-- The device address of an offset in the accelerator window of Spur port `a` (R699). -/
def spurAddr (a off : Nat) : Nat := 0x10000000000 * (a + 1) + off

/-- Capture of one slice into its record (R507, R512): answers whether its data was good and its key usable. -/
def captureOne (e att i off : Nat) (missed : Bool) (c : Chip) : Bool × Chip :=
  let ent := lbyEntry i c
  let acc := hdrF ent 0xF8 2 0
  let n := hdrBytes ent
  let src := readRange lbyCode (spurAddr acc (hdrF ent 0xF0 63 0)) n c
  let page := rd Reg.LBY_KEY_PAGE c
  let slot := rd (Reg.KEY_TX_SLOT page) c
  if src.2 then (false, raise 0x78 0x0A07 2 c)
  else if rdb Reg.LBY_PROT c && (rd (Reg.KEY_OWNER page) c != lbyCode || slotType page slot c != 2) then (false, c)
  else if rdb Reg.LBY_PROT c && keyRefuses page slot c then (false, keyRefused c)
  else
    let data := src.1
    let r := recSeal (slotKey page slot c) (recHeader ent data i e att missed c) data
    let c := if rdb Reg.LBY_PROT c then keyUse page slot c else c
    (true, bump (Reg.LBY_CTR 2) n
      (put spDev (nearSlot e c + off) (r.1 ++ r.2 ++ List.replicate (alignUp n 64 - n) 0) c))

/-- Every slice captured, in manifest order. -/
def captureAll (e att : Nat) (missed : List Nat) : List Nat → Nat → Chip → Bool × Chip
  | [], _, c => (true, c)
  | off :: t, i, c => match captureOne e att i off (missed.elem i) c with
    | (true, c) => captureAll e att missed t (i + 1) c
    | (false, c) => (false, c)

/-! ### The budget (R527) -/

/-- B in ns without `STOP_WAIT_MS`, as a fraction; R_near is 17.07 B/ns for each Cellar channel of LAYBY_NEAR. -/
def lbyRest (bytes : Nat) (c : Chip) : Nat × Nat :=
  let n := ((List.range 64).filter fun k => rd (Reg.MEM_ACTIVITY 6 k) c == 8).length
  let near := 1707 * n
  let peer := rd Reg.LBY_PEER_RATE c
  let dur := rd Reg.LBY_DUR_RATE c
  (650000000 * (near * peer * dur) + 200 * rd Reg.LBY_NEAR_SLOT c * (peer * dur) + bytes * (near * dur) + bytes * (near * peer) +
     rd Reg.LBY_HELD_SIZE c / 2 * (near * dur), near * peer * dur)

/-- The budget exceeds 60 s. -/
def lbyOverBudget (c : Chip) : Bool :=
  let r := lbyRest (rd Reg.LBY_NEAR_SLOT c) c
  r.2 == 0 || decide (60000000000 * r.2 < rd Reg.LBY_STOP_WAIT_MS c * 1000000 * r.2 + r.1)

/-- The wait that R526 leaves until a deadline is not positive. -/
def lbyNoWait (deadline : Nat) (c : Chip) : Bool :=
  let r := lbyRest (lbyBytes c) c
  decide ((deadline - now c) * r.2 ≤ r.1)

/-! ### Restore from the member's own near copy (R530–R537) -/

/-- The member's own near copy is a source: an entry of the source table with its own `DEV` and `KIND` 0; answers the old jobs. -/
def ownSources (c : Chip) : List Nat :=
  ((List.range (rd Reg.LBY_SOURCE_COUNT c)).map fun i => ld spDev (rd Reg.LBY_SOURCE_TABLE c + 16 * i) 8 c).filterMap fun v =>
    if bits v 15 0 = rd Reg.AHN_DEVICE_ID c ∧ bits v 17 16 = 0 then some (bits v 63 32) else none

/-- The records in the near slot of epoch `e` of a job, as addresses. -/
def nearRecords (e : Nat) (c : Chip) : List Nat :=
  let a := nearSlot e c
  if slotEpoch a c = e ∧ (slotState3 a c = 3 ∨ slotState3 a c = 4) ∧ (ownSources c).elem (ld spDev (a + 8) 4 c) then
    (List.range (ld spDev (a + 12) 4 c)).map fun i => a + ld spDev (a + 64 + 8 * i) 8 c
  else []

/-- The parts of the slice `ent` that a record holds, as the slice's data after they are placed (R532): elements by their
coordinates, and for an MX format the scale of each block. -/
def slicePlace (ent h : List Nat) (old src : List Nat) : List Nat :=
  let f := hdrFmt ent
  let n := hdrElems ent
  let b := (hdrBox ent).reverse
  let byteOld := fun j => old.getD j 0
  let byteSrc := fun j => src.getD j 0
  let codes := (List.range n).map fun j => match hdrPlace h (boxCoords b j) with
    | some k => elemCode f byteSrc k
    | none => elemCode f byteOld j
  let scales := if isMx f then (List.range (n / 32)).map fun k => match hdrPlace h (boxCoords b (32 * k)) with
      | some m => byteSrc (elemBytes f (hdrElems h) + m / 32)
      | none => byteOld (elemBytes f n + k)
    else []
  packCodes f codes ++ scales

/-- One record used for one slice (R533, R536, R537): a poisoned one sets `POISON`, one that is not intact `CORRUPT_COPY`, and
a divergent one is used only when `DIVERGE_PICK` names its replica. -/
def restoreFrom (ent : List Nat) (e a : Nat) (c : Chip) : Chip :=
  let h := ldBytes spDev a 256 c
  if hdrTensor h ≠ hdrTensor ent ∨ hdrF h 8 63 0 ≠ e ∨ hdrFmt h ≠ hdrFmt ent ∨ hdrDims h ≠ hdrDims ent then c
  else if anyPoison spDev a (256 + hdrF h 0x20 63 0) c then raise 0x78 0x0A07 2 c
  else if !recIntact a h c then raise 0x78 0x0A09 1 c
  else if hdrF h 0 17 17 = 1 ∧ rd Reg.LBY_DIVERGE_PICK c = 0xFFFF then raise 0x78 0x0A08 2 c
  else if hdrF h 0 17 17 = 1 ∧ rd Reg.LBY_DIVERGE_PICK c ≠ hdrF h 0x18 31 16 then c
  else
    let acc := hdrF ent 0xF8 2 0
    let addr := spurAddr acc (hdrF ent 0xF0 63 0)
    writeRange lbyCode addr (slicePlace ent h (readRange lbyCode addr (hdrBytes ent) c).1 (recPlain a h c)) c

/-- Every slice of the manifest restored from the member's own near copy. -/
def restoreNear (e : Nat) (c : Chip) : Chip :=
  let recs := nearRecords e c
  (lbyEntries c).foldl (fun c ent => recs.foldl (fun c a => restoreFrom ent e a c) c) c

end Sys2Proof.Machine
end

