-- ==== Sys2Proof/Machine/Layby.lean ====
section
/-! DEFINITION. Layby (R499–R541): jobs, steps, epochs and their commit, Skim, the drain, stopping a job, handback and restore. -/

namespace Sys2Proof.Machine

/-- Layby takes part: its page works. -/
def lbyUpPage (c : Chip) : Bool := working 0x78 c

def lbyJob (c : Chip) : Nat := rd Reg.LBY_JOB_STATE c

/-! ### Messages (R503) -/

/-- A control message to a rank. -/
def lbySend (kind r : Nat) (args : List Nat) (c : Chip) : Chip :=
  let b := leBytes 4 kind ++ leBytes 4 (rd Reg.LBY_JOB_ID c) ++ leBytes 8 (lbyRank c) ++ (args.take 6).flatMap (leBytes 8)
  let q := rd Reg.LBY_LBY_QP c
  (postMsg q 0 (lbyDev r c) q (rd Reg.LBY_LBY_TAG c) 64 none none (b ++ List.replicate (64 - b.length) 0) (List.replicate 20 0) c).2

/-- A control message to every other member. -/
def lbySendAll (kind : Nat) (args : List Nat) (c : Chip) : Chip := (lbyOthers c).foldl (fun c r => lbySend kind r args c) c

/-- A message is for this member's job, and Layby takes it (R499, R503). -/
def lbyHeeds (m : LbyMsg) (c : Chip) : Bool := lbyUpPage c && m.jobId == rd Reg.LBY_JOB_ID c

/-- A WRITE of `n` bytes of device memory, or of the bytes `inl`, to an address at a device and queue pair under a key;
opcode 1 WRITE, 2 WRITE_FLAG (R354, R355). -/
def lbyWrite (opcode dev dqp key raddr : Nat) (src : Option (Nat × Nat)) (inl : List Nat) (c : Chip) : Chip :=
  let s := src.map fun x => ({ target := 3, port := 0, act := activityOf x.1 c, addr := x.1, owner := lbyCode } : Spot)
  let n := match src with
    | some x => x.2
    | none => inl.length
  (postMsg (rd Reg.LBY_LBY_QP c) opcode dev dqp (rd Reg.LBY_LBY_TAG c) n none s inl
    (leBytes 8 raddr ++ leBytes 4 key ++ List.replicate 8 0) c).2

/-! ### GO words and steps (R508–R510) -/

/-- Accelerators of `ACC_MASK`. -/
def lbyAccs (c : Chip) : List Nat := bitList 8 (rd Reg.LBY_ACC_MASK c)

/-- S + 1 written to every `GO_ADDR_a`, unless the step is the ceiling (R509). -/
def lbyGo (s : Nat) (c : Chip) : Chip :=
  if s = rd Reg.LBY_CEILING c then lbyUp (fun l => { l with goHeld := true }) c
  else
    (lbyAccs c).foldl (fun c a => writeRange lbyCode (spurAddr a (rd (Reg.LBY_GO_ADDR a) c)) (leBytes 8 (s + 1)) c)
      (lbyUp (fun l => { l with goHeld := false }) c)

def lbyMark (a : Nat) (c : Chip) : Nat := ld spDev (rd Reg.LBY_MARK_AREA c + 64 * a) 8 c

/-! ### Records sent (R512, R518) -/

/-- The records that the member writes for epoch `e` sent to an address in the slot layout: the directory, the records, and
the slot header last on its own (R497). `flag` sends the header's state word as the WRITE_FLAG of R512. -/
def lbySendSlot (e dev dqp key base : Nat) (flag : Bool) (c : Chip) : Chip :=
  let ws := lbyWrites e c
  let l := slotLayout (ws.map (·.2))
  let dir := l.1.flatMap (leBytes 8)
  let hdr := slotHeader e (rd Reg.LBY_JOB_ID c) ws.length l.2 (if flag then 2 else 4) (lbyRank c)
  let c := if dir.isEmpty then c else lbyWrite 1 dev dqp key (base + 64) none dir c
  let c := (ws.zip l.1).foldl (fun c x => lbyWrite 1 dev dqp key (base + x.2) (some (nearSlot e c + x.1.1, x.1.2)) [] c) c
  if flag then
    lbyWrite 2 dev dqp key (base + 24) none ((hdr.drop 24).take 8)
      (lbyWrite 1 dev dqp key (base + 32) none (hdr.drop 32) (lbyWrite 1 dev dqp key base none (hdr.take 24) c))
  else lbyWrite 1 dev dqp key base none hdr c

/-- The Layby copy of epoch `e` sent to the partner (R512 step 4). The spec gives neither the address of the held slot at the
partner nor its key: both are free values (log entry 33). -/
def lbyToPartner (e : Nat) (c : Chip) : Chip :=
  let base := (freeVal c).toNat
  let key := (freeVal (useFree c)).toNat % 2 ^ 32
  let c := useFree (useFree c)
  let q := rd Reg.LBY_PARTNER c
  let c := bump (Reg.LBY_CTR 3) ((lbyWrites e c).map (·.2)).sum c
  lbySendSlot e (lbyDev q c) (rd Reg.LBY_LBY_QP c) key base true c

/-! ### The durable drain (R518–R521) -/

/-- The drain of epoch `e` begun from its first record. Towards Pail the data is written when it is confirmed. -/
def lbyDrainStart (e : Nat) (c : Chip) : Chip :=
  if rd Reg.LBY_DUR_KIND c = 1 then
    let base := rd Reg.LBY_DUR_ADDR c + e % 2 * (rd Reg.LBY_DUR_SIZE c / 2)
    let dev := rd Reg.LBY_DUR_DEV c
    let c := lbySendSlot e dev (rd Reg.LBY_DUR_QP c) (rd Reg.LBY_DUR_KEY c) base false c
    let q := rd Reg.LBY_LBY_QP c
    let b := leBytes 4 0x0E ++ leBytes 4 (rd Reg.LBY_JOB_ID c) ++ leBytes 8 (lbyRank c) ++ leBytes 8 e
    (postMsg q 0 dev (rd Reg.LBY_DUR_QP c) (rd Reg.LBY_LBY_TAG c) 64 none none (b ++ List.replicate (64 - b.length) 0) (List.replicate 20 0) c).2
  else c

/-- The bytes of a durable half: the slot layout, and where each part goes (R497). -/
def lbyHalf (e : Nat) (c : Chip) : List (Nat × List Nat) :=
  let ws := lbyWrites e c
  let l := slotLayout (ws.map (·.2))
  ((ws.zip l.1).map fun x => (x.2, ldBytes spDev (nearSlot e c + x.1.1) x.1.2 c)) ++
  [(64, l.1.flatMap (leBytes 8)), (0, slotHeader e (rd Reg.LBY_JOB_ID c) ws.length l.2 4 (lbyRank c))]

/-- Bytes written into a volume at a byte offset, block by block. -/
def volPatch (v off : Nat) (bs : List Nat) (c : Chip) : Chip :=
  let b0 := off / 4096
  let n := (off + bs.length + 4095) / 4096 - b0
  if bs.isEmpty then c
  else
    let r := volBytes v (b0 * 4096) (n * 4096) c
    let pre := off - b0 * 4096
    volWrite (rd (Reg.PAL_BASE_STRIPE v) c) (n + 1) b0 n (r.1.take pre ++ bs ++ r.1.drop (pre + bs.length)) r.2.2

/-- A commit puts its epoch up for draining (R520): LATEST abandons an earlier drain. -/
def lbyDrainAdd (e : Nat) (c : Chip) : Chip :=
  if rd Reg.LBY_DUR_KIND c = 0 then c
  else
    let ds := if rdb Reg.LBY_DUR_MODE c then c.lby.drains ++ [e] else [e]
    let c' := lbyUp (fun l => { l with drains := ds }) c
    if ds.head? = some e then lbyDrainStart e c' else c'

/-! ### Handback (R528, R529) -/

/-- The job has stopped on this member. -/
def lbyStopped (c : Chip) : Bool := lbyJob c == 3 || lbyJob c == 4

/-- The held and near areas cleared (R528 step 5); the profile and its scrub follow (steps 6 and 7). -/
def lbyLeave (c : Chip) : Chip :=
  let c := zero spDev (rd Reg.LBY_NEAR_AREA c) (2 * rd Reg.LBY_NEAR_SLOT c) c
  let c := if rd Reg.LBY_HELD_SIZE c = 0 then c else zero spDev (rd Reg.LBY_HELD_AREA c) (rd Reg.LBY_HELD_SIZE c) c
  lbyUp (fun l => { l with left := true, held := [], drains := [], run := none }) c

/-- `DEPARTED` set for a rank (R528 step 4): the leader and the Skim index follow (R501, R517). A member that has carried out
step 3 for its own handback goes on with step 5. -/
def lbyDepart (r : Nat) (c : Chip) : Chip :=
  let c := putF spDev (rd Reg.LBY_MEMBER_TABLE c + 8 * r) 32 32 1 c
  let c := lbyUp (fun l => { l with stale := true }) c
  let c := wr Reg.LBY_LEADER (lbyLeaderOf c) c
  if r = lbyRank c ∧ lbyJob c = 4 ∧ c.lby.shifted = true ∧ c.lby.left = false then lbyLeave c else c

/-- The leader sends DEPART for each rank under handback whose drain it knows to be done, or that drains nothing; for itself
once its own step 3 is done. -/
def lbyDeparts (c : Chip) : Chip :=
  if !lbyIsLeader c || !lbyStopped c then c
  else
    let e := rd Reg.LBY_COMMITTED c
    let done := fun r =>
      if r = lbyRank c then c.lby.shifted
      else rd Reg.LBY_DUR_KIND c == 0 || e == 0 || c.lby.drained.any fun x => x.1 == r && x.2 == e
    (c.lby.leaving.filter fun r => done r && !lbyDeparted r c).foldl (fun c r => lbyDepart r (lbySendAll 0x0F [r] c)) c

/-- Step 3 of R528: each held committed slot goes to its owner's new partner, is dropped when its owner is under handback too,
or is drained in the owner's place with `NO_PARTNER`. -/
def lbyShift (c : Chip) : Chip :=
  let send := fun (c : Chip) (x : LbyHeld) =>
    if x.state ≠ 3 ∨ c.lby.leaving.elem x.owner = true then c
    else
      let n := ld spDev (x.addr + 16) 8 c
      let base := (freeVal c).toNat
      let key := (freeVal (useFree c)).toNat % 2 ^ 32
      match lbyPartnerOf x.owner [] c with
      | some q =>
        let c := useFree (useFree c)
        let c := lbyWrite 1 (lbyDev q c) (rd Reg.LBY_LBY_QP c) key (base + 64) (some (x.addr + 64, n - 64)) [] c
        let h := ldBytes spDev x.addr 64 c
        let c := bump (Reg.LBY_CTR 3) n (lbyWrite 1 (lbyDev q c) (rd Reg.LBY_LBY_QP c) key base none (h.take 24) c)
        lbyWrite 2 (lbyDev q c) (rd Reg.LBY_LBY_QP c) key (base + 24) none ((h.drop 24).take 8) c
      | none =>
        let c := raise 0x78 0x0A01 2 c
        if rd Reg.LBY_DUR_KIND c = 1 then
          lbyWrite 1 (rd Reg.LBY_DUR_DEV c) (rd Reg.LBY_DUR_QP c) (rd Reg.LBY_DUR_KEY c) base (some (x.addr, n)) [] (useFree c)
        else if rd Reg.LBY_DUR_KIND c = 2 then volPatch (rd Reg.LBY_DUR_VOLUME c) (rd Reg.LBY_DUR_ADDR c + x.epoch % 2 * (rd Reg.LBY_DUR_SIZE c / 2)) (ldBytes spDev x.addr n c) c
        else c
  let c := c.lby.held.foldl send c
  let c := lbyUp (fun l => { l with shifted := true }) c
  if lbyDeparted (lbyRank c) c then lbyLeave c else lbyDeparts c

/-- Step 2 of R528: the latest committed epoch is drained, unless it is durable or there is nothing to drain; then step 3. -/
def lbyHandback (c : Chip) : Chip :=
  if lbyJob c ≠ 4 ∨ c.lby.shifted = true then c
  else
    let e := rd Reg.LBY_COMMITTED c
    if e = 0 ∨ rd Reg.LBY_DUR_KIND c = 0 ∨ rd Reg.LBY_DURABLE c = e then lbyShift c
    else if c.lby.drains.elem e then c
    else lbyDrainAdd e c

/-- The job stops on this member: HALTED, or HANDBACK on a member that accepted a notice (R539). -/
def lbyStop (c : Chip) : Chip :=
  if lbyJob c ≠ 2 then c
  else
    let c := wr Reg.LBY_JOB_STATE (if c.lby.own then 4 else 3) c
    let c := lbyUp (fun l => { l with wait := none, steps := none }) c
    if c.lby.own then lbyHandback (lbyDeparts (wr Reg.LBY_LEADER (lbyLeaderOf c) c)) else lbyDeparts c

/-! ### Epochs (R511–R514) -/

/-- Earlier aborted attempts of an epoch on this member (R511). -/
def lbyTries (e : Nat) (c : Chip) : Nat := match c.lby.tries.find? fun x => x.1 == e with
  | some x => x.2
  | none => 0

/-- The slot that epoch `e` needs is free: its epoch is superseded, and its drain is not needed any more (R512 step 1, R520). -/
def lbySlotFree (e : Nat) (c : Chip) : Bool :=
  let a := nearSlot e c
  let old := slotEpoch a c
  slotState3 a c == 0 || old == e ||
  (decide (old < rd Reg.LBY_COMMITTED c) &&
   (!rdb Reg.LBY_DUR_MODE c || rd Reg.LBY_DUR_KIND c == 0 || decide (old ≤ rd Reg.LBY_DURABLE c)))

/-- Epoch `e` aborted on this member (R511, R513): its slots return to EMPTY; `COMMITTED` keeps its value. -/
def lbyAbort (e : Nat) (c : Chip) : Chip :=
  if e ≤ rd Reg.LBY_COMMITTED c then c
  else
    let mine := match c.lby.run with
      | some r => r.epoch == e
      | none => false
    let c := if mine then slotEmpty (nearSlot e c) c else c
    let c := (c.lby.held.filter fun h => h.epoch == e).foldl (fun c h => slotEmpty h.addr c) c
    let t := lbyTries e c
    let c := lbyUp (fun l => { l with
      run := if mine then none else l.run
      tries := if mine then (e, t + 1) :: l.tries.filter (fun x => x.1 != e) else l.tries
      held := l.held.filter (fun h => h.epoch != e)
      ready := [], digests := l.digests.filter fun m => m.a0 != e }) c
    if mine then bump (Reg.LBY_CTR 1) 1 (raise 0x78 0x0A02 0 c) else c

/-- The running epoch aborted on every member by this one; the spec gives `ARG1` no codes, it is a free value. -/
def lbyAbortAll (c : Chip) : Chip :=
  match c.lby.run with
  | some r => lbyAbort r.epoch (lbySendAll 0x0D [r.epoch, (freeVal c).toNat] (useFree c))
  | none => c

/-- A capture begins (R512 step 1), or waits for its slot. An attempt above 0xFFFF is refused and aborts (R511). -/
def lbyCapture (s : Nat) (c : Chip) : Chip :=
  let e := c.lby.next
  if c.lby.run.isSome || !lbySlotFree e c then lbyUp (fun l => { l with wait := some s }) c
  else
    let n := nearOffsets c
    let c := lbyUp (fun l => { l with run := some ⟨e, s, l.last == some s, 1, false, 0⟩, wait := none, ready := [] }) c
    let c := put spDev (nearSlot e c) (slotHeader e (rd Reg.LBY_JOB_ID c) (lbyCount c) n.2 1 (lbyRank c)) c
    if 0xFFFF < lbyTries e c then lbyGo s (lbyAbortAll c) else c

/-- A checkpoint step that waits begins once its slot is free. -/
def lbyResume (c : Chip) : Chip := match c.lby.wait with
  | some s => lbyCapture s c
  | none => c

/-- COMMIT of epoch `e` on a member (R512 step 8, R514): near and held slots become COMMITTED, the drain follows; the final
epoch stops the job. -/
def lbyCommit (e : Nat) (c : Chip) : Chip :=
  if e ≤ rd Reg.LBY_COMMITTED c then c
  else
    let final := match c.lby.run with
      | some r => r.final
      | none => false
    let c := slotMark (nearSlot e c) 3 c
    let c := (c.lby.held.filter fun h => h.epoch == e).foldl (fun c h => slotMark h.addr 3 c) c
    let c := lbyUp (fun l => { l with
      run := none, next := e + 1, ready := [], query := none
      held := l.held.map fun h => if h.epoch == e then { h with state := 3 } else h }) c
    let c := lbyDrainAdd e (bump (Reg.LBY_CTR 0) 1 (wr Reg.LBY_COMMITTED e c))
    if final then lbyStop c else lbyResume c

/-- The leader commits once every member is PREPARED (R512 step 7). -/
def lbyLeaderCommit (c : Chip) : Chip :=
  match c.lby.run with
  | some r =>
    if r.stage = 3 ∧ (lbyRanks c).all (fun q => c.lby.ready.elem q) = true then
      let c := slotMark (nearSlot r.epoch c) 3 c
      lbyCommit r.epoch (lbySendAll 0x0C [r.epoch] c)
    else c
  | none => c

/-- The member is PREPARED once its Layby copy is held and every DIGEST it answers is answered (R512 step 6). -/
def lbyPrepare (c : Chip) : Chip :=
  match c.lby.run with
  | some r =>
    if r.stage = 2 ∧ r.held = true ∧ r.due = 0 then
      let c := slotMark (nearSlot r.epoch c) 2 c
      let c := lbyUp (fun l => { l with run := some { r with stage := 3 } }) c
      if lbyIsLeader c then lbyLeaderCommit (lbyUp (fun l => { l with ready := lbyRank c :: l.ready }) c)
      else lbySend 0x0B (rd Reg.LBY_LEADER c) [r.epoch] c
    else c
  | none => c

/-! ### Skim (R515–R517) -/

/-- The near record of a DIGEST or WRITE_TOO message: offset and entry. -/
def lbyNamed (m : LbyMsg) (c : Chip) : Option (Nat × List Nat) :=
  ((nearOffsets c).1.zip (lbyEntries c)).find? fun x => hdrTensor x.2 == m.a1 && hdrIndex x.2 0 == m.a2

/-- Own record marked divergent and the Layby copy written again (R516). -/
def lbyDiverged (e off : Nat) (c : Chip) : Chip :=
  let c := recDiverge (nearSlot e c + off) c
  let c := bump (Reg.LBY_CTR 6) 1 (raise 0x78 0x0A03 2 c)
  lbyToPartner e (lbyUp (fun l => { l with run := l.run.map fun r => if r.stage = 2 then { r with held := false } else r }) c)

/-- The writer answers a DIGEST (R516). -/
def lbyDigest (m : LbyMsg) (c : Chip) : Chip :=
  match c.lby.run, lbyNamed m c with
  | some r, some x =>
    if r.epoch ≠ m.a0 then c
    else
      let h := nearHeader r.epoch x.1 c
      let c := lbyUp (fun l => { l with run := some { r with due := r.due - 1 } }) c
      if hdrF h 0x28 63 0 = m.a3 ∧ hdrF h 0x30 63 0 = m.a4 then lbyPrepare c
      else lbyPrepare (lbyDiverged r.epoch x.1 (lbySend 0x09 m.rank [m.a0, m.a1, m.a2] c))
  | _, _ => c

/-- Skim after the capture (R515–R517): the records of this member go to the partner; each other record's digests go to its
writer. The spec gives no map from a replica index to a rank, so the writer's rank is a free value among the members (log entry 33). -/
def lbySkim (missed : List Nat) (r : LbyRun) (c : Chip) : Chip :=
  let offs := (nearOffsets c).1
  let one := fun (c : Chip) (x : Nat × Nat) =>
    let ent := lbyEntry x.1 c
    if hdrWriter ent == entryReplica ent || missed.elem x.1 then c
    else
      let h := nearHeader r.epoch x.2 c
      let q := (freeVal c).toNat % max 1 (lbyMembers c)
      bump (Reg.LBY_CTR 5) (recBytes ent)
        (lbySend 0x08 q [r.epoch, hdrTensor ent, hdrIndex ent 0, hdrF h 0x28 63 0, hdrF h 0x30 63 0] (useFree c))
  let c := ((List.range offs.length).zip offs).foldl one c
  let due := (((List.range offs.length).map fun i => (i, lbyEntry i c)).filter fun x =>
    hdrWriter x.2 == entryReplica x.2 && !missed.elem x.1).foldl (fun n x => n + (hdrReplicas x.2 - 1)) 0
  let c := lbyUp (fun l => { l with run := some { r with stage := 2, due := due }, digests := [], stale := l.stale && !missed.isEmpty }) c
  lbyToPartner r.epoch c

/-- CAPTURE_END (R512, R513): every slice is in its record and the headers are written; GO is written; Skim and the partner
copy begin. A poisoned read or a key that may not be used aborts the epoch. `missed` are the records whose lookup in the
Skim index missed, which only happens while the index is rebuilt (R517). -/
def captureEnd (poisoned : Bool) (missed : List Nat) (c : Chip) : Chip :=
  match c.lby.run with
  | none => c
  | some r =>
    if r.stage ≠ 1 ∨ lbyUpPage c = false then c
    else
      let missed := if c.lby.stale then missed else []
      let l := nearOffsets c
      let att := lbyTries r.epoch c
      let res := if poisoned then (false, raise 0x78 0x0A07 2 c) else captureAll r.epoch att missed l.1 0 c
      if res.1 then
        let c := put spDev (nearSlot r.epoch c + 64) (l.1.flatMap (leBytes 8)) res.2
        let c := put spDev (nearSlot r.epoch c) (slotHeader r.epoch (rd Reg.LBY_JOB_ID c) (lbyCount c) l.2 1 (lbyRank c)) c
        let ds := c.lby.digests
        ds.foldl (fun c m => lbyDigest m c) (lbySkim missed r (lbyGo r.step c))
      else lbyGo r.step (lbyAbortAll res.2)

/-! ### Steps (R508–R510, R523, R524) -/

/-- COL is armed when S reaches T − 1 (R523). -/
def lbyArm (c : Chip) : Chip :=
  match c.lby.last with
  | some t => if t ≤ rd Reg.LBY_STEP c + 1 then wr Reg.COL_STOP_ARM 1 c else c
  | none => c

/-- S reaches `s` (R509, R510, R512, R524). -/
def lbyReach (s : Nat) (c : Chip) : Chip :=
  let cks := (lbyAccs c).map fun a => (lbyMark a c).testBit 40
  let differ := cks.any id && !cks.all id
  let c := if differ then raise 0x78 0x0A06 0 c else c
  let c := lbyArm (wr Reg.LBY_STEP s (lbyUp (fun l => { l with acted := some s }) c))
  if cks.any id || c.lby.last == some s then lbyCapture s c else lbyGo s c

/-- STEP_MARK: accelerator `a` writes its mark of step `step`, and Layby observes it. -/
def stepMark (a step : Nat) (ckpt : Bool) (c : Chip) : Chip :=
  if !lbyUpPage c || !(lbyAccs c).elem a || !(lbyJob c == 1 || lbyJob c == 2) then c
  else
    let c := put spDev (rd Reg.LBY_MARK_AREA c + 64 * a) (leBytes 8 (step % 2 ^ 40 + b2n ckpt * 2 ^ 40)) c
    let c := lbyUp (fun l => { l with marked := setAdd l.marked a }) c
    if (lbyAccs c).all (fun a => c.lby.marked.elem a) then
      let s := ((lbyAccs c).map fun a => lbyMark a c % 2 ^ 40).foldl min (2 ^ 40)
      match c.lby.acted with
      | some t => if t < s then lbyReach s c else c
      | none => lbyReach s c
    else c

/-! ### Stopping a job (R522–R526) -/

/-- HALT_NOW on a member (R525). -/
def lbyHaltNow (c : Chip) : Chip :=
  let c := colStopNow c
  let c := match c.lby.run with
    | some r => lbyAbort r.epoch c
    | none => c
  let c := lbyUp (fun l => { l with goHeld := true, wait := none, last := none }) c
  let c := wr Reg.LBY_CEILING (rd Reg.LBY_STEP c) c
  lbyStop (raise 0x78 0x0A0A 0 (wr Reg.LBY_JOB_STATE 2 c))

/-- The leader sends HALT_NOW (R525, R526). -/
def lbyHaltAll (c : Chip) : Chip := lbyHaltNow (lbySendAll 0x07 [] c)

/-- The member holds at S + 1 (R522, R523). -/
def lbyHold (c : Chip) : Chip :=
  wr Reg.LBY_CEILING (min (rd Reg.LBY_CEILING c) (rd Reg.LBY_STEP c + 1)) (wr Reg.LBY_JOB_STATE 2 c)

/-- The stop step T (R523): `CEILING`, COL, and a GO word that waited for it. -/
def lbyHaltAt (t : Nat) (c : Chip) : Chip :=
  let c := lbyUp (fun l => { l with last := some t }) (wr Reg.LBY_CEILING t (wr Reg.LBY_JOB_STATE 2 c))
  let c := lbyArm c
  let s := rd Reg.LBY_STEP c
  if c.lby.goHeld ∧ s < t then lbyGo s c else c

/-- Every report is in: HALT_AT (R523). -/
def lbyDecide (c : Chip) : Chip :=
  match c.lby.steps with
  | some rs =>
    if c.lby.last.isNone ∧ (lbyRanks c).all (fun q => rs.any fun x => x.1 == q) = true then
      let t := (rs.map (·.2)).foldl max 0 + 1
      lbyHaltAt t (lbySendAll 0x06 [t] c)
    else c
  | none => c

/-- A notice reaches the leader (R523, R526): it opens the stop, or is merged into the stop that runs. -/
def lbyLeaderHalt (rank deadline : Nat) (c : Chip) : Chip :=
  let d := match c.lby.deadline with
    | some x => min x deadline
    | none => deadline
  let c := lbyUp (fun l => { l with deadline := some d, leaving := setAdd l.leaving rank }) c
  let c := if c.lby.steps.isSome then c
    else
      let c := lbyHold (lbySendAll 0x04 [d] c)
      lbyDecide (lbyUp (fun l => { l with steps := some [(lbyRank c, rd Reg.LBY_STEP c)] }) c)
  if lbyNoWait d c then lbyHaltAll c else c

/-- A reclaim notice (R45, R46, R522), a wake source of R724. It is taken while a job runs or stops; a later one only shortens the deadline. -/
def lbyNotice (deadline : Nat) (c : Chip) : Chip :=
  if !lbyUpPage c || !(lbyJob c == 1 || lbyJob c == 2 || lbyJob c == 4) then c
  else
    let d := match c.lby.deadline with
      | some x => if c.lby.own then min x deadline else deadline
      | none => deadline
    let c := wakeHosts 0 (nodeRecord 3 (wr Reg.LBY_RECLAIM_DEADLINE d c))
    if lbyJob c = 4 then lbyUp (fun l => { l with deadline := some d }) c
    else
      let c := lbyUp (fun l => { l with own := true, leaving := setAdd l.leaving (lbyRank c) }) (lbyHold c)
      if lbyIsLeader c then lbyLeaderHalt (lbyRank c) d c
      else lbySend 0x04 (rd Reg.LBY_LEADER c) [d] (lbyUp (fun l => { l with deadline := some d }) c)

/-! ### Starting a job (R499–R502, R538) -/

/-- `CMD_RESULT` of a command that ends. -/
def lbyResult (v : Nat) (c : Chip) : Chip := wr Reg.LBY_CMD_RESULT v (wr Reg.LBY_CMD_BUSY 0 c)

/-- A command that is not accepted ends with 0x01 (R538); a command that runs goes on. -/
def lbyRefuse (c : Chip) : Chip := wr Reg.LBY_CMD_RESULT 1 c

/-- What START and RESTORE check (R500, R504–R506). -/
def lbyJobOk (c : Chip) : Bool :=
  let p := lbyMembers c
  decide (1 ≤ p) && decide (p ≤ 65536) && decide (lbyRank c < p) && lbyDev (lbyRank c) c == rd Reg.AHN_DEVICE_ID c &&
  decide (1 ≤ lbyCount c) && decide (lbyCount c ≤ 1048576) && (lbyEntries c).all (lbyEntryOk c) &&
  decide ((nearOffsets c).2 ≤ rd Reg.LBY_NEAR_SLOT c)

/-- A job's working state made, its slots EMPTY, its registers at their start. -/
def lbyFresh (c : Chip) : Chip :=
  let rs := c.lby.reports
  let c := { c with lby := { LbySt.idle with reports := rs, stale := true } }
  let c := wrRst Reg.LBY_CEILING (wr Reg.LBY_STEP 0 (wr Reg.LBY_COMMITTED 0 (wr Reg.LBY_DURABLE 0 c)))
  wr Reg.LBY_LEADER (lbyLeaderOf c) c

/-- START succeeds on this member with a partner and a first epoch (R502, R511, R539), or ends without one. -/
def lbyPartner (e q : Nat) (c : Chip) : Chip :=
  if rdb Reg.LBY_CMD_BUSY c = true ∧ lbyJob c ≠ 6 then
    if q < lbyMembers c then
      let c := slotEmpty (nearSlot 1 c) (slotEmpty (nearSlot 0 c) c)
      lbyResult 0 (wr Reg.LBY_JOB_STATE 1 (wr Reg.LBY_PARTNER q (lbyUp (fun l => { l with next := e }) c)))
    else raise 0x78 0x0A01 2 (lbyResult 3 c)
  else if lbyJob c = 1 ∧ q < lbyMembers c then wr Reg.LBY_PARTNER q c
  else c

/-- The leader assigns partners once every member has reported (R502). A rank that tells that a rank has none is 0xFFFF_FFFF
(DESIGN CHOICE, log entry 34). -/
def lbyLeaderStart (c : Chip) : Chip :=
  if rdb Reg.LBY_CMD_BUSY c = true ∧ lbyIsLeader c = true ∧ (lbyRanks c).all (fun r => (lbyReport r c).isSome) = true then
    let ps := lbyAssign c (lbyRanks c) []
    let none? := ps.any fun x => x.2.isNone
    let give := fun (c : Chip) (x : Nat × Option Nat) =>
      let q := if none? then 0xFFFFFFFF else x.2.getD 0xFFFFFFFF
      if x.1 = lbyRank c then lbyPartner c.lby.next q c else lbySend 0x03 x.1 [c.lby.next, q] c
    ps.foldl give c
  else c

/-- A write of `LBY_GO` with a command (R538). -/
def lbyCommand (p : Party) (cmd : Nat) (f : Chip → Chip) : Chip → Chip :=
  regAccess p 0x78 0x234 (cmd + 2 ^ 31) fun c => if lbyUpPage c then f c else lbyRefuse c

/-- LBY_START. -/
def execLbyStart (p : Party) : State → Host.Outcome State Fault Refusal :=
  onChip (lbyCommand p 0 fun c =>
    if !(lbyJob c == 0 || lbyJob c == 5) then lbyRefuse c
    else if !lbyJobOk c then lbyResult 2 c
    else
      let c := wr Reg.LBY_CMD_BUSY 1 (lbyFresh c)
      let me := (lbyRank c, lbyBytes c, rd Reg.LBY_HELD_SIZE c)
      if lbyIsLeader c then lbyLeaderStart (lbyUp (fun l => { l with reports := me :: l.reports.filter fun x => x.1 != me.1 }) c)
      else lbySend 0x02 (rd Reg.LBY_LEADER c) [me.2.1, me.2.2] c)

/-- START_REPORT at the leader (R502). -/
def execStartReport (m : LbyMsg) : State → Host.Outcome State Fault Refusal :=
  onChip fun c =>
    if lbyHeeds m c then
      lbyLeaderStart (lbyUp (fun l => { l with reports := (m.rank, m.a0, m.a1) :: l.reports.filter fun x => x.1 != m.rank }) c)
    else c

/-- PARTNER (R502). -/
def execPartner (m : LbyMsg) : State → Host.Outcome State Fault Refusal :=
  onChip fun c => if lbyHeeds m c then lbyPartner m.a0 m.a1 c else c

/-! ### Restore (R530–R537) -/

/-- LBY_RESTORE: accepted, it reads the slot headers of every source (R531); a READ names its source by device. The remote
addresses and keys of near and held copies are stated nowhere: free values (log entry 33). -/
def execLbyRestore (p : Party) : State → Host.Outcome State Fault Refusal :=
  onChip (lbyCommand p 1 fun c =>
    if !(lbyJob c == 0 || lbyJob c == 5) then lbyRefuse c
    else if !lbyJobOk c then lbyResult 2 c
    else
      let c := wr Reg.LBY_JOB_STATE 6 (wr Reg.LBY_CMD_BUSY 1 (lbyFresh c))
      if !lbyIsLeader c then c
      else
        (List.range (rd Reg.LBY_SOURCE_COUNT c)).foldl (fun c i =>
          let v := ld spDev (rd Reg.LBY_SOURCE_TABLE c + 16 * i) 8 c
          if bits v 15 0 = rd Reg.AHN_DEVICE_ID c ∨ bits v 17 16 = 2 then c
          else
            let q := rd Reg.LBY_LBY_QP c
            let opf := leBytes 8 (freeVal c).toNat ++ leBytes 4 (freeVal (useFree c)).toNat ++ List.replicate 8 0
            (postMsg q 3 (bits v 15 0) q (rd Reg.LBY_LBY_TAG c) 8 none none (leBytes 8 4096) opf (useFree (useFree c))).2) c)

/-- The two sources of a conflict written to the report area (R535): for each, `DIGEST_0`, `DIGEST_1` and `DEV`, 24 B (the
layout: DESIGN CHOICE, log entry 34). -/
def lbyWriteReport : Nat → List LbyConflict → Chip → Chip
  | _, [], c => c
  | a, x :: t, c =>
    let b := leBytes 8 x.d00 ++ leBytes 8 x.d01 ++ leBytes 8 x.dev0 ++ leBytes 8 x.d10 ++ leBytes 8 x.d11 ++ leBytes 8 x.dev1
    lbyWriteReport (a + 48) t (writeRange lbyCode a b c)

/-- RESTORE_COMPLETE (R531–R537, R539): no epoch is restorable, or the epoch is placed: from the member's own near copy first,
and the runs that came from other sources. Conflicts and failed sums end with DIVERGENT. -/
def restoreComplete (epoch : Option Nat) (placed : List LbyPlaced) (conflicts : List LbyConflict) (failed : Bool) (c : Chip) : Chip :=
  if lbyJob c ≠ 6 then c
  else match epoch with
    | none => lbyResult 4 (wr Reg.LBY_JOB_STATE 0 c)
    | some e =>
      let c := restoreNear e c
      let c := placed.foldl (fun c x => writeRange lbyCode (spurAddr x.acc x.addr) x.bytes c) c
      let c := lbyWriteReport (rd Reg.LBY_REPORT_ADDR c) conflicts c
      let c := if conflicts.isEmpty && !failed then c else raise 0x78 0x0A08 2 c
      let c := slotEmpty (nearSlot 1 c) (slotEmpty (nearSlot 0 c) c)
      lbyResult 0 (wr Reg.LBY_JOB_STATE 1 (wr Reg.LBY_COMMITTED e (lbyUp (fun l => { l with next := e + 1 }) c)))

def execRestoreComplete (epoch : Option Nat) (placed : List LbyPlaced) (conflicts : List LbyConflict) (failed : Bool) :
    State → Host.Outcome State Fault Refusal := onChip (restoreComplete epoch placed conflicts failed)

/-- END_JOB (R538): the job's slots are cleared. -/
def execEndJob (p : Party) : State → Host.Outcome State Fault Refusal :=
  onChip (lbyCommand p 2 fun c =>
    if lbyJob c = 3 ∨ lbyJob c = 5 ∨ lbyJob c = 0 then
      let c := if rd Reg.LBY_NEAR_SLOT c = 0 then c else slotEmpty (nearSlot 1 c) (slotEmpty (nearSlot 0 c) c)
      let c := c.lby.held.foldl (fun c h => slotEmpty h.addr c) c
      lbyResult 0 (wr Reg.LBY_JOB_STATE 0 { c with lby := LbySt.idle })
    else lbyRefuse c)

/-! ### Rows -/

/-- RECLAIM_GO: a write of `RECLAIM_GO` takes the deadline in `RECLAIM_DEADLINE`. -/
def execReclaimGo (p : Party) : State → Host.Outcome State Fault Refusal :=
  onChip (regAccess p 0x78 0x230 (2 ^ 31) fun c => lbyNotice (rd Reg.LBY_RECLAIM_DEADLINE c) c)

/-- RECLAIM: the message of an operator. -/
def execReclaim (m : LbyMsg) : State → Host.Outcome State Fault Refusal :=
  onChip fun c => if lbyHeeds m c then lbyNotice m.a0 c else c

/-- HALT_QUERY (R523): to the leader it carries a notice; from the leader the member holds at S + 1 and answers. -/
def execHaltQuery (m : LbyMsg) : State → Host.Outcome State Fault Refusal :=
  onChip fun c =>
    if !lbyHeeds m c || !(lbyJob c == 1 || lbyJob c == 2) then c
    else if lbyIsLeader c then lbyLeaderHalt m.rank m.a0 c
    else
      let c := lbyHold c
      lbySend 0x05 m.rank [rd Reg.LBY_STEP c] c

/-- HALT_REPORT at the leader (R523). -/
def execHaltReport (m : LbyMsg) : State → Host.Outcome State Fault Refusal :=
  onChip fun c =>
    if lbyHeeds m c && c.lby.steps.isSome then
      lbyDecide (lbyUp (fun l => { l with steps := l.steps.map fun rs => (m.rank, m.a0) :: rs.filter fun x => x.1 != m.rank }) c)
    else c

/-- HALT_AT (R523). -/
def execHaltAt (m : LbyMsg) : State → Host.Outcome State Fault Refusal :=
  onChip fun c => if lbyHeeds m c && (lbyJob c == 1 || lbyJob c == 2) then lbyHaltAt m.a0 c else c

/-- HALT_NOW (R525). -/
def execHaltNow (m : LbyMsg) : State → Host.Outcome State Fault Refusal :=
  onChip fun c => if lbyHeeds m c && (lbyJob c == 1 || lbyJob c == 2) then lbyHaltNow c else c

/-- DIGEST_MSG (R516): answered once the writer's own capture has ended. -/
def execDigestMsg (m : LbyMsg) : State → Host.Outcome State Fault Refusal :=
  onChip fun c =>
    if !lbyHeeds m c then c
    else match c.lby.run with
      | some r => if r.stage = 1 then lbyUp (fun l => { l with digests := l.digests ++ [m] }) c else lbyDigest m c
      | none => if m.a0 = c.lby.next then lbyUp (fun l => { l with digests := l.digests ++ [m] }) c else c

/-- WRITE_TOO (R516). -/
def execWriteToo (m : LbyMsg) : State → Host.Outcome State Fault Refusal :=
  onChip fun c =>
    if !lbyHeeds m c then c
    else match c.lby.run, lbyNamed m c with
      | some r, some x => if r.epoch = m.a0 ∧ 2 ≤ r.stage then lbyDiverged r.epoch x.1 c else c
      | _, _ => c

/-- HELD_OK (R512 step 5). -/
def execHeldOk (m : LbyMsg) : State → Host.Outcome State Fault Refusal :=
  onChip fun c =>
    match lbyHeeds m c, c.lby.run with
    | true, some r => if r.epoch = m.a0 ∧ r.stage = 2 then lbyPrepare (lbyUp (fun l => { l with run := some { r with held := true } }) c) else c
    | _, _ => c

/-- An answer to DECISION_QUERY other than COMMIT (R514): with every answer in, the new leader sends ABORT_EPOCH. -/
def lbyAnswer (e rank : Nat) (c : Chip) : Chip :=
  match c.lby.query with
  | some (q, rs) =>
    if q ≠ e then c
    else
      let rs := setAdd rs rank
      if (lbyOthers c).all (fun r => rs.elem r || c.lby.failed.elem r) then lbyAbortAll (lbyUp (fun l => { l with query := none }) c)
      else lbyUp (fun l => { l with query := some (q, rs) }) c
  | none => c

/-- PREPARED at the leader (R512 step 7), or in answer to a query. -/
def execPrepared (m : LbyMsg) : State → Host.Outcome State Fault Refusal :=
  onChip fun c =>
    if !lbyHeeds m c then c
    else if c.lby.query.isSome then lbyAnswer m.a0 m.rank c
    else if m.a0 = c.lby.next then lbyLeaderCommit (lbyUp (fun l => { l with ready := setAdd l.ready m.rank }) c)
    else c

/-- COMMIT (R512 step 8). A new leader that queries passes it on to every member (R514). -/
def execCommit (m : LbyMsg) : State → Host.Outcome State Fault Refusal :=
  onChip fun c =>
    if !lbyHeeds m c then c
    else
      let c := if c.lby.query.isSome then lbySendAll 0x0C [m.a0] c else c
      match c.lby.run with
      | some r => if r.epoch = m.a0 ∧ r.stage = 3 then lbyCommit m.a0 c else c
      | none => c

/-- ABORT_EPOCH (R513); in answer to a query it only counts as an answer. -/
def execAbortEpoch (m : LbyMsg) : State → Host.Outcome State Fault Refusal :=
  onChip fun c =>
    if !lbyHeeds m c then c
    else if c.lby.query.isSome then lbyAnswer m.a0 m.rank c
    else lbyResume (lbyAbort m.a0 c)

/-- Epoch `e` is durable on this member (R519): its half stands in the Pail volume, `DURABLE` reads it, the leader is told. -/
def lbyDurable (e : Nat) (c : Chip) : Chip :=
  let n := ((lbyWrites e c).map (·.2)).sum
  let c := if rd Reg.LBY_DUR_KIND c = 2 then
      (lbyHalf e c).foldl (fun c x => volPatch (rd Reg.LBY_DUR_VOLUME c) (rd Reg.LBY_DUR_ADDR c + e % 2 * (rd Reg.LBY_DUR_SIZE c / 2) + x.1) x.2 c) c
    else c
  let c := slotMark (nearSlot e c) 4 (bump (Reg.LBY_CTR 4) n (wr Reg.LBY_DURABLE e c))
  let c := lbyUp (fun l => { l with drains := l.drains.tail }) c
  let c := if lbyIsLeader c then lbyUp (fun l => { l with drained := (lbyRank c, e) :: l.drained.filter fun x => x.1 != lbyRank c }) c
    else lbySend 0x0E (rd Reg.LBY_LEADER c) [e] c
  let c := match c.lby.drains.head? with
    | some d => lbyDrainStart d c
    | none => c
  lbyHandback (lbyResume c)

/-- DRAIN_DURABLE (R519). -/
def drainDurable (c : Chip) : Chip := match c.lby.drains.head? with
  | some e => if lbyUpPage c then lbyDurable e c else c
  | none => c

def execDrainDurable : State → Host.Outcome State Fault Refusal := onChip drainDurable

/-- DRAINED: the store's reply makes the epoch durable; a member's is recorded, and may let it depart (R519, R528). -/
def execDrained (m : LbyMsg) : State → Host.Outcome State Fault Refusal :=
  onChip fun c =>
    if !lbyHeeds m c then c
    else if rd Reg.LBY_DUR_KIND c = 1 ∧ m.dev = rd Reg.LBY_DUR_DEV c then
      (if c.lby.drains.head? = some m.a0 then lbyDurable m.a0 c else c)
    else lbyDeparts (lbyUp (fun l => { l with drained := (m.rank, m.a0) :: l.drained.filter fun x => x.1 != m.rank }) c)

/-- DRAIN_RETRY (R521). -/
def drainRetry (c : Chip) : Chip := match c.lby.drains.head? with
  | some e => lbyDrainStart e (raise 0x78 0x0A04 2 c)
  | none => c

def execDrainRetry : State → Host.Outcome State Fault Refusal := onChip drainRetry

/-- DEPART (R528 step 4). -/
def execDepart (m : LbyMsg) : State → Host.Outcome State Fault Refusal :=
  onChip fun c => if lbyHeeds m c && decide (m.a0 < lbyMembers c) then lbyDepart m.a0 c else c

/-- DECISION_QUERY (R514): a member that has committed the epoch answers COMMIT, a PREPARED one PREPARED, any other
ABORT_EPOCH (DEDUCED, log entry 34). -/
def execDecisionQuery (m : LbyMsg) : State → Host.Outcome State Fault Refusal :=
  onChip fun c =>
    if !lbyHeeds m c then c
    else
      let c := wr Reg.LBY_LEADER m.rank c
      let ready := match c.lby.run with
        | some r => r.epoch == m.a0 && r.stage == 3
        | none => false
      if m.a0 ≤ rd Reg.LBY_COMMITTED c then lbySend 0x0C m.rank [m.a0] c
      else if ready then lbySend 0x0B m.rank [m.a0] c
      else lbySend 0x0D m.rank [m.a0, (freeVal c).toNat] (useFree c)

/-- STEP_MARK. -/
def execStepMark (a : Fin 8) (step : Nat) (ckpt : Bool) : State → Host.Outcome State Fault Refusal := onChip (stepMark a.val step ckpt)
/-- CAPTURE_END. -/
def execCaptureEnd (poisoned : Bool) (missed : List Nat) : State → Host.Outcome State Fault Refusal := onChip (captureEnd poisoned missed)

/-- EPOCH_TIMEOUT (R513): the leader, whose own capture has ended, aborts the epoch. -/
def epochTimeout (c : Chip) : Chip :=
  match c.lby.run with
  | some r => if lbyIsLeader c && decide (2 ≤ r.stage) then lbyResume (lbyAbortAll c) else c
  | none => c

def execEpochTimeout : State → Host.Outcome State Fault Refusal := onChip epochTimeout

/-- DECISION_TIMEOUT (R514): a PREPARED member treats its leader as failed; the next leader queries every member. -/
def decisionTimeout (c : Chip) : Chip :=
  match c.lby.run with
  | some r =>
    if r.stage ≠ 3 ∨ lbyIsLeader c = true then c
    else
      let c := lbyUp (fun l => { l with failed := setAdd l.failed (rd Reg.LBY_LEADER c) }) c
      let c := wr Reg.LBY_LEADER (lbyLeaderOf c) c
      if lbyIsLeader c then lbySendAll 0x10 [r.epoch] (lbyUp (fun l => { l with query := some (r.epoch, []) }) c) else c
  | none => c

def execDecisionTimeout : State → Host.Outcome State Fault Refusal := onChip decisionTimeout

/-- STOP_WAIT_EXPIRY (R525, R526): the leader of the stop that runs sends HALT_NOW. -/
def stopWaitExpiry (c : Chip) : Chip := if c.lby.steps.isSome && lbyJob c == 2 then lbyHaltAll c else c

def execStopWaitExpiry : State → Host.Outcome State Fault Refusal := onChip stopWaitExpiry

/-- HALT_QUERY_TIMEOUT (R525): some report is missing. -/
def haltQueryTimeout (c : Chip) : Chip := if c.lby.steps.isSome && c.lby.last.isNone && lbyJob c == 2 then lbyHaltAll c else c

def execHaltQueryTimeout : State → Host.Outcome State Fault Refusal := onChip haltQueryTimeout

/-- HANDBACK_ABANDON (R529): steps 2 and 3 are given up; steps 4 to 7 follow. -/
def handbackAbandon (c : Chip) : Chip :=
  if lbyJob c ≠ 4 ∨ c.lby.shifted = true then c
  else
    let c := raise 0x78 0x0A05 2 (lbyUp (fun l => { l with drains := [], shifted := true }) c)
    let c := if lbyIsLeader c then lbyDeparts c else c
    if c.lby.left then c else lbyDepart (lbyRank c) c

def execHandbackAbandon : State → Host.Outcome State Fault Refusal := onChip handbackAbandon

/-- Step 7 of R528, once no channel is being zeroed: the node is free. -/
def handbackFree (c : Chip) : Chip :=
  if lbyJob c = 4 ∧ c.lby.left = true then
    nodeRecord 1 (bump (Reg.LBY_CTR 7) 1 (wr Reg.LBY_JOB_STATE 5 { c with lby := LbySt.idle }))
  else c

/-- The flag of a WRITE_FLAG in the held area is seen (R512 step 5): the state word of a slot header (log entry 33); the partner
holds the slot and answers HELD_OK. -/
def lbyFlagSeen (dev : Nat) (spot : Spot) (c : Chip) : Chip :=
  let base := rd Reg.LBY_HELD_AREA c
  if !lbyUpPage c || spot.target != 3 || !(decide (base ≤ spot.addr) && decide (spot.addr < base + rd Reg.LBY_HELD_SIZE c)) then c
  else
    let a := spot.addr - 24
    match (lbyRanks c).find? fun r => lbyDev r c == dev with
    | none => c
    | some r =>
      let e := slotEpoch a c
      let c := lbyUp (fun l => { l with held := ⟨r, e, a, slotState3 a c⟩ :: l.held.filter fun h => !(h.owner == r && h.epoch % 2 == e % 2) }) c
      lbySend 0x0A r [e] c

/-- FLAG_WRITE: the flag of a WRITE_FLAG is written (R314, R355). -/
def execFlagWrite (dev msgId : Nat) : State → Host.Outcome State Fault Refusal :=
  onChip fun c => match c.flags.find? fun f => f.dev == dev && f.msg == msgId with
    | none => c
    | some f => lbyFlagSeen dev f.spot (flagWrite dev msgId c)

/-! ### The page and the cipher alarm -/

/-- LBY enters RUNNING: its queue pair becomes ACTIVE. -/
def lbyOn (c : Chip) : Chip := let q := rd Reg.LBY_LBY_QP c; qpActive q (qpReady q c)

/-- LBY enters OFF: its queue pairs go to RESET (R370), and what it has in progress ends. -/
def lbyOff (c : Chip) : Chip := wr Reg.LBY_JOB_STATE 0 (qpResetOwner lbyCode { c with lby := LbySt.idle })

/-- Layby protection lost its key: the running epoch aborts (R513, R687). -/
def lbyCipherLost (c : Chip) : Chip := if rdb Reg.LBY_PROT c then lbyResume (lbyAbortAll c) else c

/-- CIPHER_ALARM (R685–R687): a source of the always-on domain. -/
def execCipherAlarm (src : AlarmSource) : State → Host.Outcome State Fault Refusal :=
  onChip fun c => lbyCipherLost (cipherAlarm (alarmBit src) c)

/-- ERASE_ALL (R685): from the Steward, or from PF0 with semaphore 0 held. -/
def eraseAll (p : Party) : Chip → Chip :=
  regAccess p 0x88 0x104 2 fun c =>
    if isSteward p || (isHost p && holdsSem p 0 c) then lbyCipherLost (cipherAlarm 4 c) else refuse 0x88 0x03 0x104 c

def execEraseAll (p : Party) : State → Host.Outcome State Fault Refusal := onChip (eraseAll p)

end Sys2Proof.Machine
end

