-- ==== Sys2Proof/Machine/Kvp.lean ====
section
/-! DEFINITION. The KV pager (R472–R490): sequences, page tables, descriptors, tiers, pins, growth, moves and demotion. -/

namespace Sys2Proof.Machine

/-- The pager's owner code. -/
def kvpCode : Nat := 0x9002

/-! ### Addresses (R476, R703) -/

/-- The inbound windows of Spur port `a`, as (base, size, target), those of size 0 left out. -/
def inWindows (a : Nat) (c : Chip) : List (Nat × Nat × Nat) :=
  ((List.range 8).map fun w => (rd (Reg.SPR_IW_BASE a w) c, rd (Reg.SPR_IW_SIZE a w) c, rd (Reg.SPR_IW_TARGET a w) c)).filter
    fun w => decide (w.2.1 ≠ 0)

/-- A device address as accelerator `a` addresses it, when a window covers it (R703). -/
def accView (a dev : Nat) (c : Chip) : Option Nat :=
  ((inWindows a c).find? fun w => decide (w.2.2 ≤ dev) && decide (dev < w.2.2 + w.2.1)).map fun w => w.1 + (dev - w.2.2)

/-- A device address as the accelerators address it at `DEVWIN_LOCAL` (R476): through the window that has that base and covers
it. Without one the offset counts from the window's base itself (DESIGN CHOICE, log entry 29). -/
def kvView (dev : Nat) (c : Chip) : Nat :=
  let base := rd Reg.KVP_DEVWIN_LOCAL c
  let ws := (List.range 8).flatMap fun a => inWindows a c
  match ws.find? fun w => w.1 == base && decide (w.2.2 ≤ dev) && decide (dev < w.2.2 + w.2.1) with
  | some w => base + (dev - w.2.2)
  | none => base + dev

/-! ### Formats and tiers (R474, R481) -/

def fmtClass (m : Nat) (c : Chip) : Nat := bits (ld spDev (rd Reg.KVP_FMT_TABLE c + 4 * m) 4 c) 2 0
def fmtTpp (m : Nat) (c : Chip) : Nat := bits (ld spDev (rd Reg.KVP_FMT_TABLE c + 4 * m) 4 c) 7 4
def pageBytes (cls : Nat) : Nat := 65536 * 2 ^ cls

/-- Base and size of a tier's space: 0 ACCEL (of accelerator `a`), 1 HBM, 2 CELLAR, 3 PAIL. -/
def tierSpace (t a : Nat) (c : Chip) : Nat × Nat :=
  match t with
  | 0 => (rd (Reg.KVP_KV_OFFSET a) c, rd (Reg.KVP_KV_SIZE a) c)
  | 1 => (rd Reg.KVP_HBM_AREA c, rd Reg.KVP_HBM_SIZE c)
  | 2 => (rd Reg.KVP_CELLAR_AREA c, rd Reg.KVP_CELLAR_SIZE c)
  | _ => (rd Reg.KVP_PAIL_OFFSET c, rd Reg.KVP_PAIL_SIZE c)

/-- The place is in that tier (of that accelerator). -/
def inTier (t a t' a' : Nat) : Bool := t == t' && (t != 0 || a == a')

/-- The blocks allocated in a tier: pages, and the places that moves go to. -/
def tierUsed (t a : Nat) (c : Chip) : List (Nat × Nat) :=
  c.kvPages.flatMap fun p =>
    (if inTier p.tier p.acc t a then [(p.loc, pageBytes p.cls)] else []) ++
    (match p.move with
     | some m => if inTier m.1 m.2.1 t a then [(m.2.2, pageBytes p.cls)] else []
     | none => [])

def tierFree (t a : Nat) (c : Chip) : Nat := (tierSpace t a c).2 - ((tierUsed t a c).map (·.2)).sum

/-- The lowest block of `n` bytes, aligned to `n` within the space, that meets none of `used`. -/
def lowestBlock (base size n : Nat) (used : List (Nat × Nat)) : Option Nat :=
  let cands := (base :: used.map fun u => base + alignUp (u.1 + u.2 - base) n).filter fun x =>
    decide (x + n ≤ base + size) && !(used.any fun u => overlaps x n u.1 u.2)
  match cands with
  | [] => none
  | x :: t => some (t.foldl min x)

def tierAlloc (t a cls : Nat) (c : Chip) : Option Nat :=
  let s := tierSpace t a c
  lowestBlock s.1 s.2 (pageBytes cls) (tierUsed t a c)

/-- The free counts shown on the page. -/
def kvCounts (c : Chip) : Chip :=
  let c := wr Reg.KVP_HBM_FREE (tierFree 1 0 c) (wr Reg.KVP_CELLAR_FREE (tierFree 2 0 c) (wr Reg.KVP_PAIL_FREE (tierFree 3 0 c)
    (wr Reg.KVP_DESC_FREE (2 ^ 24 - c.kvPages.length) c)))
  (List.range 8).foldl (fun c a => wr (Reg.KVP_KV_FREE a) (tierFree 0 a c) c) c

/-! ### Sequences (R472, R473) -/

def seqOf (ix : Nat) (c : Chip) : Option KvSeq := c.kvSeqs.find? fun s => s.ix == ix
def seqPages (ix : Nat) (c : Chip) : List KvPage := c.kvPages.filter fun p => p.seq == ix
def seqBase (ix : Nat) (c : Chip) : Nat := rd Reg.KVP_SEQ_TABLE c + 32 * ix

/-- The entry of a sequence in memory. -/
def seqEntry (s : KvSeq) (c : Chip) : Chip :=
  let root := if s.tabs.isEmpty then 0 else kvView s.root c
  put spDev (seqBase s.ix c)
    (leBytes 4 (s.state + b2n s.eph * 2 ^ 3 + s.model * 2 ^ 16) ++ leBytes 4 (s.inc + s.owner * 2 ^ 16) ++ leBytes 4 s.tokens ++
     leBytes 4 (seqPages s.ix c).length ++ leBytes 4 s.reserved ++ leBytes 4 0 ++ leBytes 8 root) c

/-- A sequence kept, and written to its entry. -/
def setSeq (s : KvSeq) (c : Chip) : Chip :=
  seqEntry s { c with kvSeqs := if (seqOf s.ix c).isSome then c.kvSeqs.map fun x => if x.ix == s.ix then s else x else c.kvSeqs ++ [s] }

/-- The handle of a sequence. -/
def seqHandle (s : KvSeq) : Nat := s.ix + s.inc * 2 ^ 20

/-- The sequence that a handle names; `none` when it is stale. -/
def seqNamed (h : Nat) (c : Chip) : Option KvSeq := (seqOf (h % 2 ^ 20) c).filter fun s => s.inc == h / 2 ^ 20 % 2 ^ 12

/-! ### Tables (R476–R479) -/

/-- Table space in use: a sequence's header, interior tables of 4 KiB and leaf tables of 8 KiB. -/
def tabUsed (c : Chip) : List (Nat × Nat) :=
  c.kvSeqs.flatMap fun s => (if s.tabs.isEmpty then [] else [(s.root, 64)]) ++ s.tabs.map fun t => (t.2.2, if t.1 = 0 then 8192 else 4096)

def tabAlloc (n : Nat) (c : Chip) : Option Nat := lowestBlock (rd Reg.KVP_PT_AREA c) (2 ^ rd Reg.KVP_PT_LOG2 c) n (tabUsed c)

def tabAt (s : KvSeq) (level ix : Nat) : Option Nat := (s.tabs.find? fun t => t.1 == level && t.2.1 == ix).map (·.2.2)

/-- The tables on the way to leaf table `leaf` that a sequence lacks, from the root down; none when no space is left. -/
def tabPath (leaf : Nat) : Nat → KvSeq → Chip → Option (KvSeq × Chip)
  | 0, s, c => some (s, c)
  | k + 1, s, c =>
    let ix := leaf / 512 ^ k
    match tabAt s k ix with
    | some _ => tabPath leaf k s c
    | none =>
      match tabAlloc (if k = 0 then 8192 else 4096) c with
      | none => none
      | some a =>
        let s' := { s with tabs := s.tabs ++ [(k, ix, a)] }
        let c := zero spDev a (if k = 0 then 8192 else 4096) c
        let c := match tabAt s (k + 1) (ix / 512) with
          | some up => putN spDev (up + 8 * (ix % 512)) 8 (setBits (kvView a c) 0 12 1) c
          | none => c
        tabPath leaf k s' (setSeq s' c)

/-- The header of a sequence (R476). -/
def seqHeader (s : KvSeq) (c : Chip) : Chip :=
  let top := (tabAt s (s.depth - 1) 0).getD 0
  put spDev s.root (leBytes 4 s.base ++ leBytes 4 (s.depth + s.tpp * 2 ^ 4 + s.cls * 2 ^ 8) ++ leBytes 8 (kvView top c) ++ List.replicate 48 0) c

/-- A leaf entry written (R477, R479): `VALID`, the page's address as its accelerator addresses it, its descriptor. -/
def leafWrite (s : KvSeq) (p : KvPage) (valid : Bool) (c : Chip) : Chip :=
  match tabAt s 0 (p.no / 512) with
  | none => c
  | some t =>
    let a := rd (Reg.KVP_KV_LOCAL p.acc) c + (p.loc - rd (Reg.KVP_KV_OFFSET p.acc) c)
    let a' := if valid then a / 65536 * 65536 + 1 else 0
    put spDev (t + 16 * (p.no % 512)) (leBytes 8 a' ++ leBytes 8 p.desc) c

/-! ### Descriptors (R480) -/

def descBase (d : Nat) (c : Chip) : Nat := rd Reg.KVP_DESC_TABLE c + 16 * d

/-- The descriptor of a page in memory. -/
def descEntry (p : KvPage) (c : Chip) : Chip :=
  put spDev (descBase p.desc c)
    (leBytes 8 (p.tier + (if p.tier = 0 then p.acc else 0) * 2 ^ 2 + p.cls * 2 ^ 5 + 2 ^ 8 + b2n p.move.isSome * 2 ^ 9 + b2n p.poison * 2 ^ 10 +
       p.loc / 65536 * 65536) ++ leBytes 8 (p.seq + p.no * 2 ^ 32)) c

def pageOf (d : Nat) (c : Chip) : Option KvPage := c.kvPages.find? fun p => p.desc == d

def setPage (p : KvPage) (c : Chip) : Chip :=
  descEntry p { c with kvPages := if (pageOf p.desc c).isSome then c.kvPages.map fun x => if x.desc == p.desc then p else x else c.kvPages ++ [p] }

/-- A page freed with its descriptor. -/
def delPage (p : KvPage) (c : Chip) : Chip :=
  zero spDev (descBase p.desc c) 16 { c with kvPages := c.kvPages.filter fun x => x.desc != p.desc }

/-- The lowest number not in a list. -/
def lowestOut (l : List Nat) : Nat → Nat → Nat
  | 0, n => n
  | fuel + 1, n => if l.elem n then lowestOut l fuel (n + 1) else n

/-- The lowest free descriptor. -/
def descFree (c : Chip) : Option Nat :=
  let d := lowestOut (c.kvPages.map (·.desc)) (c.kvPages.length + 1) 0
  if d < 2 ^ 24 then some d else none

/-- Page `no` of a sequence allocated on accelerator `a`, its leaf entry `VALID` at once, for it holds nothing yet (R479, R483,
R485); none when a descriptor, a block or table space is lacking. -/
def newPage (ix no a : Nat) (c : Chip) : Option Chip :=
  match seqOf ix c, descFree c with
  | some s, some d =>
    match tierAlloc 0 a s.cls c, tabPath (no / 512) s.depth s c with
    | some loc, some (s, c) =>
      let p : KvPage := { desc := d, seq := ix, no := no, tier := 0, acc := a, cls := s.cls, loc := loc, poison := false, move := none, goal := none }
      some (seqEntry s (leafWrite s p true (setPage p c)))
    | _, _ => none
  | _, _ => none

/-- Pages `[lo, lo + n)` allocated; answers whether all were. -/
def newPages (ix a : Nat) : Nat → Nat → Chip → Bool × Chip
  | _, 0, c => (true, c)
  | lo, n + 1, c => match newPage ix lo a c with
    | some c => newPages ix a (lo + 1) n c
    | none => (false, c)

/-! ### Creation and end of sequences (R472, R478, R487, R489) -/

def kvFull (c : Chip) : Chip := raise 0x72 0x0903 0 (bump (Reg.KVP_CTR 7) 1 c)

/-- The depth of an ephemeral sequence of `n` pages. -/
def depthFor (n : Nat) : Nat := if n ≤ 512 then 1 else if n ≤ 512 * 512 then 2 else 3

/-- A sequence made (R472, R474, R478); none when its entry or its tables do not fit. -/
def seqCreate (model owner : Nat) (eph : Bool) (depthOf : Nat → Nat) (c : Chip) : Option (Nat × Chip) :=
  let ix := lowestOut (c.kvSeqs.map (·.ix)) (c.kvSeqs.length + 1) 1
  match tabAlloc 64 c with
  | none => none
  | some root =>
    if 2 ^ 20 ≤ ix then none
    else
      let inc := (ldF spDev (seqBase ix c) 43 32 c + 1) % 2 ^ 12
      let s : KvSeq := { ix := ix, inc := inc, state := 1, eph := eph, model := model, owner := owner, tokens := 0, reserved := 0, acc := 0,
                         root := root, depth := depthOf (fmtTpp model c), tpp := fmtTpp model c, cls := fmtClass model c, base := 0, prompt := 0,
                         lastUse := now c, freeing := false, tabs := [] }
      let held := { c with kvSeqs := c.kvSeqs ++ [{ s with tabs := [(3, 0, root)] }] }
      match tabAlloc (if s.depth = 1 then 8192 else 4096) held with
      | none => none
      | some top =>
        let n := if s.depth = 1 then 8192 else 4096
        let s := { s with tabs := [(s.depth - 1, 0, top)] }
        some (seqHandle s, seqHeader s (setSeq s (zero spDev top n c)))

/-- A sequence becomes FREE with its pages, tables and descriptors. -/
def seqFreeNow (s : KvSeq) (c : Chip) : Chip :=
  let c := (seqPages s.ix c).foldl (fun c p => delPage p c) c
  let c := { c with kvSeqs := c.kvSeqs.filter fun x => x.ix != s.ix }
  kvCounts (put spDev (seqBase s.ix c) (leBytes 4 0 ++ leBytes 4 s.inc ++ List.replicate 24 0) c)

/-- A page of a sequence moves. -/
def seqMoving (ix : Nat) (c : Chip) : Bool := (seqPages ix c).any fun p => p.move.isSome

/-- A sequence freed, once its moves have ended (R488). -/
def seqFree (s : KvSeq) (c : Chip) : Chip :=
  if seqMoving s.ix c then setSeq { s with freeing := true, reserved := 0 } c else seqFreeNow s c

/-- A sequence becomes LOST: its descriptors and tables are freed (R489). -/
def seqLose (s : KvSeq) (c : Chip) : Chip :=
  let c := (seqPages s.ix c).foldl (fun c p => delPage p c) c
  kvCounts (raise 0x72 0x0901 2 (bump (Reg.KVP_CTR 6) 1 (setSeq { s with state := 4, reserved := 0, tabs := [] } c)))

/-- Every leaf entry of a sequence not `VALID`. -/
def leavesOff (s : KvSeq) (c : Chip) : Chip := (seqPages s.ix c).foldl (fun c p => leafWrite s p false c) c

/-- A pinned sequence returns to IDLE with its pages (R487). -/
def seqIdle (s : KvSeq) (c : Chip) : Chip :=
  let c := (seqPages s.ix c).foldl (fun c p => setPage { p with goal := none } c) (leavesOff s c)
  kvCounts (setSeq { s with state := if seqMoving s.ix c then 3 else 1, reserved := 0, lastUse := now c } c)

/-- The end of a request that used a sequence (R472, R487): `ran` says that it was admitted, and `out` its tokens. -/
def seqEnd (ix out : Nat) (ran : Bool) (c : Chip) : Chip :=
  match seqOf ix c with
  | none => c
  | some s =>
    if s.eph then seqFree s c
    else if s.state = 4 then c
    else if ran && s.state == 2 then
      let s := { s with tokens := s.base + s.prompt + out }
      let keep := ceilDiv s.tokens (2 ^ s.tpp)
      let c := leavesOff s c
      seqIdle s (((seqPages s.ix c).filter fun p => decide (keep ≤ p.no)).foldl (fun c p => delPage p c) c)
    else if s.state = 2 ∨ s.reserved ≠ 0 then seqIdle s c
    else c

/-! ### Moves (R482) -/

/-- The next tier and accelerator on the way of a page to where it is wanted: PAIL is reached only from and to HBM, and one
accelerator from another only through HBM. -/
def nextHop (t a gt ga : Nat) : Nat × Nat :=
  if t = 3 then (1, 0)
  else if gt = 3 then (if t = 1 then (3, 0) else (1, 0))
  else if t = 0 ∧ gt = 0 ∧ a ≠ ga then (1, 0)
  else (gt, ga)

/-- A page that is not where it is wanted starts to move, when the next tier has a block for it. Answers whether it had. -/
def pageGo (d : Nat) (c : Chip) : Bool × Chip :=
  match pageOf d c with
  | none => (true, c)
  | some p => match p.goal with
    | none => (true, c)
    | some g =>
      if p.move.isSome then (true, c)
      else if inTier p.tier p.acc g.1 g.2 then (true, setPage { p with goal := none } c)
      else
        let h := nextHop p.tier p.acc g.1 g.2
        match tierAlloc h.1 h.2 p.cls c with
        | some loc => (true, setPage { p with move := some (h.1, h.2, loc) } c)
        | none => (false, c)

/-- Pages set on their way. Answers whether each found room. -/
def pagesGo (t a : Nat) : List KvPage → Chip → Bool × Chip
  | [], c => (true, c)
  | p :: l, c =>
    let r := pageGo p.desc (setPage { p with goal := some (t, a) } c)
    let x := pagesGo t a l r.2
    (r.1 && x.1, x.2)

/-! ### Pins (R483, R484, R488, R490) -/

/-- What a pin answers: in work, no room for the reservation (R484), no descriptor or table space (R490), the sequence is
LOST (R489), or it is in use (R475). -/
inductive PinResult
  | pinned | noRoom | full | lost | inUse
deriving DecidableEq, Repr

/-- Bytes on accelerator `a` neither allocated nor reserved. -/
def kvAvailable (a : Nat) (c : Chip) : Nat :=
  let owed := (c.kvSeqs.map fun s =>
    if s.reserved ≠ 0 ∧ s.acc = a then
      (s.reserved - ((seqPages s.ix c).filter fun p => inTier p.tier p.acc 0 a || (match p.move with
        | some m => inTier m.1 m.2.1 0 a
        | none => false)).length) * pageBytes s.cls
    else 0).sum
  tierFree 0 a c - owed

/-- The pages of a pinned sequence move to its accelerator, and pages for its prompt are allocated. -/
def pinPages (s : KvSeq) (c : Chip) : Bool × Chip :=
  let old := seqPages s.ix c
  let r := pagesGo 0 s.acc old c
  let c := r.2.kvPages.foldl (fun c p =>
    if p.seq = s.ix ∧ p.move.isNone ∧ inTier p.tier p.acc 0 s.acc = true then leafWrite s p true c else c) r.2
  let need := ceilDiv (s.tokens + s.prompt) (2 ^ s.tpp)
  newPages s.ix s.acc old.length (need - old.length) c

/-- The pin of sequence `ix` on accelerator `a` for a request of `prompt` and `new` tokens. -/
def seqPin (ix a prompt new : Nat) (c : Chip) : PinResult × Chip :=
  match seqOf ix c with
  | none => (.inUse, c)
  | some s =>
    if s.state = 4 then (.lost, c)
    else if s.state = 2 ∨ s.reserved ≠ 0 ∨ s.freeing = true then (.inUse, c)
    else
      let pages := ceilDiv (s.tokens + prompt + new) (2 ^ s.tpp)
      let here := ((seqPages ix c).filter fun p => inTier p.tier p.acc 0 a).length
      if kvAvailable a c < (pages - here) * pageBytes s.cls then (.noRoom, bump (Reg.KVP_CTR 5) 1 c)
      else
        let s := { s with state := if s.state = 3 then 3 else 2, base := s.tokens, prompt := prompt, reserved := pages, acc := a }
        let c := bump (Reg.KVP_CTR 4) 1 (seqHeader s (setSeq s c))
        if s.state = 3 then (.pinned, c)
        else
          let r := pinPages s c
          if r.1 then (.pinned, kvCounts r.2) else (.full, seqIdle s r.2)

/-- Every page of a pinned sequence is in place on its accelerator (R483). -/
def pinReady (ix : Nat) (c : Chip) : Bool :=
  match seqOf ix c with
  | none => false
  | some s => s.state == 2 && (seqPages ix c).all fun p => p.move.isNone && inTier p.tier p.acc 0 s.acc

/-- The KV root of a sequence as ADMIT entries carry it. -/
def seqRoot (ix : Nat) (c : Chip) : Nat :=
  match seqOf ix c with
  | some s => kvView s.root c
  | none => 0

/-- Growth (R485): at most `GROW_PAGES` more pages, within the reservation, when less than a page's tokens remain. -/
def seqGrow (ix out : Nat) (c : Chip) : Chip :=
  match seqOf ix c with
  | none => c
  | some s =>
    let n := (seqPages ix c).length
    if s.state = 2 ∧ n * 2 ^ s.tpp < s.base + s.prompt + out + 2 ^ s.tpp then
      kvCounts (newPages ix s.acc n (min (rd Reg.KVP_GROW_PAGES c) (s.reserved - n)) c).2
    else c

/-! ### Ends of moves (R482, R486, R488, R489) -/

/-- The data of a page moved: its bytes at the new place, or whether they read poisoned, or whether Pail failed. -/
def pageData (p : KvPage) (m : Nat × Nat × Nat) (c : Chip) : MoveResult × Chip :=
  let n := pageBytes p.cls
  let v := rd Reg.KVP_PAIL_VOLUME c
  let dev := fun (t a loc : Nat) => if t = 0 then 0x10000000000 * (a + 1) + loc else loc
  if p.tier = 3 then
    if !arrayServes c || !volServes v kvpCode c then (.pailFailed, c)
    else
      let r := volBytes v p.loc n c
      if r.2.1 then (.poison, r.2.2) else (.ok, writeRange kvpCode (dev m.1 m.2.1 m.2.2) r.1 r.2.2)
  else
    let r := readRange kvpCode (dev p.tier p.acc p.loc) n c
    if r.2 then (.poison, c)
    else if m.1 = 3 then
      if !arrayServes c || !volServes v kvpCode c then (.pailFailed, c)
      else (.ok, volWrite (rd (Reg.PAL_BASE_STRIPE v) c) (n / 4096 + 1) (m.2.2 / 4096) (n / 4096) r.1 c)
    else (.ok, writeRange kvpCode (dev m.1 m.2.1 m.2.2) r.1 c)

/-- After a move, the sequence goes on: FREE that waited takes effect; a pin that waited begins; a demotion ends. -/
def seqSettle (ix : Nat) (c : Chip) : Chip :=
  match seqOf ix c with
  | none => c
  | some s =>
    if seqMoving ix c then c
    else if s.freeing then seqFreeNow s c
    else if s.state = 3 then
      if s.reserved ≠ 0 then
        let s := { s with state := 2 }
        (pinPages s (setSeq s c)).2
      else setSeq { s with state := 1 } c
    else c

/-- A page has arrived: `TIER` and `LOCATION` are rewritten, the old block is free, and it moves on when it is not yet where it
is wanted. -/
def pageArrive (p : KvPage) (m : Nat × Nat × Nat) (c : Chip) : Chip :=
  let p := { p with tier := m.1, acc := m.2.1, loc := m.2.2, move := none }
  let c := bump (Reg.KVP_CTR m.1) 1 (setPage p c)
  let c := match seqOf p.seq c with
    | some s => if s.state = 2 ∧ s.freeing = false ∧ inTier m.1 m.2.1 0 s.acc = true then leafWrite s p true c else c
    | none => c
  let stop := match seqOf p.seq c with
    | some s => s.freeing || (s.state == 3 && s.reserved != 0)
    | none => true
  if stop then setPage { p with goal := none } c else (pageGo p.desc c).2

/-- A page move ends (R482). An aborted move leaves the page where it was, and starts again. -/
def pageMoveDone (d : Nat) (res : MoveResult) (c : Chip) : Chip :=
  match pageOf d c with
  | none => c
  | some p => match p.move with
    | none => c
    | some m =>
      let r := if res = .ok then pageData p m c else (res, c)
      let lose := fun (c : Chip) => match seqOf p.seq c with
        | some s => if s.freeing then seqFreeNow s c else seqLose s c
        | none => c
      kvCounts (match r.1 with
        | .ok => seqSettle p.seq (pageArrive p m r.2)
        | .poison => lose (raise 0x72 0x0902 2 (setPage { p with poison := true, move := none } r.2))
        | .pailFailed => lose (raise 0x72 0x0904 2 (setPage { p with move := none } r.2))
        | .aborted => seqSettle p.seq (pageGo d (setPage { p with move := none } r.2)).2)

/-- Every page on accelerator `a` is lost with its sequence; moves towards it end where they began (R489). -/
def kvAccLost (a : Nat) (c : Chip) : Chip :=
  let c := c.kvPages.foldl (fun c p => match p.move with
    | some m => if inTier m.1 m.2.1 0 a then setPage { p with move := none, goal := none } c else c
    | none => c) c
  let c := c.kvSeqs.foldl (fun c s =>
    if s.state ≠ 4 ∧ ((seqPages s.ix c).any fun p => inTier p.tier p.acc 0 a) = true then
      (if s.freeing then seqFreeNow s c else seqLose s c) else seqSettle s.ix c) c
  kvCounts c

/-- The tier one below, and the tier's number. -/
def tierNo : Tier → Nat
  | .accel => 0
  | .hbm => 1
  | .cellar => 2

/-- The IDLE sequence with the earliest last use among those that `f` accepts. -/
def oldestIdle (f : KvSeq → Bool) : List KvSeq → Option KvSeq
  | [] => none
  | s :: t => match oldestIdle f t with
    | none => if f s then some s else none
    | some r => if f s ∧ s.lastUse ≤ r.lastUse then some s else some r

/-- TIER_DEMOTE: a tier whose free bytes lie below `FREE_MIN` moves the pages of its oldest IDLE sequence down (R486). -/
def tierDemote (t a : Nat) (c : Chip) : Chip :=
  let size := (tierSpace t a c).2
  if !working 0x72 c || decide (size * rd Reg.KVP_FREE_MIN c ≤ 64 * tierFree t a c) || (t == 2 && rd Reg.KVP_PAIL_SIZE c == 0) then c
  else
    let here := fun (s : KvSeq) => (seqPages s.ix c).filter fun p => inTier p.tier p.acc t a && p.move.isNone
    match oldestIdle (fun s => s.state == 1 && !s.freeing && !(here s).isEmpty && !(t == 2 && s.eph)) c.kvSeqs with
    | none => c
    | some s =>
      let c := (pagesGo (t + 1) 0 (here s) c).2
      kvCounts (if seqMoving s.ix c then setSeq { s with state := 3 } c else c)

def execTierDemote (t : Tier) (a : Fin 8) : State → Host.Outcome State Fault Refusal := onChip (tierDemote (tierNo t) a.val)

/-! ### Commands (R472, R488) -/

/-- A write of `SEQ_GO` by PF0. -/
def seqCommand (p : Party) (v : Nat) (f : Chip → Chip) : Chip → Chip :=
  regAccess p 0x72 0x170 (v + 2 ^ 31) fun c => if isHost p then f c else refuse 0x72 0x03 0x170 c

/-- SEQ_CREATE. -/
def execSeqCreate (p : Party) (model : Nat) : State → Host.Outcome State Fault Refusal :=
  onChip (seqCommand p (model % 4096) fun c =>
    if !working 0x72 c then wr Reg.KVP_SEQ_RESULT 2 c
    else match seqCreate (model % 4096) (rd Reg.KVP_SEQ_OWNER c) false (fun _ => 3) c with
      | some (h, c) => wr Reg.KVP_SEQ_RESULT 0 (wr Reg.KVP_SEQ_HANDLE h c)
      | none => wr Reg.KVP_SEQ_RESULT 1 (kvFull c))

/-- SEQ_FREE: refused for a PINNED sequence; of a moving one it takes effect when its moves end. -/
def execSeqFree (p : Party) : State → Host.Outcome State Fault Refusal :=
  onChip (seqCommand p (2 ^ 12) fun c =>
    match seqNamed (rd Reg.KVP_SEQ_HANDLE c) c with
    | some s => if s.eph || s.state == 2 || s.reserved != 0 then wr Reg.KVP_SEQ_RESULT 2 c else wr Reg.KVP_SEQ_RESULT 0 (seqFree s c)
    | none => wr Reg.KVP_SEQ_RESULT 2 c)

/-- KVP enters RUNNING: every sequence is FREE and every tier empty; and it enters OFF. -/
def kvpOn (c : Chip) : Chip := kvCounts { c with kvPages := [], kvSeqs := [] }
def kvpOff (c : Chip) : Chip := { c with kvPages := [], kvSeqs := [] }

end Sys2Proof.Machine
end

