-- ==== Sys2Proof/Machine/HerdBase.lean ====
section
/-! DEFINITION. Herd's shared operations: policies, contexts, the scoreboard, running sets, tickets (R421–R426, R432, R439–R442). -/

namespace Sys2Proof.Machine

/-! ### Policies (R426) -/

def polBase (m : Nat) (c : Chip) : Nat := rd Reg.HRD_POLICY_TABLE c + 64 * m
def polF (m off hi lo : Nat) (c : Chip) : Nat := ldF spDev (polBase m c + off) hi lo c
def polValid (m : Nat) (c : Chip) : Bool := polF m 0 31 31 c == 1
def polMaxBatch (m : Nat) (c : Chip) : Nat := polF m 0 10 0 c
def polTp (m : Nat) (c : Chip) : Nat := polF m 0 23 16 c
def polDropLate (m : Nat) (c : Chip) : Bool := polF m 0 24 24 c == 1
def polStream (m : Nat) (c : Chip) : Bool := polF m 0 25 25 c == 1
def polImage (m : Nat) (c : Chip) : Nat := polF m 8 43 32 c
/-- The pool of a call kind (0 PRE, 1 POST, 2 DRAFT), when it is enabled. -/
def polPool (m kind : Nat) (c : Chip) : Option Nat :=
  if polF m 0x10 (8 * kind + 5) (8 * kind + 5) c = 1 then some (polF m 0x10 (8 * kind + 4) (8 * kind) c) else none
def polOwner (m : Nat) (c : Chip) : Nat := polF m 0x18 15 0 c

/-- The models with a valid policy that name image `i`. -/
def modelsOf (i : Nat) (c : Chip) : List Nat := (List.range 4096).filter fun m => polValid m c && polImage m c == i

/-! ### Contexts (R421, R422) -/

def ctxBase (n : Nat) (c : Chip) : Nat := rd Reg.HRD_CTX_TABLE c + 128 * n
def ctxF (n off hi lo : Nat) (c : Chip) : Nat := ldF spDev (ctxBase n c + off) hi lo c
def ctxPut (n off hi lo v : Nat) (c : Chip) : Chip := putF spDev (ctxBase n c + off) hi lo v c
def ctxState (n : Nat) (c : Chip) : Nat := ctxF n 0 3 0 c
def ctxClass (n : Nat) (c : Chip) : Nat := ctxF n 0 10 8 c
def ctxModel (n : Nat) (c : Chip) : Nat := ctxF n 0 27 16 c
def ctxAccel (n : Nat) (c : Chip) : Nat := ctxF n 0 30 28 c
def ctxInc (n : Nat) (c : Chip) : Nat := ctxF n 0 43 32 c
def ctxOrigin (n : Nat) (c : Chip) : Nat := ctxF n 0 59 48 c
def ctxAhnam (n : Nat) (c : Chip) : Bool := ctxF n 0 60 60 c == 1
def ctxGen (n : Nat) (c : Chip) : Nat := ctxF n 8 15 0 c
def ctxTag (n : Nat) (c : Chip) : Nat := ctxF n 8 63 32 c
def ctxArrival (n : Nat) (c : Chip) : Nat := ctxF n 0x10 63 0 c
def ctxDeadline (n : Nat) (c : Chip) : Nat := ctxF n 0x18 63 0 c
def ctxSeq (n : Nat) (c : Chip) : Nat := ctxF n 0x20 31 0 c
def ctxPrompt (n : Nat) (c : Chip) : Nat := ctxF n 0x20 54 32 c
def ctxMaxNew (n : Nat) (c : Chip) : Nat := ctxF n 0x28 22 0 c
def ctxOut (n : Nat) (c : Chip) : Nat := ctxF n 0x28 54 32 c
def ctxRetries (n : Nat) (c : Chip) : Nat := ctxF n 0x28 57 56 c
def ctxPromptAddr (n : Nat) (c : Chip) : Nat := ctxF n 0x30 63 0 c
def ctxReply (n : Nat) (c : Chip) : Nat := ctxF n 0x38 63 0 c
def setCtxState (n v : Nat) (c : Chip) : Chip := ctxPut n 0 3 0 v c

/-- The handle `REQ` of a context. -/
def ctxReq (n : Nat) (c : Chip) : Nat := n + ctxInc n c * 2 ^ 20

def getReq (n : Nat) (c : Chip) : HerdReq := mapGet HerdReq.idle c.herdReqs n
def setReq (n : Nat) (r : HerdReq) (c : Chip) : Chip := { c with herdReqs := mapPut HerdReq.idle c.herdReqs n r }

/-- The context that a handle names, when it is not FREE and its incarnation agrees. -/
def reqCtx (req : Nat) (c : Chip) : Option Nat :=
  let n := req % 2 ^ 20
  if c.herdLive.elem n && ctxInc n c == req / 2 ^ 20 % 2 ^ 12 then some n else none

/-! ### Running sets (R432) -/

/-- The context is in the running set of some model on accelerator `a`. -/
def ctxOn (n a : Nat) (c : Chip) : Bool :=
  let s := ctxState n c
  (s == 3 || s == 4 || s == 5) &&
  (let tp := polTp (ctxModel n c) c
   if tp = 0 then ctxAccel n c == a else tp.testBit a)

/-- The running set of model `m` on accelerator `a`. -/
def runningSet (m a : Nat) (c : Chip) : List Nat := c.herdLive.filter fun n => ctxModel n c == m && ctxOn n a c
/-- Every request that runs on accelerator `a`. -/
def runningOn (a : Nat) (c : Chip) : List Nat := c.herdLive.filter fun n => ctxOn n a c

/-- The counts shown on the page: `RUNNING`, `CTX_USED`, `SB_ACTIVE`. -/
def herdCounts (c : Chip) : Chip :=
  let c := (List.range 8).foldl (fun c a => wr (Reg.HRD_RUNNING a) (runningOn a c).length c) c
  wr Reg.HRD_CTX_USED c.herdLive.length (wr Reg.HRD_SB_ACTIVE c.herdSb.length c)

def accState (a : Nat) (c : Chip) : Nat := rd (Reg.HRD_ACC_STATE a) c
def accReady (a : Nat) (c : Chip) : Bool := accState a c == 1

/-! ### Queues (R428) -/

def modelQueue (m : Nat) (c : Chip) : List Nat := mapGet [] c.herdQueue m
def setQueue (m : Nat) (l : List Nat) (c : Chip) : Chip := { c with herdQueue := mapPut [] c.herdQueue m l }
def heldBatch (m : Nat) (c : Chip) : List Nat := mapGet [] c.herdHeld m

/-- Context `a` comes before `b` (R428). -/
def ctxBefore (a b : Nat) (c : Chip) : Bool :=
  let key := fun n => (if ctxDeadline n c = 0 then 2 ^ 64 else ctxDeadline n c, ctxClass n c, ctxArrival n c, n)
  let x := key a
  let y := key b
  decide (x.1 < y.1) || (x.1 == y.1 && (decide (x.2.1 < y.2.1) || (x.2.1 == y.2.1 &&
    (decide (x.2.2.1 < y.2.2.1) || (x.2.2.1 == y.2.2.1 && decide (x.2.2.2 < y.2.2.2))))))

def queueInsert (n : Nat) (c : Chip) : List Nat → List Nat
  | [] => [n]
  | x :: t => if ctxBefore n x c then n :: x :: t else x :: queueInsert n c t

/-- Context `n` joins its model's queue in its place. -/
def enqueue (n : Nat) (c : Chip) : Chip :=
  let c := setCtxState n 2 c
  setQueue (ctxModel n c) (queueInsert n c (modelQueue (ctxModel n c) c)) c

/-- Contexts put at the front of their model's queue, in their order. -/
def requeueFront (m : Nat) (l : List Nat) (c : Chip) : Chip :=
  setQueue m (l ++ modelQueue m c) (l.foldl (fun c n => setCtxState n 2 c) c)

/-- A context leaves every queue and batch that it waits in. -/
def unqueue (n : Nat) (c : Chip) : Chip :=
  let out := fun (l : List Nat) => l.filter (· != n)
  { c with herdQueue := (c.herdQueue.map fun e => (e.1, out e.2)).filter (fun e => !e.2.isEmpty)
           herdHeld := (c.herdHeld.map fun e => (e.1, out e.2)).filter (fun e => !e.2.isEmpty)
           herdBatches := (c.herdBatches.map fun (b : HerdBatch) => { b with ctxs := out b.ctxs }).filter fun b => !b.ctxs.isEmpty }

/-! ### The scoreboard (R424, R425) -/

/-- A context is touched: it becomes the most recently touched one. -/
def sbTouch (n : Nat) (c : Chip) : Chip := { c with herdSb := c.herdSb.filter (· != n) ++ [n] }

/-- A context may be written out (R425). -/
def sbMayLeave (n : Nat) (c : Chip) : Bool :=
  (getReq n c).staged.isEmpty &&
  (ctxState n c == 4 || (ctxState n c == 2 &&
    !((modelQueue (ctxModel n c) c).take (polMaxBatch (ctxModel n c) c)).elem n))

/-- Room in the scoreboard, after writing out the least recently touched context when it is full; none when none may leave. -/
def sbRoom (c : Chip) : Option Chip :=
  if c.herdSb.length < 65536 then some c
  else match c.herdSb.find? fun n => sbMayLeave n c with
    | none => none
    | some n => some (bump (Reg.HRD_CTR 7) 1 { c with herdSb := c.herdSb.filter (· != n) })

/-! ### Tickets (R439–R442) -/

def ticketSeq (a : Nat) (c : Chip) : Nat := rd (Reg.HRD_TICKET_SEQ a) c
def openTickets (a : Nat) (c : Chip) : List HerdTicket := mapGet [] c.herdTix a

/-- A list entry of 32 bytes (R440). -/
def listEntry (b : List Nat) : List Nat := b ++ List.replicate (32 - b.length) 0

/-- The next slot of the list area; slots hold 1,024 entries of 32 B (DESIGN CHOICE, log entry 30). -/
def listSlot (c : Chip) : Nat := rd Reg.HRD_LIST_AREA c + c.herdList % (2 ^ rd Reg.HRD_LIST_LOG2 c / 32768) * 32768

/-- A ticket written (R441): its list, its bytes, the seal, and the doorbell's line pulsed. -/
def writeTicket (a : Nat) (t : HerdTicket) (c : Chip) : Chip :=
  let k := ticketSeq a c
  let n := rd (Reg.HRD_TRING_LOG2 a) c
  let la := listSlot c
  let listed := !t.list.isEmpty
  let c := if listed then put spDev la (t.list.flatMap listEntry) { c with herdList := c.herdList + 1 } else c
  let ph := 1 - k / 2 ^ n % 2
  let body :=
    leBytes 4 (t.kind + rd (Reg.HRD_ABI_AGREED a) c * 2 ^ 8 + t.list.length * 2 ^ 16) ++ leBytes 4 t.model ++ leBytes 8 k ++
    leBytes 8 (if listed then (accView a la c).getD 0 else 0) ++ leBytes 8 (now c) ++ leBytes 8 t.deadline ++ leBytes 4 t.batch ++
    List.replicate 204 0 ++ leBytes 4 (k % 2 ^ 32) ++ leBytes 4 ph
  let c := if spurBlocked a c then c else put (spAcc a) (rd (Reg.HRD_TRING_ADDR a) c + 256 * (k % 2 ^ n)) body c
  let c := bump (Reg.HRD_CTR 5) 1 (wr (Reg.HRD_TICKET_SEQ a) (k + 1) c)
  let c := { c with herdTix := mapPut [] c.herdTix a (openTickets a c ++ [{ t with seq := k }]) }
  let c := if t.kind = 0 then t.ctxs.foldl (fun c x => setReq x { getReq x c with tix := (getReq x c).tix ++ [(a, k)] } c) c else c
  pulseIf (rdb (Reg.HRD_DB_BOUND a) c) (rd (Reg.HRD_DB_LINE a) c) c

/-- The ring of accelerator `a` has an acknowledged slot (R442). -/
def ticketRoom (a : Nat) (c : Chip) : Bool := decide ((openTickets a c).length < 2 ^ rd (Reg.HRD_TRING_LOG2 a) c)

/-- Waiting tickets written while slots are free. -/
def pumpTickets (a : Nat) : Nat → Chip → Chip
  | 0, c => c
  | fuel + 1, c =>
    match mapGet [] c.herdTixWait a with
    | [] => c
    | t :: l => if ticketRoom a c then pumpTickets a fuel (writeTicket a t { c with herdTixWait := mapPut [] c.herdTixWait a l }) else c

/-- A ticket for an accelerator, behind those that wait. -/
def postTicket (a : Nat) (t : HerdTicket) (c : Chip) : Chip :=
  pumpTickets a 1 { c with herdTixWait := mapPut [] c.herdTixWait a (mapGet [] c.herdTixWait a ++ [t]) }

/-- A ticket without a list. -/
def plainTicket (kind model : Nat) : HerdTicket := ⟨0, kind, model, [], [], 0, 0⟩

/-- An EVICT ticket for requests of a model on accelerator `a` (R440). -/
def evictTicket (a m : Nat) (l : List Nat) (c : Chip) : Chip :=
  postTicket a ⟨0, 1, m, l.map fun n => leBytes 4 (ctxReq n c), l, 0, 0⟩ c

end Sys2Proof.Machine
end

