-- ==== Sys2Proof/Machine/Vat.lean ====
section
/-! DEFINITION. The Vat (R457–R471): images, fills, loads and releases. -/

namespace Sys2Proof.Machine

/-- The Vat's owner code. -/
def vatCode : Nat := 0x9001

/-! ### Images (R457–R459) -/

def imgBase (i : Nat) (c : Chip) : Nat := rd Reg.VAT_IMAGE_TABLE c + 64 * i
def imgF (i off hi lo : Nat) (c : Chip) : Nat := ldF spDev (imgBase i c + off) hi lo c
def imgPut (i off hi lo v : Nat) (c : Chip) : Chip := putF spDev (imgBase i c + off) hi lo v c
def imgSegs (i : Nat) (c : Chip) : Nat := imgF i 0 12 0 c
def imgTp (i : Nat) (c : Chip) : Nat := imgF i 0 23 16 c
def imgValid (i : Nat) (c : Chip) : Bool := imgF i 0 31 31 c == 1
def imgAhead (i : Nat) (c : Chip) : Nat := imgF i 0 47 32 c
def imgOwner (i : Nat) (c : Chip) : Nat := imgF i 0 63 48 c
def imgResident (i : Nat) (c : Chip) : Nat := imgF i 0x20 7 0 c
def imgLoading (i : Nat) (c : Chip) : Nat := imgF i 0x20 15 8 c
def imgReleasing (i : Nat) (c : Chip) : Nat := imgF i 0x20 23 16 c
def imgLastUse (i : Nat) (c : Chip) : Nat := ld spDev (imgBase i c + 0x28) 8 c
def imgLo (i : Nat) (c : Chip) : Nat := imgF i 0x30 47 0 c
def imgHi (i : Nat) (c : Chip) : Nat := imgF i 0x38 47 0 c

/-- A segment of an image (R458): store address, length, area offset, accelerator mask; and its reserved bits. -/
structure VatSeg where
  store : Nat
  len : Nat
  off : Nat
  mask : Nat
  rest : Nat
deriving DecidableEq, Repr

def imgSeg (i k : Nat) (c : Chip) : VatSeg :=
  let b := ld spDev (ld spDev (imgBase i c + 8) 8 c + 32 * k) 32 c
  let f := fun off hi lo => bits b (8 * off + hi) (8 * off + lo)
  ⟨f 0 63 0, f 8 39 0, f 0x10 47 0, f 0x18 7 0, f 8 63 40 + f 0x10 63 48 + f 0x18 63 8⟩

def imgSegList (i : Nat) (c : Chip) : List VatSeg := (List.range (imgSegs i c)).map fun k => imgSeg i k c

/-- The store range of a segment lies in the Vat's channels, HBM or Cellar (R460). -/
def segStored (s : VatSeg) (c : Chip) : Bool := inActivity 1 s.store s.len c

/-- The check of VALIDATE (R457, R458, R460). -/
def imageOk (i : Nat) (c : Chip) : Bool :=
  let l := imgSegList i c
  let area := rd Reg.VAT_AREA_SIZE c
  let tp := imgTp i c
  let n := imgSegs i c
  decide (1 ≤ n) && decide (n ≤ 4096) && imgF i 0 15 13 c == 0 && imgF i 0 30 24 c == 0 && ld spDev (imgBase i c + 0x10) 16 c == 0 &&
  inActivity 1 (ld spDev (imgBase i c + 8) 8 c) (32 * n) c &&
  l.all (fun s => s.rest == 0 && s.store % 4096 == 0 && s.len != 0 && s.len % 64 == 0 && s.off % 64 == 0 && segStored s c &&
    decide (s.off + s.len ≤ area) && (if tp = 0 then s.mask == 0 else s.mask != 0 && s.mask &&& tp == s.mask)) &&
  (List.range n).all fun j => (List.range j).all fun k =>
    let s := l.getD j ⟨0, 0, 0, 0, 0⟩
    let t := l.getD k ⟨0, 0, 0, 0, 0⟩
    !(overlaps s.off s.len t.off t.len && (tp == 0 || s.mask &&& t.mask != 0))

/-- A write of `IMG_GO`: busy while a command runs; only the image's `OWNER` may command it (R460). -/
def imgCommand (p : Party) (i cmd : Nat) (f : Chip → Chip) : Chip → Chip :=
  regAccess p 0x71 0x114 (i + cmd * 2 ^ 12 + 2 ^ 31) fun c =>
    if c.vatFill.isSome then refuse 0x71 0x09 0x114 c
    else if ownerCode p c ≠ imgOwner i c ∧ ¬(isControl p c = true ∧ isStallCode (imgOwner i c) = true) then wr Reg.VAT_IMG_RESULT 1 c
    else f c

/-- The image is resident, loading or releasing somewhere. -/
def imgInUse (i : Nat) (c : Chip) : Bool := imgF i 0x20 23 0 c != 0

/-- IMAGE_VALIDATE. -/
def imageValidate (i : Nat) (c : Chip) : Chip :=
  if imageOk i c then
    let l := imgSegList i c
    let lo := (l.map (·.off)).foldl min (2 ^ 48)
    let hi := (l.map fun s => s.off + s.len).foldl max 0
    wr Reg.VAT_IMG_RESULT 0 (imgPut i 0 31 31 1 (imgPut i 0x38 47 0 hi (imgPut i 0x30 47 0 lo c)))
  else wr Reg.VAT_IMG_RESULT 2 c

def execImageValidate (p : Party) (i : Fin 4096) : State → Host.Outcome State Fault Refusal :=
  onChip (imgCommand p i.val 0 (imageValidate i.val))

/-- IMAGE_INVALIDATE: refused while the image is in use. -/
def execImageInvalidate (p : Party) (i : Fin 4096) : State → Host.Outcome State Fault Refusal :=
  onChip (imgCommand p i.val 1 fun c =>
    if imgInUse i.val c then wr Reg.VAT_IMG_RESULT 2 c else wr Reg.VAT_IMG_RESULT 0 (imgPut i.val 0 31 31 0 c))

/-- FILL (R461). -/
def execFill (p : Party) (i : Fin 4096) : State → Host.Outcome State Fault Refusal :=
  onChip (imgCommand p i.val 2 fun c =>
    if imgInUse i.val c || imgValid i.val c || !working 0x71 c then wr Reg.VAT_IMG_RESULT 2 c
    else wr Reg.VAT_IMG_BUSY 1 { c with vatFill := some i.val })

/-- The segments of a fill read from the volume, in list order without gaps, and written to the store. Answers success. -/
def fillSegs (v : Nat) : List VatSeg → Nat → Chip → Bool × Chip
  | [], _, c => (true, c)
  | s :: t, off, c =>
    let r := volBytes v off s.len c
    if r.2.1 then (false, r.2.2) else fillSegs v t (off + s.len) (writeRange vatCode s.store r.1 r.2.2)

/-- FILL_COMPLETE: every byte has arrived, or a Pail error ends the fill. -/
def fillComplete (ok : Bool) (c : Chip) : Chip :=
  match c.vatFill with
  | none => c
  | some i =>
    let v := rd Reg.VAT_FILL_VOLUME c
    let c := wr Reg.VAT_IMG_BUSY 0 { c with vatFill := none }
    let r := if ok && arrayServes c && volServes v vatCode c then fillSegs v (imgSegList i c) (rd Reg.VAT_FILL_OFFSET c) c else (false, c)
    if r.1 then wr Reg.VAT_IMG_RESULT 0 r.2 else raise 0x71 0x0804 0 (wr Reg.VAT_IMG_RESULT 3 r.2)

def execFillComplete (ok : Bool) : State → Host.Outcome State Fault Refusal := onChip (fillComplete ok)

/-! ### Conflicts (R463, R465) -/

/-- The image can land on accelerator `a`. -/
def canLand (i a : Nat) (c : Chip) : Bool := imgTp i c == 0 || (imgTp i c).testBit a

/-- The images resident on accelerator `a` that conflict with image `i`. -/
def conflicting (i a : Nat) (c : Chip) : List Nat :=
  (List.range 4096).filter fun j => j != i && (imgResident j c).testBit a && canLand i a c &&
    decide (imgLo i c < imgHi j c) && decide (imgLo j c < imgHi i c)

/-- A model of image `j` has a held batch, or requests on `a`. -/
def imgHeld (j : Nat) (c : Chip) : Bool := c.herdHeld.any fun e => polImage e.1 c == j
def imgRuns (j a : Nat) (c : Chip) : Bool := c.herdLive.any fun n => ctxOn n a c && polImage (ctxModel n c) c == j

/-- A load of the Vat holds or waits for accelerator `a`. -/
def loadOn (a : Nat) (c : Chip) : Bool := c.vatLoads.any fun l => l.targets.testBit a

/-- The keys by which candidates compare, the least first: images in use, conflicts, greatest last use, index. -/
def candKey (i a : Nat) (c : Chip) : Nat × Nat × Nat × Nat :=
  let l := conflicting i a c
  ((l.filter fun j => imgHeld j c || imgRuns j a c).length, l.length, (l.map fun j => imgLastUse j c).foldl max 0, a)

def keyLess (x y : Nat × Nat × Nat × Nat) : Bool :=
  decide (x.1 < y.1) || (x.1 == y.1 && (decide (x.2.1 < y.2.1) || (x.2.1 == y.2.1 &&
    (decide (x.2.2.1 < y.2.2.1) || (x.2.2.1 == y.2.2.1 && decide (x.2.2.2 < y.2.2.2))))))

/-- The best of a list of candidates. -/
def bestOf (i : Nat) (c : Chip) : List Nat → Option Nat
  | [] => none
  | a :: t => match bestOf i c t with
    | none => some a
    | some b => if keyLess (candKey i b c) (candKey i a c) then some b else some a

/-! ### Loads (R464–R470) -/

/-- The load's targets once it may start: `none` when it must wait, `some 0` when it fails. -/
def loadTargets (l : VatLoad) (earlier : List VatLoad) (c : Chip) : Option Nat :=
  let i := l.image
  let taken := fun a => earlier.any fun x => x.targets.testBit a
  if !imgValid i c || polTp l.model c != imgTp i c then some 0
  else if imgTp i c ≠ 0 then
    if !((bitList 8 (imgTp i c)).all fun a => accReady a c) then some 0
    else if (bitList 8 (imgTp i c)).any fun a => taken a || loadOn a c then none
    else some (imgTp i c)
  else
    let all := (List.range 8).filter fun a => accReady a c && !(imgResident i c).testBit a && l.failed != some a
    match all.filter fun a => !taken a && !loadOn a c with
    | [] => if all.isEmpty then some 0 else none
    | cs => (bestOf i c cs).map (2 ^ ·)

/-- The Vat begins to release image `j` on accelerator `a` (R466 step 1). -/
def releaseStart (cmd : Bool) (a : Nat) (c : Chip) (j : Nat) : Chip :=
  if (imgReleasing j c).testBit a then c
  else { imgPut j 0x20 (16 + a) (16 + a) 1 c with vatRels := c.vatRels ++ [⟨j, a, none, cmd⟩] }

/-- The errors of a failed load, and its retry (R470): answers the model to tell Herd of, if any. -/
def loadFail (l : VatLoad) (poison : Bool) (c : Chip) : Option Nat × Chip :=
  let c := imgPut l.image 0x20 15 8 (imgLoading l.image c - (imgLoading l.image c &&& l.targets)) c
  let c := bump (Reg.VAT_CTR 1) 1 c
  let mask := decide (polTp l.model c ≠ imgTp l.image c)
  let c := raiseAll 0x71 ([(0x0801, 2)] ++ (if poison then [(0x0802, 2)] else []) ++ (if mask then [(0x0803, 0)] else [])) c
  let rest := c.vatLoads.filter fun x => x != l
  if imgTp l.image c = 0 ∧ l.failed.isNone ∧ imgValid l.image c = true ∧ mask = false ∧ l.targets ≠ 0 then
    (none, { c with vatLoads := rest ++ [{ l with targets := 0, stage := 0, failed := some (l.targets.log2) }] })
  else (some l.model, { c with vatLoads := rest })

/-- Loads that can start do so, in the order asked for; answers the models whose load failed. -/
def vatPump : Nat → List Nat → Chip → List Nat × Chip
  | 0, acc, c => (acc, c)
  | fuel + 1, acc, c =>
    let rec pick : List VatLoad → List VatLoad → Option (VatLoad × Nat)
      | _, [] => none
      | before, l :: t =>
        if l.stage ≠ 0 then pick (before ++ [l]) t
        else match loadTargets l before c with
          | some m => some (l, m)
          | none => pick (before ++ [l]) t
    match pick [] c.vatLoads with
    | none => (acc, c)
    | some (l, 0) =>
      let r := loadFail l false c
      vatPump fuel (acc ++ r.1.toList) r.2
    | some (l, m) =>
      let c := { c with vatLoads := c.vatLoads.map fun x => if x == l then { l with targets := m, stage := 1 } else x }
      let c := (bitList 8 m).foldl (fun c a => (conflicting l.image a c).foldl (releaseStart false a) c) c
      vatPump fuel acc c

/-- Herd asks for a load of the image of model `m`. -/
def vatAsk (m : Nat) (ahead : Bool) (c : Chip) : List Nat × Chip :=
  let c := { c with vatLoads := c.vatLoads ++ [⟨polImage m c, m, 0, 0, none, ahead⟩] }
  vatPump (2 * c.vatLoads.length + 2) [] c

/-- A load of the image is pending or running. -/
def loadOf (i : Nat) (c : Chip) : Option VatLoad := c.vatLoads.find? fun l => l.image == i

/-- RELEASE runs on the image (R471). -/
def cmdReleasing (i : Nat) (c : Chip) : Bool := c.vatRels.any fun r => r.image == i && r.cmd

/-- A release is complete: the bits of the image clear (R466 step 3). -/
def releaseDone (r : VatRel) (c : Chip) : Chip :=
  let c := imgPut r.image 0x20 (16 + r.acc) (16 + r.acc) 0 (imgPut r.image 0x20 r.acc r.acc 0 c)
  bump (Reg.VAT_CTR 3) 1
    { c with vatRels := c.vatRels.filter (fun x => x != r)
             vatReady := c.vatReady.filter fun x => !(x.1 == r.acc && polImage x.2 c == r.image) }

/-- MODEL_RELEASE_ISSUE: once no model of the image runs on the accelerator or holds a batch, Herd writes a MODEL_RELEASE
ticket for each model announced there (R466 step 2). -/
def modelReleaseIssue (i a : Nat) (c : Chip) : Chip :=
  match c.vatRels.find? fun r => r.image == i && r.acc == a && r.ticket.isNone with
  | none => c
  | some r =>
    if imgRuns i a c || imgHeld i c then c
    else
      let ms := (c.vatReady.filter fun x => x.1 == a && polImage x.2 c == i).map (·.2)
      if ms.isEmpty then releaseDone r c
      else
        let before := ticketSeq a c + (mapGet [] c.herdTixWait a).length
        let c := ms.foldl (fun c m => postTicket a (plainTicket 3 m) c) c
        { c with vatRels := c.vatRels.map fun x => if x == r then { r with ticket := some (before + ms.length - 1) } else x }

def execModelReleaseIssue (i : Fin 4096) (a : Fin 8) : State → Host.Outcome State Fault Refusal := onChip (modelReleaseIssue i.val a.val)

/-- Releases whose last ticket is acknowledged end. -/
def releasesAcked (a seq : Nat) (c : Chip) : Chip :=
  c.vatRels.foldl (fun c r => match r.ticket with
    | some k => if r.acc = a ∧ k ≤ seq then releaseDone r c else c
    | none => c) c

/-- LOAD_START: every release on the targets is complete; `LOADING` is set and the writes begin (R467). -/
def loadStart (i : Nat) (c : Chip) : Chip :=
  match c.vatLoads.find? fun l => l.image == i && l.stage == 1 with
  | none => c
  | some l =>
    if (bitList 8 l.targets).any fun a => !(conflicting i a c).isEmpty then c
    else imgPut i 0x20 15 8 (imgLoading i c ||| l.targets)
      { c with vatLoads := c.vatLoads.map fun x => if x == l then { l with stage := 2 } else x }

def execLoadStart (i : Fin 4096) : State → Host.Outcome State Fault Refusal := onChip (loadStart i.val)

/-- Where a segment goes: the mask of a tensor-parallel segment, else the load's target. -/
def segTargets (l : VatLoad) (s : VatSeg) (c : Chip) : List Nat := bitList 8 (if imgTp l.image c = 0 then l.targets else s.mask)

/-- Segments written in list order to the image areas (R459, R467). Stops at poisoned store data; answers whether it met any. -/
def loadSegs (l : VatLoad) : List VatSeg → Chip → Bool × Chip
  | [], c => (false, c)
  | s :: t, c =>
    let r := readRange vatCode s.store s.len c
    if r.2 then (true, c)
    else
      let ts := segTargets l s c
      let c := ts.foldl (fun c a => writeRange vatCode (0x10000000000 * (a + 1) + rd (Reg.VAT_AREA_OFFSET a) c + s.off) r.1 c) c
      loadSegs l t (bump (Reg.VAT_CTR 2) (s.len * ts.length) c)

/-- An interrupted load leaves a prefix of its segments written; how long it is a free value decides (R470). -/
def loadPrefix (l : VatLoad) (c : Chip) : Chip :=
  if l.stage = 2 then
    let n := (freeVal c).toNat % (imgSegs l.image c + 1)
    (loadSegs l ((imgSegList l.image c).take n) (useFree c)).2
  else c

/-- Every load that targets accelerator `a` fails; answers the models to tell Herd of (R470, R471). -/
def loadsFailOn (a : Nat) (c : Chip) : List Nat × Chip :=
  (c.vatLoads.filter fun l => l.targets.testBit a).foldl (fun (x : List Nat × Chip) l =>
    let r := loadFail l false (loadPrefix l x.2)
    (x.1 ++ r.1.toList, r.2)) ([], c)

/-- Accelerator `a` is FAILED or OFF (R471): its bits clear everywhere, and its loads fail. -/
def vatAccLost (a : Nat) (c : Chip) : List Nat × Chip :=
  let r := loadsFailOn a c
  let c := (List.range 4096).foldl (fun c i =>
    if imgF i 0x20 a a c + imgF i 0x20 (8 + a) (8 + a) c + imgF i 0x20 (16 + a) (16 + a) c = 0 then c
    else imgPut i 0x20 a a 0 (imgPut i 0x20 (8 + a) (8 + a) 0 (imgPut i 0x20 (16 + a) (16 + a) 0 c))) r.2
  (r.1, { c with vatRels := c.vatRels.filter (fun x => x.acc != a), vatReady := c.vatReady.filter fun x => x.1 != a })

/-- VAT enters OFF: its loads and releases end. -/
def vatOff (c : Chip) : Chip :=
  wr Reg.VAT_IMG_BUSY 0 { c with vatLoads := [], vatRels := [], vatReady := [], vatFill := none }

end Sys2Proof.Machine
end

