-- ==== Sys2Proof/Machine/Herd.lean ====
section
/-! DEFINITION. Herd's replies, batching, calls and failures (R416–R420, R429–R436, R446–R453). -/

namespace Sys2Proof.Machine

/-! ### Origins (R416, R418, R420) -/

def IntakeQ.idle : IntakeQ := ⟨0, 0, 0, 0, 0, []⟩
def inkBase (q : Nat) (c : Chip) : Nat := rd Reg.HRD_INTAKE_TABLE c + 64 * q
def inkF (q off hi lo : Nat) (c : Chip) : Nat := ldF spDev (inkBase q c + off) hi lo c
def inkOwner (q : Nat) (c : Chip) : Nat := inkF q 0x18 15 0 c
def inkGen (q : Nat) (c : Chip) : Nat := inkF q 0x18 47 32 c
def getInk (q : Nat) (c : Chip) : IntakeQ := mapGet IntakeQ.idle c.intake q

/-- An intake queue kept; its `STATE` shows in memory. -/
def setInk (q : Nat) (x : IntakeQ) (c : Chip) : Chip :=
  putF spDev (inkBase q c + 0x40) 1 0 x.state { c with intake := mapPut IntakeQ.idle c.intake q x }

/-- A queue pair of Herd, by its offset from `FIRST_QP`. -/
def herdQp (k : Nat) (c : Chip) : Nat := rd Reg.HRD_FIRST_QP c + k

/-- Generation and owner of an origin. -/
def originGen (ahnam : Bool) (k : Nat) (c : Chip) : Nat := if ahnam then qpGen (herdQp k c) c else inkGen k c
def originOwner (ahnam : Bool) (k : Nat) (c : Chip) : Nat := if ahnam then 0x9003 else inkOwner k c

/-- The `TARGET` code of an owner's own memory. -/
def ownTarget (o : Nat) (c : Chip) : Nat := (ownerHost o c).getD 3

/-- A receive buffer posted again on its queue pair (R418). -/
def repost (k wid : Nat) (c : Chip) : Chip :=
  let n := herdQp k c
  let q := getQp n c
  let a := qpRing n 8 q.rqTail 32 c
  let size := 2 ^ rd Reg.HRD_RECV_LOG2 c
  let e := leBytes 8 (rd Reg.HRD_PROMPT_AREA c + wid * size) ++ leBytes 4 0 ++ leBytes 4 size ++ leBytes 4 wid ++
    leBytes 4 (qpGenField n c) ++ leBytes 8 0
  setQp n { q with rqTail := (q.rqTail + 1) % 2 ^ 15 } (put a.1 a.2 e c)

/-- The receive buffer of a context posted again, when it holds one. -/
def freeBuffer (n : Nat) (c : Chip) : Chip :=
  match (getReq n c).buf with
  | some (k, wid) => repost k wid (setReq n { getReq n c with buf := none } c)
  | none => c

/-! ### Replies (R446–R449) -/

def replyHeader (tag status final first count req : Nat) : List Nat :=
  leBytes 4 tag ++ leBytes 4 (status + final * 2 ^ 8) ++ leBytes 4 first ++ leBytes 4 count ++ leBytes 4 req ++ List.replicate 12 0

/-- Waiting reply entries written while the ring has room, each with its MSI-X message (R344, R420). -/
def inkFlush (q : Nat) : Nat → Chip → Chip
  | 0, c => c
  | fuel + 1, c =>
    let x := getInk q c
    let log2 := inkF q 0x10 3 0 c
    match x.recs with
    | [] => c
    | r :: t =>
      if 2 ^ log2 - 1 ≤ (x.cqTail + 2 ^ 15 - x.cqHead) % 2 ^ 15 then c
      else
        let o := inkOwner q c
        let c := bufWrite o (ownTarget o c) 0 (inkF q 0x10 63 12 c * 4096 + 32 * (x.cqTail % 2 ^ log2)) r
          (setInk q { x with recs := t, cqTail := (x.cqTail + 1) % 2 ^ 15 } c)
        let c := match ownerHost o c with
          | some h => if inkF q 0x20 11 11 c = 1 then sendMsix h 3 (inkF q 0x20 10 0 c) c else c
          | none => c
        inkFlush q fuel c

/-- A reply to an origin: on the Ahnam path a SEND of header and tokens, on the intake path the tokens written at their place
and then the reply entry (R446). -/
def replyTo (ahnam : Bool) (k reply tag status final first req : Nat) (toks : List Nat) (c : Chip) : Chip :=
  let h := replyHeader tag status final first toks.length req
  let body := toks.flatMap (leBytes 4)
  if ahnam then
    let n := herdQp k c
    if qpState n c ≠ 2 then c
    else (postMsg n 0 (bits reply 15 0) (bits reply 43 32) (bits reply 31 16) (32 + body.length) none none (h ++ body) (List.replicate 20 0) c).2
  else
    let x := getInk k c
    if x.state = 0 then c
    else
      let o := inkOwner k c
      let c := if toks.isEmpty then c else bufWrite o (ownTarget o c) 0 (reply + 4 * first) body c
      let c := inkFlush k (x.recs.length + 1) (setInk k { x with recs := x.recs ++ [h] } c)
      if (getInk k c).recs.length ≤ x.recs.length then c else raise 0x70 0x0708 2 c

/-- The staged tokens of a context sent with a status; a reply of a stale origin is discarded unsent (R447, R449). The reply
fields of the Ahnam path are packed as device [15:0], tag [31:16], queue pair [43:32]. -/
def sendReply (n status final : Nat) (c : Chip) : Chip :=
  let r := getReq n c
  let a := ctxAhnam n c
  let k := ctxOrigin n c
  let c := setReq n { r with staged := [] } c
  if r.orphan || originGen a k c != ctxGen n c then c
  else
    let c := if final = 1 then bump (Reg.HRD_CTR 1) 1 c else c
    replyTo a k (ctxReply n c) (ctxTag n c) status final (ctxOut n c - r.staged.length) (ctxReq n c) r.staged c

/-- A request ends with its final reply: its context is FREE, its sequence released (R447, R487), its buffer posted again. -/
def finish (n status : Nat) (c : Chip) : Chip :=
  let ran := decide (4 ≤ ctxState n c)
  let c := sendReply n status 1 c
  let c := if status = 1 then bump (Reg.HRD_CTR 2) 1 c else if status = 2 then bump (Reg.HRD_CTR 3) 1 c
           else if status = 4 then bump (Reg.HRD_CTR 4) 1 c else c
  let c := seqEnd (ctxSeq n c % 2 ^ 20) (ctxOut n c) ran (freeBuffer n (unqueue n c))
  setCtxState n 0 { c with
    herdLive := setDel c.herdLive n
    herdSb := c.herdSb.filter (· != n)
    herdReqs := mapPut HerdReq.idle c.herdReqs n HerdReq.idle
    herdWait := c.herdWait.filter fun e => e.1 != n }

def finishAll (l : List Nat) (status : Nat) (c : Chip) : Chip := l.foldl (fun c n => finish n status c) c

/-- A load of model `m` failed: its held and queued requests are returned (R434). -/
def modelFail (c : Chip) (m : Nat) : Chip := finishAll (heldBatch m c ++ modelQueue m c) 0x0A c

/-! ### Choosing an accelerator (R432, R433, R466) -/

/-- Model `m` may be admitted on accelerator `a`: READY, resident, not being released. -/
def mayAdmit (m a : Nat) (c : Chip) : Bool :=
  let i := polImage m c
  accReady a c && (imgResident i c).testBit a && !(imgReleasing i c).testBit a

def roomOn (m a : Nat) (c : Chip) : Nat :=
  min (polMaxBatch m c - (runningSet m a c).length) (rd (Reg.HRD_MAX_RUNNING a) c - (runningOn a c).length)

/-- The accelerators of a batch sent to `a`: all of `TP_MASK` when it is set. -/
def batchAccs (m a : Nat) (c : Chip) : List Nat := if polTp m c = 0 then [a] else bitList 8 (polTp m c)

def roomOf (m a : Nat) (c : Chip) : Nat :=
  ((batchAccs m a c).map fun x => roomOn m x c).foldl min (roomOn m a c)

/-- The accelerator with the largest room, the lowest among equals. -/
def largestRoom (m : Nat) (c : Chip) : List Nat → Option Nat
  | [] => none
  | a :: t => match largestRoom m c t with
    | none => some a
    | some b => if roomOf m a c < roomOf m b c then some b else some a

def pickAccel (m : Nat) (c : Chip) : Option Nat :=
  if polTp m c = 0 then largestRoom m c ((List.range 8).filter fun a => mayAdmit m a c)
  else if (bitList 8 (polTp m c)).all fun a => mayAdmit m a c then (bitList 8 (polTp m c)).head? else none

/-! ### Admission (R434, R440, R468, R483–R485) -/

/-- What a failed pin answers the request with. -/
def pinStatus : PinResult → Nat
  | .lost => 6
  | .inUse => 5
  | _ => 4

/-- The sequence of a context is pinned for it. -/
def ctxPinned (n : Nat) (c : Chip) : Bool :=
  match seqOf (ctxSeq n c % 2 ^ 20) c with
  | some s => s.reserved != 0
  | none => false

/-- Contexts pinned on accelerator `a`; those that cannot be are returned, and those whose reservation does not fit are
answered. -/
def pinAll (a : Nat) : List Nat → List Nat → Chip → List Nat × Chip
  | [], cut, c => (cut, c)
  | n :: t, cut, c =>
    if ctxPinned n c then pinAll a t cut c
    else
      let r := seqPin (ctxSeq n c % 2 ^ 20) a (ctxPrompt n c) (ctxMaxNew n c) c
      match r.1 with
      | .pinned => pinAll a t cut r.2
      | .noRoom => pinAll a t (cut ++ [n]) r.2
      | .full => pinAll a t cut (finish n 4 (kvFull r.2))
      | e => pinAll a t cut (finish n (pinStatus e) r.2)

/-- A prompt's address as accelerator `a` addresses it (R440, R701, R703). -/
def promptView (n a : Nat) (c : Chip) : Nat :=
  if ctxAhnam n c || isBlockCode (originOwner false (ctxOrigin n c) c) then (accView a (ctxPromptAddr n c) c).getD 0
  else ctxPromptAddr n c

/-- An ADMIT list entry. -/
def admitEntry (n a : Nat) (c : Chip) : List Nat :=
  leBytes 4 (ctxReq n c) ++ leBytes 4 (ctxPrompt n c + ctxClass n c * 2 ^ 24) ++ leBytes 4 (ctxMaxNew n c) ++ leBytes 4 (ctxOut n c) ++
  leBytes 8 (promptView n a c) ++ leBytes 8 (seqRoot (ctxSeq n c % 2 ^ 20) c)

/-- The least deadline of a list of contexts; 0 for none. -/
def leastDeadline (l : List Nat) (c : Chip) : Nat :=
  (l.map fun n => ctxDeadline n c).foldl (fun m d => if d = 0 then m else if m = 0 then d else min m d) 0

/-- The MODEL_READY ticket that comes before a model's first ADMIT on an accelerator (R468). -/
def announce (a m : Nat) (c : Chip) : Chip :=
  if c.vatReady.elem (a, m) then c else postTicket a (plainTicket 2 m) { c with vatReady := c.vatReady ++ [(a, m)] }

/-- The tickets of a batch whose pages are all in place. -/
def issueBatch (b : HerdBatch) (c : Chip) : Chip :=
  let as := bitList 8 b.accs
  let c := as.foldl (fun c a =>
    postTicket a ⟨0, 0, b.model, b.ctxs.map fun n => admitEntry n a c, b.ctxs, leastDeadline b.ctxs c, b.id⟩ (announce a b.model c)) c
  let i := polImage b.model c
  let c := putN spDev (imgBase i c + 0x28) 8 (now c) c
  b.ctxs.foldl (fun c n => seqGrow (ctxSeq n c % 2 ^ 20) (ctxOut n c) c) c

/-- A closed batch goes on: its sequences are pinned; what does not fit returns to the front of the queue while something
fits, and otherwise waits; with every page in place the tickets are written (R483, R484). -/
def batchGo (b : HerdBatch) (c : Chip) : Chip :=
  match c.herdBatches.find? fun x => x.id == b.id with
  | none => c
  | some b =>
    let r := pinAll ((bitList 8 b.accs).headD 0) b.ctxs [] c
    let c := r.2
    match c.herdBatches.find? fun x => x.id == b.id with
    | none => c
    | some b =>
      let fit := b.ctxs.filter fun n => !r.1.elem n
      if fit.isEmpty then c
      else
        let c := { c with herdBatches := c.herdBatches.map fun x => if x.id == b.id then { b with ctxs := fit } else x }
        let c := if r.1.isEmpty then c else requeueFront b.model r.1 c
        if fit.all fun n => pinReady (ctxSeq n c % 2 ^ 20) c then
          issueBatch { b with ctxs := fit } { c with herdBatches := c.herdBatches.filter fun x => x.id != b.id }
        else c

def batchesGo (c : Chip) : Chip := c.herdBatches.foldl (fun c b => batchGo b c) c

/-- A batch closed for accelerator `a` (R433, R434). -/
def admitBatch (m a : Nat) (l : List Nat) (c : Chip) : Chip :=
  let as := batchAccs m a c
  let c := l.foldl (fun c n => ctxPut n 0 30 28 (as.headD a) (setCtxState n 3 c)) c
  let b : HerdBatch := { model := m, accs := (as.map (2 ^ ·)).sum, ctxs := l, id := c.herdBatchId }
  batchGo b { c with herdBatches := c.herdBatches ++ [b], herdBatchId := (c.herdBatchId + 1) % 2 ^ 32 }

/-- The held requests of a model pinned on the target of their load, once it is known (R464, R483). -/
def pinHeld (m : Nat) (c : Chip) : Chip :=
  match loadOf (polImage m c) c with
  | some l => if l.targets = 0 then c else (pinAll ((bitList 8 l.targets).headD 0) (heldBatch m c) [] c).2
  | none => c

/-- A load asked for, with the models that this makes fail. -/
def askLoad (m : Nat) (ahead : Bool) (c : Chip) : Chip :=
  let r := vatAsk m ahead c
  r.1.foldl modelFail r.2

/-- A load asked for in advance (R464). -/
def considerAhead (m : Nat) (c : Chip) : Chip :=
  let i := polImage m c
  let q := (modelQueue m c).length
  let k := imgAhead i c
  let on := bitList 8 (imgResident i c)
  if k = 0 ∨ (loadOf i c).isSome ∨ cmdReleasing i c = true ∨ imgValid i c = false then c
  else if on.isEmpty then (if k ≤ q then askLoad m true c else c)
  else if imgTp i c = 0 ∧ (on.all fun a => roomOf m a c == 0) = true ∧ k * (on.length + 1) ≤ q then askLoad m true c
  else c

/-- One evaluation of the batching decision of model `m` (R433); `expired` says that its timer has run out. -/
def considerOnce (m : Nat) (expired : Bool) (c : Chip) : Chip :=
  let q := modelQueue m c
  match q with
  | [] => c
  | _ =>
    if !polValid m c then c
    else
      let a := pickAccel m c
      let room := match a with
        | some a => roomOf m a c
        | none => polMaxBatch m c
      let oldest := (q.map fun n => ctxArrival n c).foldl min (2 ^ 64)
      let d := leastDeadline q c
      let aged := decide (polF m 0 63 32 c * 1000 ≤ now c - oldest)
      let tight := d != 0 && decide (d ≤ now c + polF m 8 31 0 c * 1000)
      if room = 0 ∨ ¬(room ≤ q.length ∨ aged = true ∨ tight = true ∨ expired = true) then c
      else
        let b := q.take (min q.length room)
        match a with
        | some a => admitBatch m a b (setQueue m (q.drop b.length) c)
        | none =>
          if !(heldBatch m c).isEmpty || cmdReleasing (polImage m c) c then c
          else
            let c := { setQueue m (q.drop b.length) c with herdHeld := mapPut [] c.herdHeld m b }
            pinHeld m (if (loadOf (polImage m c) c).isSome then c else askLoad m false c)

/-- The batching decision, repeated while requests and room remain. -/
def considerLoop (m : Nat) (expired : Bool) : Nat → Chip → Chip
  | 0, c => c
  | fuel + 1, c =>
    let c' := considerOnce m expired c
    if (modelQueue m c').length < (modelQueue m c).length then considerLoop m expired fuel c' else c'

def consider (m : Nat) (expired : Bool) (c : Chip) : Chip :=
  let c := considerAhead m c
  considerLoop m expired ((modelQueue m c).length + 1) c

def considerAll (c : Chip) : Chip := (c.herdQueue.map (·.1)).foldl (fun c m => consider m false c) c

/-! ### Accelerators leaving service (R451, R452) -/

/-- Batches on accelerator `a` without tickets return to the front of their queues. -/
def batchesBack (a : Nat) (c : Chip) : Chip :=
  (c.herdBatches.filter fun b => b.accs.testBit a).foldl (fun c b =>
    let c := b.ctxs.foldl (fun c n => match seqOf (ctxSeq n c % 2 ^ 20) c with
      | some s => if s.state = 4 then c else seqIdle s c
      | none => c) c
    requeueFront b.model b.ctxs { c with herdBatches := c.herdBatches.filter fun x => x.id != b.id }) c

/-- A request whose accelerator failed is requeued at the front, or returned (R451). -/
def requeueFailed (n : Nat) (c : Chip) : Chip :=
  let d := ctxDeadline n c
  let c := match seqOf (ctxSeq n c % 2 ^ 20) c with
    | some s => if s.state = 2 ∨ s.reserved ≠ 0 then seqIdle s c else c
    | none => c
  if (getReq n c).cancel then finish n 1 c
  else if (d = 0 ∨ now c < d) ∧ ctxRetries n c < 2 then
    let c := setReq n { getReq n c with evicted := 0, tix := [], call := none } (unqueue n c)
    requeueFront (ctxModel n c) [n] (ctxPut n 0x28 57 56 (ctxRetries n c + 1) c)
  else finish n 6 c

/-- The tickets of an accelerator forgotten. -/
def dropTickets (a : Nat) (c : Chip) : Chip :=
  { c with herdTix := mapPut [] c.herdTix a [], herdTixWait := mapPut [] c.herdTixWait a [] }

/-- What is placed on an accelerator is lost (R471, R489). -/
def accLost (a : Nat) (c : Chip) : Chip :=
  let r := vatAccLost a (kvAccLost a (dropTickets a c))
  r.1.foldl modelFail r.2

/-- Accelerator `a` becomes FAILED (R451). -/
def accFail (a : Nat) (c : Chip) : Chip :=
  if accState a c = 0 ∨ accState a c = 4 then c
  else
    let c := raise 0x70 0x0701 2 (wr (Reg.HRD_ACC_STATE a) 4 c)
    let on := runningOn a c
    let c := accLost a c
    considerAll (on.reverse.foldl (fun c n => if c.herdLive.elem n then requeueFailed n c else c) c)

/-- An accelerator becomes OFF (R452): its lines are released. -/
def accOff (a : Nat) (c : Chip) : Chip :=
  considerAll (unbindConsumer (.doorbell a) (unbindProducer 0x70 (0x100 + a) (accLost a (wr (Reg.HRD_ACC_STATE a) 0 c))))

/-- A draining accelerator with nothing running is DRAINED, or OFF when its enable was cleared. -/
def drainCheck (a : Nat) (c : Chip) : Chip :=
  if accState a c = 2 ∧ (runningOn a c).isEmpty = true then
    (if rdb (Reg.HRD_ACC_EN a) c then wr (Reg.HRD_ACC_STATE a) 3 c else accOff a c)
  else c

/-- What follows any event of Herd, the Vat or the pager: waiting batches, drained accelerators, and the counts. -/
def herdSettle (c : Chip) : Chip := herdCounts ((List.range 8).foldl (fun c a => drainCheck a c) (batchesGo c))

/-! ### Side-model calls (R429) -/

/-- A call record for a pool, and its line pulsed. The token address of POST and DRAFT calls is a free value: the spec does
not say where those tokens lie (log entry 31). The verdict's place is the last 16 bytes of the record. -/
def postCall (n kind pool count : Nat) (c : Chip) : Chip :=
  let k := mapGet 0 c.herdCall pool
  let a := rd (Reg.HRD_CALL_RING pool) c * 4096 + 64 * (k % 2 ^ rd (Reg.HRD_CALL_LOG2 pool) c)
  let tok := if kind = 0 then ctxPromptAddr n c else (freeVal c).toNat
  let c := if kind = 0 then c else useFree c
  let b := leBytes 4 (ctxReq n c) ++ leBytes 4 (kind + ctxModel n c * 2 ^ 16) ++ leBytes 4 count ++ leBytes 4 0 ++ leBytes 8 tok ++
    leBytes 8 (a + 0x30) ++ List.replicate 32 0
  let c := put spDev a b { c with herdCall := mapPut 0 c.herdCall pool ((k + 1) % 2 ^ 12) }
  pulseIf (rdb (Reg.HRD_CALL_BOUND pool) c) (rd (Reg.HRD_CALL_LINE pool) c) (setReq n { getReq n c with call := some kind } c)

end Sys2Proof.Machine
end

