-- ==== Sys2Proof/Machine/HerdCmds.lean ====
section
/-! DEFINITION. Herd's events and commands (R416–R425, R427, R429–R431, R433, R436–R438, R442–R453), and the events of the Vat and the pager that Herd follows. -/

namespace Sys2Proof.Machine

/-- Herd processes events: RUNNING, or DRAINING, when requests already taken finish (R453). -/
def herdUp (c : Chip) : Bool := pageState 0x70 c == 2 || pageState 0x70 c == 5

/-! ### Request records (R417) -/

/-- A request record: kind, class, model, tag, sequence, prompt and new tokens, reply fields, prompt and reply addresses, and
whether a reserved bit is set. -/
structure ReqRec where
  kind : Nat
  dclass : Nat
  model : Nat
  tag : Nat
  seq : Nat
  prompt : Nat
  maxNew : Nat
  dev : Nat
  qp : Nat
  rtag : Nat
  paddr : Nat
  raddr : Nat
  flaw : Bool
deriving DecidableEq, Repr

def reqParse (b : List Nat) : ReqRec :=
  let v := leNat b
  let f := fun off hi lo => bits v (8 * off + hi) (8 * off + lo)
  { kind := f 0 3 0, dclass := f 0 10 8, model := f 0 27 16, tag := f 4 31 0, seq := f 8 31 0, prompt := f 0xC 22 0, maxNew := f 0x10 22 0,
    dev := f 0x14 15 0, qp := f 0x14 27 16, rtag := f 0x18 15 0, paddr := f 0x20 63 0, raddr := f 0x28 63 0,
    flaw := f 0 7 4 != 0 || f 0 15 11 != 0 || f 0 31 28 != 0 || f 0xC 31 23 != 0 || f 0x10 31 23 != 0 || f 0x14 31 28 != 0 ||
      f 0x18 31 16 != 0 || f 0x1C 31 0 != 0 || f 0x30 127 0 != 0 }

/-- The next record of an origin: its bytes, whether it reads poisoned, the bytes of its SEND (0 on the intake path), and its
receive buffer. -/
structure NextRec where
  bytes : List Nat
  poison : Bool
  len : Nat
  buf : Option Nat
deriving DecidableEq, Repr

/-- The next record of an intake queue that is ACTIVE. -/
def nextIntake (q : Nat) (c : Chip) : Option NextRec :=
  let x := getInk q c
  if x.state ≠ 1 ∨ x.head = x.tail ∨ ownerIssues 3 (inkOwner q c) c = false then none
  else
    let o := inkOwner q c
    let n := inkF q 8 3 0 c
    let r := bufRead o (ownTarget o c) 0 (inkF q 8 63 12 c * 4096 + 64 * (x.head % 2 ^ n)) 64 c
    some ⟨r.1, r.2, 0, none⟩

/-- The next record of a queue pair: it is in the receive buffer that the completion record names. -/
def nextAhnam (k : Nat) (c : Chip) : Option NextRec :=
  let n := herdQp k c
  let q := getQp n c
  if q.cqHead = qpF n 0x4C 14 0 c then none
  else
    let a := qpRing n 0x10 q.cqHead 32 c
    let r := ldBytes a.1 a.2 32 c
    let wid := leNat (r.take 4)
    let p := rd Reg.HRD_PROMPT_AREA c + wid * 2 ^ rd Reg.HRD_RECV_LOG2 c
    let len := leNat ((r.drop 8).take 4)
    let b := readRange 0x9003 p 64 c
    if leNat ((r.drop 4).take 1) ≠ 0 then some ⟨[], false, 0, if bit (leNat ((r.drop 4).take 4)) 12 then some wid else none⟩
    else some ⟨b.1, b.2, len, some wid⟩

def nextRecord (o : Origin) (c : Chip) : Option NextRec :=
  match o with
  | .intake q => nextIntake (q % 4096) c
  | .ahnam k => if k < rd Reg.HRD_QP_COUNT c then nextAhnam k c else none

/-- The record of an origin consumed; its buffer is posted again unless the request keeps it. -/
def consumeRecord (o : Origin) (buf : Option Nat) (c : Chip) : Chip :=
  match o with
  | .intake q => setInk (q % 4096) { getInk (q % 4096) c with head := ((getInk (q % 4096) c).head + 1) % 2 ^ 15 } c
  | .ahnam k =>
    let n := herdQp k c
    let c := setQp n { getQp n c with cqHead := ((getQp n c).cqHead + 1) % 2 ^ 15 } c
    match buf with
    | some w => repost k w c
    | none => c

def originNo : Origin → Nat
  | .intake q => q % 4096
  | .ahnam k => k
def originAhnam : Origin → Bool
  | .intake _ => false
  | .ahnam _ => true

/-- The reply fields of a record, packed as a context holds them. -/
def replyFields (o : Origin) (r : ReqRec) : Nat := if originAhnam o then r.dev + r.rtag * 2 ^ 16 + r.qp * 2 ^ 32 else r.raddr

/-- A record answered at once, without a context. -/
def answer (o : Origin) (r : ReqRec) (status : Nat) (c : Chip) : Chip :=
  replyTo (originAhnam o) (originNo o) (replyFields o r) r.tag status 1 0 0 [] (bump (Reg.HRD_CTR 1) 1 c)

/-! ### NEW (R423, R427, R429, R453, R472, R475, R490) -/

/-- The record is one that a request may carry (R417, R427). -/
def reqOk (r : ReqRec) (n : NextRec) (o : Origin) (c : Chip) : Bool :=
  r.kind == 0 && !r.flaw && polValid r.model c && decide (1 ≤ r.prompt) && decide (r.prompt ≤ 4194304) && decide (1 ≤ r.maxNew) &&
  decide (r.maxNew ≤ 4194304) && (!originAhnam o || decide (64 + 4 * r.prompt ≤ n.len)) &&
  (if originAhnam o then r.paddr == 0 && r.raddr == 0 else r.dev == 0 && r.qp == 0 && r.rtag == 0)

/-- The sequence of a new request: made for handle 0, or the named one (R472, R475). Answers the handle or the status. -/
def reqSequence (r : ReqRec) (owner : Nat) (c : Chip) : (Nat ⊕ Nat) × Chip :=
  if r.seq = 0 then
    match seqCreate r.model owner true (fun tpp => depthFor (ceilDiv (r.prompt + r.maxNew) (2 ^ tpp))) c with
    | some (h, c) => (.inl h, c)
    | none => (.inr 4, kvFull c)
  else match seqNamed r.seq c with
    | none => (.inr 5, c)
    | some s =>
      if s.state = 4 then (.inr 6, c)
      else if s.state ≠ 1 ∨ s.eph = true ∨ s.owner ≠ owner ∨ 4194304 < s.tokens + r.prompt + r.maxNew then (.inr 5, c)
      else (.inl r.seq, c)

/-- A context filled for a request (R421–R423, R428). -/
def newContext (n : Nat) (o : Origin) (r : ReqRec) (x : NextRec) (seq : Nat) (c : Chip) : Chip :=
  let inc := (ctxInc n c + 1) % 2 ^ 12
  let budget := rd (Reg.HRD_DCLASS_BUDGET r.dclass) c
  let t := now c
  let buf := x.buf.getD 0
  let paddr := if originAhnam o then rd Reg.HRD_PROMPT_AREA c + buf * 2 ^ rd Reg.HRD_RECV_LOG2 c + 64 else r.paddr
  let b :=
    leBytes 4 (2 + r.dclass * 2 ^ 8 + r.model * 2 ^ 16) ++ leBytes 4 (inc + originNo o * 2 ^ 16 + b2n (originAhnam o) * 2 ^ 28) ++
    leBytes 4 (originGen (originAhnam o) (originNo o) c % 2 ^ 16) ++ leBytes 4 r.tag ++ leBytes 8 t ++
    leBytes 8 (if budget = 0 then 0 else t + budget * 1000) ++ leBytes 4 seq ++ leBytes 4 r.prompt ++ leBytes 4 r.maxNew ++ leBytes 4 0 ++
    leBytes 8 paddr ++ leBytes 8 (replyFields o r) ++ List.replicate 64 0
  let c := put spDev (ctxBase n c) b { c with herdLive := setAdd c.herdLive n, herdSb := c.herdSb ++ [n] }
  setReq n { HerdReq.idle with buf := if originAhnam o then x.buf.map fun w => (originNo o, w) else none } c

/-- The lowest FREE context (R423). -/
def freeContext (c : Chip) : Option Nat :=
  let n := lowestOut c.herdLive (c.herdLive.length + 1) 0
  if n < 2 ^ 20 then some n else none

/-- REQUEST_NEW: the next record of an origin, when it is no CANCEL. -/
def requestNew (o : Origin) (c : Chip) : Chip :=
  if !herdUp c then c
  else match nextRecord o c with
    | none => c
    | some x =>
      let r := reqParse x.bytes
      if x.bytes.isEmpty then consumeRecord o x.buf c
      else if r.kind = 1 ∧ x.poison = false then c
      else if x.poison then answer o r 6 (raise 0x70 0x0706 2 (consumeRecord o x.buf c))
      else if pageState 0x70 c = 5 then answer o r 7 (consumeRecord o x.buf c)
      else if !reqOk r x o c then answer o r 5 (consumeRecord o x.buf c)
      else match freeContext c, sbRoom c with
        | none, _ => answer o r 4 (raise 0x70 0x0704 0 (bump (Reg.HRD_CTR 4) 1 (consumeRecord o x.buf c)))
        | _, none => c
        | some n, some c =>
          match reqSequence r (originOwner (originAhnam o) (originNo o) c) c with
          | (.inr st, c) => answer o r st (if st = 4 then bump (Reg.HRD_CTR 4) 1 (consumeRecord o x.buf c) else consumeRecord o x.buf c)
          | (.inl h, c) =>
            let c := bump (Reg.HRD_CTR 0) 1 (newContext n o r x h (consumeRecord o none c))
            match polPool r.model 0 c with
            | some pool => postCall n 0 pool r.prompt (setCtxState n 1 c)
            | none => consider r.model false (enqueue n c)

def execRequestNew (o : Origin) : State → Host.Outcome State Fault Refusal := onChip fun c => herdSettle (requestNew o c)

/-! ### CANCEL (R450) -/

/-- The EVICT tickets of a request that runs. -/
def evict (n : Nat) (c : Chip) : Chip :=
  let m := ctxModel n c
  (batchAccs m (ctxAccel n c) c).foldl (fun c a => evictTicket a m [n] c) (setCtxState n 5 c)

/-- The effect of a CANCEL on the request that it names. Answers false when that request is ending. -/
def cancelCtx (n : Nat) (c : Chip) : Bool × Chip :=
  let s := ctxState n c
  let m := ctxModel n c
  if s = 1 ∨ s = 2 then (true, consider m false (finish n 1 c))
  else if s = 3 ∧ (c.herdBatches.any fun b => b.ctxs.elem n) = true then (true, considerAll (finish n 1 c))
  else if s = 3 ∨ s = 4 then (true, evict n (setReq n { getReq n c with cancel := true } c))
  else if s = 5 then (true, setReq n { getReq n c with cancel := true } c)
  else (false, c)

/-- The NEW request with the tag, from the same origin. -/
def cancelTarget (o : Origin) (tag : Nat) (c : Chip) : Option Nat :=
  c.herdLive.find? fun n => ctxTag n c == tag && ctxAhnam n c == originAhnam o && ctxOrigin n c == originNo o

/-- An event waits for its context (R424). -/
def waitFor (n : Nat) (e : HerdEvt) (c : Chip) : Chip :=
  if c.herdWait.elem (n, e) then c else { c with herdWait := c.herdWait ++ [(n, e)] }

/-- CANCEL: the next record of an origin, when it is one. -/
def cancelRecord (o : Origin) (c : Chip) : Chip :=
  if !herdUp c then c
  else match nextRecord o c with
    | none => c
    | some x =>
      let r := reqParse x.bytes
      if x.bytes.isEmpty ∨ r.kind ≠ 1 ∨ x.poison = true then c
      else if r.flaw then answer o r 5 (consumeRecord o x.buf c)
      else match cancelTarget o r.tag c with
        | none => answer o r 9 (consumeRecord o x.buf c)
        | some n =>
          if !c.herdSb.elem n then waitFor n .cancel c
          else
            let c := sbTouch n (consumeRecord o x.buf c)
            let e := cancelCtx n c
            if e.1 then e.2 else answer o r 9 e.2

def execCancel (o : Origin) : State → Host.Outcome State Fault Refusal := onChip fun c => herdSettle (cancelRecord o c)

/-! ### Verdicts and timers (R430, R431, R436, R447) -/

/-- A verdict on a context that waits for a call of kind `k`. -/
def verdictOn (n k kind model info : Nat) (c : Chip) : Chip :=
  let c := sbTouch n (setReq n { getReq n c with call := none } c)
  let m := ctxModel n c
  if kind = 1 then consider m false (finish n 3 c)
  else if k = 2 then
    if kind = 3 then
      let tok := (freeVal c).toNat
      let c := useFree c
      (batchAccs m (ctxAccel n c) c).foldl (fun c a =>
        postTicket a ⟨0, 5, m, [leBytes 4 (ctxReq n c) ++ leBytes 4 0 ++ leBytes 4 info ++ leBytes 4 0 ++ leBytes 8 tok], [n], 0, 0⟩ c) c
    else c
  else if k = 1 then finish n 0 c
  else if kind = 2 then
    if polValid (model % 4096) c then
      let c := ctxPut n 0 27 16 model c
      consider (model % 4096) false (enqueue n c)
    else finish n 5 (ctxPut n 0 27 16 model c)
  else consider m false (enqueue n c)

/-- The verdict kinds that answer a call of kind `k`: PASS, REJECT, ROUTE to PRE; PASS, REJECT to POST; any of PASS, REJECT,
DRAFT to DRAFT. -/
def verdictFits (k kind : Nat) : Bool := if k = 0 then decide (kind ≤ 2) else if k = 1 then decide (kind ≤ 1) else kind != 2

/-- VERDICT: one whose `REQ` matches no waiting call is discarded and counted. -/
def verdict (pool req kind model info : Nat) (c : Chip) : Chip :=
  if !herdUp c then c
  else match reqCtx req c with
    | none => bump (Reg.HRD_CTR 6) 1 c
    | some n => match (getReq n c).call with
      | none => bump (Reg.HRD_CTR 6) 1 c
      | some k =>
        if !verdictFits k kind || polPool (ctxModel n c) k c != some pool then bump (Reg.HRD_CTR 6) 1 c
        else if !c.herdSb.elem n then waitFor n (.verdict kind model info) c
        else verdictOn n k kind model info c

def execVerdict (pool : Fin 32) (req kind model info : Nat) : State → Host.Outcome State Fault Refusal :=
  onChip fun c => herdSettle (verdict pool.val req kind model info c)

/-- A call without a verdict in time ends its request. -/
def sideTimeout (n : Nat) (c : Chip) : Chip :=
  if !herdUp c || !c.herdLive.elem n || (getReq n c).call.isNone then c
  else if !c.herdSb.elem n then waitFor n .side c
  else considerAll (finish n 8 (raise 0x70 0x0705 0 c))

def execSideTimeout (ctx : Nat) : State → Host.Outcome State Fault Refusal := onChip fun c => herdSettle (sideTimeout ctx c)

/-- BATCH_TIMER: a model's timer expires. -/
def execBatchTimer (m : Fin 4096) : State → Host.Outcome State Fault Refusal :=
  onChip fun c => if herdUp c then herdSettle (consider m.val true c) else c

/-- DEADLINE_PASS. -/
def deadlinePass (n : Nat) (c : Chip) : Chip :=
  if !herdUp c || !c.herdLive.elem n || ctxDeadline n c == 0 || ctxState n c != 2 || !polDropLate (ctxModel n c) c ||
     !(modelQueue (ctxModel n c) c).elem n then c
  else if !c.herdSb.elem n then waitFor n .deadline c
  else finish n 2 c

def execDeadlinePass (ctx : Nat) : State → Host.Outcome State Fault Refusal := onChip fun c => herdSettle (deadlinePass ctx c)

/-- FLUSH_TIMER: streamed tokens are sent. -/
def flushTimer (n : Nat) (c : Chip) : Chip :=
  if !herdUp c || !c.herdLive.elem n || (getReq n c).staged.isEmpty || !polStream (ctxModel n c) c then c
  else if !c.herdSb.elem n then waitFor n .flush c
  else sendReply n 0 0 c

def execFlushTimer (ctx : Nat) : State → Host.Outcome State Fault Refusal := onChip fun c => herdSettle (flushTimer ctx c)

/-! ### Completion records (R442–R445) -/

/-- A completion record. -/
structure AccRec where
  req : Nat
  kind : Nat
  count : Nat
  toks : List Nat
  ticket : Nat
  ring : Nat
  phase : Nat
deriving DecidableEq, Repr

def accRec (b : List Nat) : AccRec :=
  let v := leNat b
  let f := fun off hi lo => bits v (8 * off + hi) (8 * off + lo)
  ⟨f 0 31 0, f 4 3 0, f 4 11 8, (List.range (f 4 11 8)).map fun k => f (8 + 4 * k) 31 0, f 0x28 63 0, f 0x38 31 0, f 0x38 32 32⟩

/-- The slot of record `h` of accelerator `a`. -/
def accSlot (a h : Nat) (c : Chip) : Nat := rd Reg.HRD_CRING_AREA c + 0x400000 * a + 64 * (h % 2 ^ rd (Reg.HRD_CRING_LOG2 a) c)

/-- The record at the head consumed, and the head told to the accelerator (R444; after every record, log entry 32). -/
def accConsume (a : Nat) (c : Chip) : Chip :=
  let h := mapGet 0 c.herdComp a + 1
  let c := { c with herdComp := mapPut 0 c.herdComp a h }
  if spurBlocked a c then c else putN (spAcc a) (rd (Reg.HRD_CHEAD_ADDR a) c) 8 h c

/-- The record counts from accelerator `a` of a tensor-parallel model (R445). -/
def recCounts (n a kind : Nat) (c : Chip) : Bool :=
  let tp := polTp (ctxModel n c) c
  tp == 0 || kind == 2 || kind == 3 || (bitList 8 tp).head? == some a

/-- Tokens staged; with `STREAM`, 256 of them are sent (R446, R447). -/
def stageTokens (n : Nat) (toks : List Nat) (c : Chip) : Chip :=
  let c := ctxPut n 0x28 54 32 (ctxOut n c + toks.length) c
  let c := setReq n { getReq n c with staged := (getReq n c).staged ++ toks } c
  if polStream (ctxModel n c) c && decide (256 ≤ (getReq n c).staged.length) then sendReply n 0 0 c else c

/-- A request is RUNNING once its first token has come or its ADMIT tickets are acknowledged. -/
def startRunning (n : Nat) (c : Chip) : Chip := if ctxState n c = 3 then setCtxState n 4 c else c

/-- FINISHED: the output side model, or the final reply. -/
def finished (n : Nat) (toks : List Nat) (c : Chip) : Chip :=
  let m := ctxModel n c
  let c := setCtxState n 6 (stageTokens n toks c)
  let c := match polPool m 1 c with
    | some pool => postCall n 1 pool (ctxOut n c) c
    | none => finish n 0 c
  considerAll c

/-- EVICTED: once every member has reported it, the request is returned CANCELLED or queued again (R445, R450, R452, R487). -/
def evicted (n a : Nat) (c : Chip) : Chip :=
  let r := getReq n c
  let mask := r.evicted ||| 2 ^ a
  let tp := polTp (ctxModel n c) c
  if tp ≠ 0 ∧ mask &&& tp ≠ tp then setReq n { r with evicted := mask } c
  else
    let c := match seqOf (ctxSeq n c % 2 ^ 20) c with
      | some s => if s.state = 2 ∨ s.reserved ≠ 0 then seqIdle s c else c
      | none => c
    if r.cancel then considerAll (finish n 1 c)
    else considerAll (enqueue n (setReq n { r with evicted := 0, tix := [], call := none } c))

/-- TICKET_DONE: tickets up to `seq` are acknowledged (R442, R466). -/
def ticketsDone (a seq : Nat) (c : Chip) : Chip :=
  let l := (openTickets a c).filter fun t => decide (t.seq ≤ seq)
  if l.isEmpty then c
  else
    let last := (l.getLast?.map (·.seq)).getD 0
    let c := wr (Reg.HRD_TICKET_DONE a) last { c with herdTix := mapPut [] c.herdTix a ((openTickets a c).filter fun t => decide (seq < t.seq)) }
    let c := (l.filter fun t => t.kind == 0).foldl (fun c t => t.ctxs.foldl (fun c n =>
      let r := getReq n c
      if !c.herdLive.elem n || !r.tix.elem (a, t.seq) then c
      else
        let left := r.tix.filter fun x => x != (a, t.seq)
        let c := setReq n { r with tix := left } c
        if left.isEmpty then startRunning n (freeBuffer n c) else c) c) c
    pumpTickets a (mapGet [] c.herdTixWait a).length (releasesAcked a seq c)

/-- A record's effect on the context that it names. -/
def recordOn (a n : Nat) (r : AccRec) (poisonTicket : Bool) (c : Chip) : Chip :=
  let c := sbTouch n c
  if !recCounts n a r.kind c then c
  else match r.kind with
    | 0 => seqGrow (ctxSeq n c % 2 ^ 20) (ctxOut n c + r.toks.length) (stageTokens n r.toks (startRunning n c))
    | 1 => finished n r.toks c
    | 2 => if poisonTicket then accFail a c else considerAll (requeueFailed n c)
    | 3 => evicted n a c
    | _ => match polPool (ctxModel n c) 2 c with
      | some pool => if rd (Reg.HRD_ABI_AGREED a) c = 2 then postCall n 2 pool r.count c else c
      | none => c

/-- The record at the head of a completion ring, when its kind is `kind`; a record in an unconsumed slot overflows the ring;
a poisoned or malformed one is consumed whatever its kind is. -/
def takeRecord (kind a : Nat) (poisonTicket : Bool) (c : Chip) : Chip :=
  let s := accState a c
  if !herdUp c || s == 0 || s == 4 then c
  else
    let h := mapGet 0 c.herdComp a
    let log2 := rd (Reg.HRD_CRING_LOG2 a) c
    let slot := accSlot a h c
    let r := accRec (ldBytes spDev slot 64 c)
    let ahead := (r.ring + 2 ^ 32 - h % 2 ^ 32) % 2 ^ 32
    if 2 ^ log2 ≤ ahead ∧ ahead < 2 ^ 31 ∧ r.phase = 1 - (h + ahead) / 2 ^ log2 % 2 then
      accFail a (raise 0x70 0x0707 2 c)
    else if ahead ≠ 0 ∨ r.phase ≠ 1 - h / 2 ^ log2 % 2 then c
    else if anyPoison spDev slot 64 c then
      let c := raise 0x70 0x0706 2 (accConsume a c)
      match reqCtx r.req c with
      | some n => if ctxOn n a c then considerAll (finish n 6 c) else c
      | none => c
    else if 5 < r.kind ∨ 8 < r.count then raise 0x70 0x0703 0 (accConsume a c)
    else if r.kind ≠ kind then c
    else if r.kind = 4 then ticketsDone a r.ticket (accConsume a c)
    else match reqCtx r.req c with
      | none => raise 0x70 0x0702 0 (bump (Reg.HRD_CTR 6) 1 (accConsume a c))
      | some n =>
        if !ctxOn n a c then raise 0x70 0x0702 0 (bump (Reg.HRD_CTR 6) 1 (accConsume a c))
        else if !c.herdSb.elem n then waitFor n (.record a) c
        else recordOn a n r poisonTicket (accConsume a c)

/-- TOKENS. -/
def execTokens (a : Fin 8) : State → Host.Outcome State Fault Refusal := onChip fun c => herdSettle (takeRecord 0 a.val false c)
/-- FINISHED. -/
def execFinished (a : Fin 8) : State → Host.Outcome State Fault Refusal := onChip fun c => herdSettle (takeRecord 1 a.val false c)
/-- FAILED; `poisonTicket` says that the record tells of a ticket read poisoned, which `ACC_CODE` encodes in a way the spec
does not state. -/
def execFailed (a : Fin 8) (poisonTicket : Bool) : State → Host.Outcome State Fault Refusal :=
  onChip fun c => herdSettle (takeRecord 2 a.val poisonTicket c)
/-- EVICTED. -/
def execEvicted (a : Fin 8) : State → Host.Outcome State Fault Refusal := onChip fun c => herdSettle (takeRecord 3 a.val false c)
/-- TICKET_DONE. -/
def execTicketDone (a : Fin 8) : State → Host.Outcome State Fault Refusal := onChip fun c => herdSettle (takeRecord 4 a.val false c)
/-- DRAFT_REQ. -/
def execDraftReq (a : Fin 8) : State → Host.Outcome State Fault Refusal := onChip fun c => herdSettle (takeRecord 5 a.val false c)

/-- ACC_TIMEOUT: a ticket is not acknowledged in time. -/
def execAccTimeout (a : Fin 8) : State → Host.Outcome State Fault Refusal :=
  onChip fun c => if (openTickets a.val c).isEmpty || !herdUp c then c else herdSettle (accFail a.val c)

/-! ### The scoreboard (R424, R425) -/

/-- An event goes on once its context is on die. -/
def herdEvent (n : Nat) (e : HerdEvt) (c : Chip) : Chip :=
  match e with
  | .record a =>
    let h := mapGet 0 c.herdComp a
    let r := accRec (ldBytes spDev (accSlot a h c) 64 c)
    if reqCtx r.req c = some n then takeRecord r.kind a false c else c
  | .cancel =>
    let o := if ctxAhnam n c then Origin.ahnam (ctxOrigin n c) else Origin.intake (ctxOrigin n c)
    cancelRecord o c
  | .verdict kind model info => match (getReq n c).call with
    | some k => verdictOn n k kind model info c
    | none => c
  | .side => sideTimeout n c
  | .deadline => deadlinePass n c
  | .flush => flushTimer n c

/-- CONTEXT_FETCH: a context comes in when it has room, and the events that wait for it proceed; a poisoned one ends. -/
def contextFetch (n : Nat) (c : Chip) : Chip :=
  if !herdUp c || !c.herdLive.elem n || c.herdSb.elem n then c
  else match sbRoom c with
    | none => c
    | some c =>
      let es := c.herdWait.filter fun e => e.1 == n
      let c := { c with herdSb := c.herdSb ++ [n], herdWait := c.herdWait.filter fun e => e.1 != n }
      if anyPoison spDev (ctxBase n c) 128 c then considerAll (finish n 6 (raise 0x70 0x0706 2 c))
      else es.foldl (fun c e => herdEvent n e.2 c) c

def execContextFetch (ctx : Nat) : State → Host.Outcome State Fault Refusal := onChip fun c => herdSettle (contextFetch ctx c)

/-! ### Intake queues (R420) -/

/-- INTAKE_DOORBELL: `reply` frees reply slots, else records are posted. -/
def intakeDoorbell (p : Party) (q : Nat) (reply : Bool) (v : Nat) (c : Chip) : Chip :=
  let x := getInk q c
  if ownerCode p c ≠ inkOwner q c ∨ x.state = 0 then raise 0x40 0x040D 0 c
  else
    let c := wakeFor 0x70 c
    if reply then inkFlush q x.recs.length (setInk q { x with cqHead := v % 2 ^ 15 } c) else setInk q { x with tail := v % 2 ^ 15 } c

def execIntakeDoorbell (p : Party) (q : Fin 4096) (reply : Bool) (value : Nat) : State → Host.Outcome State Fault Refusal :=
  onChip (intakeDoorbell p q.val reply value)

/-- The requests of an intake queue lose their origin (R447). -/
def orphanIntake (q : Nat) (c : Chip) : Chip :=
  c.herdLive.foldl (fun c n => if ctxAhnam n c = false ∧ ctxOrigin n c = q then setReq n { getReq n c with orphan := true } c else c) c

/-- An intake queue enters RESET. -/
def intakeReset (q : Nat) (c : Chip) : Chip := setInk q IntakeQ.idle (orphanIntake q c)

/-- Every intake queue of an owner to RESET (R719, R744). -/
def intakeResetOwner (o : Nat) (c : Chip) : Chip :=
  (List.range 4096).foldl (fun c q => if (getInk q c).state ≠ 0 ∧ inkOwner q c = o then intakeReset q c else c) c

/-- A write of `INTAKE_GO` by the queue's owner. -/
def intakeCommand (p : Party) (q cmd : Nat) (f : Chip → Chip) : Chip → Chip :=
  regAccess p 0x70 0x160 (q + cmd * 2 ^ 12 + 2 ^ 31) fun c =>
    if ownerCode p c = inkOwner q c ∨ (isControl p c = true ∧ isStallCode (inkOwner q c) = true) then f c
    else wr Reg.HRD_INTAKE_RESULT 1 c

/-- INTAKE_RESET. -/
def execIntakeReset (p : Party) (q : Fin 4096) : State → Host.Outcome State Fault Refusal :=
  onChip (intakeCommand p q.val 0 fun c => wr Reg.HRD_INTAKE_RESULT 0 (intakeReset q.val c))

/-- The check of an intake context (R342, R420). -/
def intakeOk (q : Nat) (c : Chip) : Bool :=
  let o := inkOwner q c
  let ringOk := fun off e =>
    let l := inkF q off 3 0 c
    decide (4 ≤ l) && inkF q off 11 4 c == 0 && ownerReaches o (inkF q off 63 12 c * 4096) (e * 2 ^ l) c
  ringOk 8 64 && ringOk 0x10 32 && ownerValid o && inkF q 0x20 31 12 c == 0

def intakeActivate (q : Nat) (c : Chip) : Chip :=
  if (getInk q c).state = 1 ∨ intakeOk q c = false then wr Reg.HRD_INTAKE_RESULT 2 c
  else
    let x := getInk q c
    wr Reg.HRD_INTAKE_RESULT 0 (setInk q (if x.state = 0 then { IntakeQ.idle with state := 1 } else { x with state := 1 }) c)

/-- INTAKE_ACTIVE. -/
def execIntakeActive (p : Party) (q : Fin 4096) : State → Host.Outcome State Fault Refusal :=
  onChip (intakeCommand p q.val 1 (intakeActivate q.val))

/-- INTAKE_DRAIN: the queue takes no further record. -/
def execIntakeDrain (p : Party) (q : Fin 4096) : State → Host.Outcome State Fault Refusal :=
  onChip (intakeCommand p q.val 2 fun c =>
    if (getInk q.val c).state = 0 then wr Reg.HRD_INTAKE_RESULT 2 c
    else wr Reg.HRD_INTAKE_RESULT 0 (setInk q.val { getInk q.val c with state := 2 } c))

/-! ### Policies (R427) -/

/-- The check of a policy entry. -/
def policyOk (m : Nat) (c : Chip) : Bool :=
  let tp := polTp m c
  decide (1 ≤ polMaxBatch m c) && decide (polMaxBatch m c ≤ 1024) && polF m 0 15 11 c == 0 && polF m 0 30 26 c == 0 && polF m 8 63 44 c == 0 &&
  polF m 0x10 7 6 c == 0 && polF m 0x10 15 14 c == 0 && polF m 0x10 31 22 c == 0 && polF m 0x18 63 16 c == 0 &&
  ld spDev (polBase m c + 0x20) 32 c == 0 &&
  ([0, 1, 2].all fun k => match polPool m k c with
    | some p => rd (Reg.CHN_KIND p) c == 2
    | none => true) &&
  (bitList 8 tp).all fun a => rdb (Reg.HRD_ACC_EN a) c

/-- A write of `POLICY_GO` by the policy's owner. -/
def policyCommand (p : Party) (m cmd : Nat) (f : Chip → Chip) : Chip → Chip :=
  regAccess p 0x70 0x164 (m + cmd * 2 ^ 12 + 2 ^ 31) fun c =>
    if ownerCode p c = polOwner m c ∨ (isControl p c = true ∧ isStallCode (polOwner m c) = true) then f c
    else wr Reg.HRD_POLICY_RESULT 1 c

/-- POLICY_VALIDATE. -/
def execPolicyValidate (p : Party) (m : Fin 4096) : State → Host.Outcome State Fault Refusal :=
  onChip (policyCommand p m.val 0 fun c =>
    if policyOk m.val c then wr Reg.HRD_POLICY_RESULT 0 (putF spDev (polBase m.val c) 31 31 1 c) else wr Reg.HRD_POLICY_RESULT 2 c)

/-- POLICY_INVALIDATE: every request of the model that is not RUNNING is returned with BAD_REQUEST. -/
def policyInvalidate (m : Nat) (c : Chip) : Chip :=
  let c := putF spDev (polBase m c) 31 31 0 c
  let l := c.herdLive.filter fun n => ctxModel n c == m && ctxState n c != 4
  wr Reg.HRD_POLICY_RESULT 0 (finishAll l 5 c)

def execPolicyInvalidate (p : Party) (m : Fin 4096) : State → Host.Outcome State Fault Refusal :=
  onChip (policyCommand p m.val 1 fun c => herdSettle (policyInvalidate m.val c))

/-! ### Accelerators (R437, R438, R452, R454, R455) -/

def accReg (a : Nat) : Nat := 0x820 + 0x80 * a

/-- Why an accelerator's enable is refused; 0 when it is not. -/
def accEnableCode (a : Nat) (c : Chip) : Nat :=
  let v := min (rd (Reg.HRD_ABI_MAX a) c) 2
  let t := rd (Reg.HRD_TRING_LOG2 a) c
  let r := rd (Reg.HRD_CRING_LOG2 a) c
  let n := rd (Reg.HRD_MAX_RUNNING a) c
  if !running (0x10 + a) c then 0x24
  else if v < max (rd (Reg.HRD_ABI_MIN a) c) 1 then 0x20
  else if t < 4 ∨ 12 < t ∨ r < 8 ∨ n = 0 ∨ rd (Reg.HRD_TRING_ADDR a) c % 256 ≠ 0 ∨ rd (Reg.HRD_DOORBELL_ADDR a) c % 4 ≠ 0 ∨
          rd (Reg.HRD_CHEAD_ADDR a) c % 8 ≠ 0 then 0x23
  else if (accView a (rd Reg.HRD_CRING_AREA c + 0x400000 * a) c).isNone then 0x21
  else if rdb (Reg.HRD_DB_BOUND a) c && lineTaken (rd (Reg.HRD_DB_LINE a) c) c then 0x0B
  else 0

/-- `ACC_EN` set. -/
def accEnable (a : Nat) (c : Chip) : Chip :=
  if accState a c ≠ 0 then c
  else
    let code := accEnableCode a c
    if code ≠ 0 then refuse 0x70 code (accReg a) c
    else
      let c := if rdb (Reg.HRD_DB_BOUND a) c then
          bindConsumer (rd (Reg.HRD_DB_LINE a) c) (.doorbell a) (bindProducer (rd (Reg.HRD_DB_LINE a) c) 0x70 (0x100 + a) c) else c
      let c := wr (Reg.HRD_ABI_AGREED a) (min (rd (Reg.HRD_ABI_MAX a) c) 2) (wr (Reg.HRD_ACC_STATE a) 1 (wr (Reg.HRD_ACC_EN a) 1 c))
      let c := wr (Reg.HRD_CRING_WINDOW a) ((accView a (rd Reg.HRD_CRING_AREA c + 0x400000 * a) c).getD 0) c
      considerAll (wr (Reg.HRD_TICKET_SEQ a) 0 (wr (Reg.HRD_TICKET_DONE a) 0 { dropTickets a c with herdComp := mapPut 0 c.herdComp a 0 }))

/-- A drain begins: no further ADMIT, and a DRAIN ticket. -/
def drainStart (a : Nat) (c : Chip) : Chip :=
  if accState a c = 1 then postTicket a (plainTicket 4 0) (batchesBack a (wr (Reg.HRD_ACC_STATE a) 2 c)) else c

/-- DRAIN_MOVE: the running set is evicted as well. -/
def drainMove (a : Nat) (c : Chip) : Chip :=
  let c := drainStart a c
  if accState a c ≠ 2 then c
  else (runningOn a c).foldl (fun c n => if ctxState n c = 3 ∨ ctxState n c = 4 then evict n c else c) c

/-- ACC_EN. -/
def execAccEn (p : Party) (a : Fin 8) (on : Bool) : State → Host.Outcome State Fault Refusal :=
  onChip (regAccess p 0x70 (accReg a.val) (b2n on) fun c => herdSettle (
    if on then accEnable a.val c
    else if accState a.val c = 4 then accOff a.val (wr (Reg.HRD_ACC_EN a.val) 0 c)
    else if accState a.val c = 0 then c
    else
      let c := drainMove a.val (wr (Reg.HRD_ACC_EN a.val) 0 c)
      if accState a.val c = 3 then accOff a.val c else c))

/-- A write of `ACC_CMD`. -/
def accCommand (p : Party) (a cmd : Nat) (f : Chip → Chip) : Chip → Chip :=
  regAccess p 0x70 (accReg a) (cmd * 2) fun c => herdSettle (f c)

/-- DRAIN_FINISH. -/
def execDrainFinish (p : Party) (a : Fin 8) : State → Host.Outcome State Fault Refusal := onChip (accCommand p a.val 1 (drainStart a.val))
/-- DRAIN_MOVE. -/
def execDrainMove (p : Party) (a : Fin 8) : State → Host.Outcome State Fault Refusal := onChip (accCommand p a.val 2 (drainMove a.val))
/-- RESUME. -/
def accResume (a : Nat) (c : Chip) : Chip :=
  if accState a c = 2 ∨ accState a c = 3 then considerAll (wr (Reg.HRD_ACC_STATE a) 1 c) else c
def execAccResume (p : Party) (a : Fin 8) : State → Host.Outcome State Fault Refusal := onChip (accCommand p a.val 3 (accResume a.val))

/-! ### Residency and pages -/

/-- The models named by an image whose held batches go to the accelerator that the load chose (R434). -/
def admitHeld (i : Nat) (c : Chip) : Chip :=
  (c.herdHeld.map (·.1)).foldl (fun c m =>
    if polImage m c = i then
      match pickAccel m c with
      | some a => admitBatch m a (heldBatch m c) { c with herdHeld := mapPut [] c.herdHeld m [] }
      | none => c
    else c) c

/-- A load ends by itself: the next loads may start, and what this decides is told to Herd. -/
def loadsGo (ms : List Nat) (c : Chip) : Chip :=
  let r := vatPump (2 * c.vatLoads.length + 2) ms c
  let c := r.1.foldl modelFail r.2
  considerAll ((c.herdHeld.map (·.1)).foldl (fun c m => pinHeld m c) c)

/-- LOAD_COMPLETE: every descriptor of the load has finished (R468, R470). -/
def loadComplete (i : Nat) (c : Chip) : Chip :=
  match c.vatLoads.find? fun l => l.image == i && l.stage == 2 with
  | none => c
  | some l =>
    let r := loadSegs l (imgSegList i c) c
    if r.1 then
      let f := loadFail l true r.2
      loadsGo f.1.toList f.2
    else
      let c := imgPut i 0x20 15 8 (imgLoading i r.2 - (imgLoading i r.2 &&& l.targets)) (imgPut i 0x20 7 0 (imgResident i r.2 ||| l.targets) r.2)
      let c := bump (Reg.VAT_CTR 0) 1 { c with vatLoads := c.vatLoads.filter fun x => x != l }
      let c := (bitList 8 l.targets).foldl (fun c a => (modelsOf i c).foldl (fun c m => announce a m c) c) c
      loadsGo [] (admitHeld i c)

def execLoadComplete (i : Fin 4096) : State → Host.Outcome State Fault Refusal := onChip fun c => herdSettle (loadComplete i.val c)

/-- A descriptor of the Vat is aborted on engine `e`: the loads that write through it fail (R470). -/
def vatAbortOn (e : Nat) (c : Chip) : Chip :=
  match c.vatLoads.find? fun l => l.stage == 2 && l.targets.testBit e with
  | none => c
  | some l =>
    let f := loadFail l false (loadPrefix l c)
    herdSettle (loadsGo f.1.toList f.2)

/-- IMAGE_RELEASE (R471). -/
def execImageRelease (p : Party) (i : Fin 4096) : State → Host.Outcome State Fault Refusal :=
  onChip (imgCommand p i.val 3 fun c =>
    wr Reg.VAT_IMG_RESULT 0 (herdSettle ((bitList 8 (imgResident i.val c)).foldl (fun c a => releaseStart true a c i.val) c)))

/-- PAGE_MOVE_DONE. -/
def execPageMoveDone (d : Nat) (res : MoveResult) : State → Host.Outcome State Fault Refusal :=
  onChip fun c => herdSettle (pageMoveDone d res c)

/-! ### Pages of the blocks -/

/-- HRD enters RUNNING (R418): its queue pairs are made ACTIVE and the receive buffers posted, round-robin over them. -/
def herdOn (c : Chip) : Chip :=
  let k := rd Reg.HRD_QP_COUNT c
  let c := { c with herdLive := [], herdSb := [], herdReqs := [], herdWait := [], herdQueue := [], herdHeld := [], herdBatches := [] }
  let c := (List.range k).foldl (fun c i => qpActive (herdQp i c) (qpReady (herdQp i c) c)) c
  let n := 2 ^ (rd Reg.HRD_PROMPT_LOG2 c - rd Reg.HRD_RECV_LOG2 c)
  let room := fun i c => 2 ^ qpF (herdQp i c) 8 3 0 c - 1
  herdCounts (if k = 0 then c else (List.range n).foldl (fun c w =>
    let i := w % k
    if w / k < room i c then repost i w c else c) c)

/-- HRD enters OFF: its queue pairs go to RESET; nothing waits. -/
def herdOff (c : Chip) : Chip :=
  let c := qpResetOwner 0x9003 c
  let c := (List.range 8).foldl (fun c a => unbindConsumer (.doorbell a) (wr (Reg.HRD_ACC_STATE a) 0 (wr (Reg.HRD_ACC_EN a) 0 c))) c
  let c := (List.range 32).foldl (fun c p => unbindConsumer (.verdict p) c) c
  herdCounts (unbindPage 0x70 { c with
    herdLive := [], herdSb := [], herdReqs := [], herdWait := [], herdQueue := [], herdHeld := [], herdBatches := [], herdTix := [],
    herdTixWait := [], herdComp := [], herdCall := [], intake := [] })

end Sys2Proof.Machine
end

