-- ==== Sys2Proof/Machine/MoverCmds.lean ====
section
/-! DEFINITION. The commands of the Mover channels (R241–R269): doorbell, enable, abort, resume, reset, and what a running descriptor meets. -/

namespace Sys2Proof.Machine

/-- A write of `TAIL` by the channel's owner; a stall writes through its doorbell page (R241, R247). -/
def movTail (p : Party) (e ch tail : Nat) (c : Chip) : Chip :=
  if movOwns p e ch c then wr (Reg.MOV_TAIL e ch) tail c else refuse (movPage e) 0x03 (movOff ch 0x10) c

/-- MOVER_TAIL. -/
def execMoverTail (p : Party) (e : Fin 12) (c : Fin 64) (tail : Nat) : State → Host.Outcome State Fault Refusal :=
  onChip fun s => match p with
    | .stall _ => movTail p e.val c.val tail s
    | _ => regAccess p (movPage e.val) (movOff c.val 0x10) tail (movTail p e.val c.val tail) s

/-- CH_EN_WRITE (R246, R248, R269). -/
def execChEnWrite (p : Party) (e : Fin 12) (c : Fin 64) (value : Nat) : State → Host.Outcome State Fault Refusal :=
  onChip (movOwned p e.val c.val 0x08 value fun s =>
    movWriteEn e.val c.val value (match movRunOf e.val c.val s with | some r => movProgress r s | none => 0) (useFree s))

/-- CHANNEL_RESET: `RESET_GO` of the engine page (R269). -/
def execChannelReset (p : Party) (e : Fin 12) (c : Fin 64) : State → Host.Outcome State Fault Refusal :=
  onChip (regAccess p (movPage e.val) 0x11C (c.val + 2 ^ 31) (movResetAt e.val c.val))

/-- The Vat hears of an abort on the channel that its loads use (R470). -/
def movVat (e ch : Nat) (c : Chip) : Chip :=
  if movOwner e ch c = 0x9001 ∧ e < 8 ∧ ch = rd Reg.VAT_VAT_CH c then vatAbortOn e c else c

/-- The channel has a descriptor that stops, or the Vat writes through it. -/
def movStops (e ch : Nat) (c : Chip) : Bool :=
  (movRunOf e ch c).isSome || (movOwner e ch c == 0x9001 && c.vatLoads.any fun l => l.stage == 2 && l.targets.testBit e)

/-- MOVER_ABORT (R264, R268). -/
def execMoverAbort (p : Party) (e : Fin 12) (c : Fin 64) (written : Nat) : State → Host.Outcome State Fault Refusal :=
  onChip (movOwned p e.val c.val 0x08 2 fun s =>
    if movStops e.val c.val s then movVat e.val c.val (movWriteAbort e.val c.val written s) else s)

/-- MOVER_RESUME (R248, R267). -/
def execMoverResume (p : Party) (e : Fin 12) (c : Fin 64) : State → Host.Outcome State Fault Refusal :=
  onChip (movOwned p e.val c.val 0x08 4 (movWriteResume e.val c.val))

/-- DESCRIPTOR_START (R242–R244, R264). -/
def execDescriptorStart (e : Fin 12) (c : Fin 64) (fetchBad : Bool) : State → Host.Outcome State Fault Refusal :=
  onChip (movStart e.val c.val fetchBad)

/-- DESCRIPTOR_FINISH (R257). -/
def execDescriptorFinish (e : Fin 12) (c : Fin 64) : State → Host.Outcome State Fault Refusal :=
  onChip (movFinish e.val c.val)

/-- MOVER_READ_ERROR (R264, code 0x03). -/
def execMoverReadError (e : Fin 12) (c : Fin 64) (written : Nat) : State → Host.Outcome State Fault Refusal :=
  onChip fun s => if movStops e.val c.val s then movVat e.val c.val (movAbort e.val c.val 0x03 written [] s) else s

/-- MOVER_WATCHDOG (R249, R264, code 0x08); `WDOG_LIMIT` 0 disables the watchdog. -/
def execMoverWatchdog (e : Fin 12) (c : Fin 64) (written : Nat) : State → Host.Outcome State Fault Refusal :=
  onChip fun s =>
    if rd (Reg.MOV_WDOG_LIMIT e.val) s ≠ 0 ∧ movStops e.val c.val s = true then
      movVat e.val c.val (movAbort e.val c.val 0x08 written [(0x0306, 2)] s)
    else s

end Sys2Proof.Machine
end

