-- ==== Sys2Proof/Machine/Toll.lean ====
section
/-! DEFINITION. Toll (chapter 15): buckets, queue configuration, the choice of the next frame, stall shapers, ingress metering, transmit rings. -/

namespace Sys2Proof.Machine

/-! ### Memory of a queue's owner -/

/-- Bytes of an owner's queue memory or buffer, and whether any is poisoned; a stall reads nothing outside its ranges (R735). -/
def ownRead (o a n : Nat) (c : Chip) : List Nat × Bool :=
  (ldBytes (ownerSpace o c) a n c, anyPoison (ownerSpace o c) a n c || (isStallCode o && n != 0 && !ownerReaches o a n c))

/-- A stall's read outside its memory is reported (R735). -/
def ownReach (o a n : Nat) (c : Chip) : Chip := if isStallCode o && n != 0 && !ownerReaches o a n c then stallOutOfReach c else c

/-- Bytes written to an owner's queue memory or buffer; a stall's page is logged (R747), and nothing is written outside its
ranges (R735). -/
def ownWrite (o a : Nat) (bs : List Nat) (c : Chip) : Chip :=
  if isStallCode o && !ownerReaches o a bs.length c then stallOutOfReach c
  else ownPut o a bs c

/-! ### Queues (R606–R613) -/

def tolKey (port q : Nat) : Nat := port * 64 + q
def tolGet (port q : Nat) (c : Chip) : TolQ := mapGet TolQ.off c.tolQs (tolKey port q)
def tolSet (port q : Nat) (x : TolQ) (c : Chip) : Chip := { c with tolQs := mapPut TolQ.off c.tolQs (tolKey port q) x }
def tolQueue (port q : Nat) (c : Chip) : List TxFrame := mapGet [] c.tolFrames (tolKey port q)
def tolQueueSet (port q : Nat) (fs : List TxFrame) (c : Chip) : Chip := { c with tolFrames := mapPut [] c.tolFrames (tolKey port q) fs }
def shpGet (s : Nat) (c : Chip) : Shaper := mapGet Shaper.off c.tolShp s
def shpSet (s : Nat) (x : Shaper) (c : Chip) : Chip := { c with tolShp := mapPut Shaper.off c.tolShp s x }

/-- `L` bytes in bucket units (R606). -/
def tolUnits (l : Nat) : Int := (l : Int) * 65536

/-- A bucket's gain on an edge (R607). -/
def bucketGain (rate size : Nat) (tok : Int) : Int := min (tolUnits size) (tok + (rate : Int))

/-- Every enabled bucket gains on a Milestone edge (R607, R620). -/
def tolEdge (c : Chip) : Chip :=
  { c with
    tolQs := c.tolQs.map fun (e : Nat × TolQ) =>
      if e.2.meter then (e.1, { e.2 with cTok := bucketGain e.2.cir e.2.cbs e.2.cTok, pTok := bucketGain e.2.pir e.2.pbs e.2.pTok }) else e
    tolShp := c.tolShp.map fun (e : Nat × Shaper) =>
      if e.2.en then (e.1, { e.2 with tok := bucketGain e.2.rate e.2.burst e.2.tok }) else e }

/-- The port is provided by its group's mode (R565, R566). -/
def portExists (port : Nat) (c : Chip) : Bool :=
  match rd (Reg.ETH_MODE (port / 4)) c with
  | 0 => port % 4 == 0
  | 1 => port % 2 == 0
  | 2 => true
  | _ => false

/-- The Ethernet port is up. -/
def ethUp (port : Nat) (c : Chip) : Bool :=
  working (0x20 + port / 4) c && portExists port c && rdb (Reg.ETH_PORT_EN (port / 4) (port % 4)) c &&
  rdb (Reg.ETH_LINK_UP (port / 4) (port % 4)) c

/-- The queue is paused (R618). -/
def tolPaused (port q : Nat) (c : Chip) : Bool :=
  let x := tolGet port q c
  x.bound && (mapGet 0 c.pfcOff port).testBit x.prio

/-- Length of the frame at the head of a queue. -/
def tolHead (port q : Nat) (c : Chip) : Option TxFrame := (tolQueue port q c).head?

/-- The queue is eligible (R613). -/
def tolEligible (port q : Nat) (c : Chip) : Bool :=
  let x := tolGet port q c
  match tolHead port q c with
  | none => false
  | some f => x.role == 1 && !tolPaused port q c && (!x.meter || decide (tolUnits f.len ≤ x.pTok))

/-- The queue's set is GREEN (R613). -/
def tolGreen (port q : Nat) (c : Chip) : Bool :=
  let x := tolGet port q c
  match tolHead port q c with
  | none => false
  | some f => !x.meter || decide (tolUnits f.len ≤ x.cTok)

/-! ### Rounds (R614) -/

/-- The deficit of an entry. -/
def deficitOf (id : Nat) (ds : List (Nat × Nat)) : Nat := match ds.find? fun d => d.1 == id with
  | some d => d.2
  | none => 0

def deficitSet (id v : Nat) (ds : List (Nat × Nat)) : List (Nat × Nat) :=
  if v = 0 then ds.filter fun d => d.1 != id else (id, v) :: ds.filter fun d => d.1 != id

/-- The rounds of R614 over candidates (number, quantum, length) in ascending order, the numbers running from `lo` to `hi`: the
entry chosen, and the rounds after it. Numbers without a candidate are passed over. -/
def roundsPick (lo hi : Nat) (cands : List (Nat × Nat × Nat)) : Nat → Rounds → Option Nat × Rounds
  | 0, r => (none, r)
  | fuel + 1, r =>
    match (match cands.find? fun x => decide (r.ptr ≤ x.1) with | some x => some x | none => cands.head?) with
    | none => (none, { r with fresh := true })
    | some x =>
      let fresh := r.fresh || x.1 != r.ptr
      let d := deficitOf x.1 r.deficits + if fresh then x.2.1 else 0
      if x.2.2 ≤ d then (some x.1, { ptr := x.1, fresh := false, deficits := deficitSet x.1 (d - x.2.2) r.deficits })
      else roundsPick lo hi cands fuel
        { ptr := if x.1 = hi then lo else x.1 + 1, fresh := true, deficits := deficitSet x.1 d r.deficits }

def portRounds (port s : Nat) (c : Chip) : Rounds := mapGet ⟨4, true, []⟩ c.tolRounds (port * 2 + s)

/-- The weighted group of one set (R614): deficits are the queues' own. -/
def tolPickSet (port s : Nat) (c : Chip) : Option Nat × Chip :=
  let qs := ((List.range 60).map (· + 4)).filter fun q => tolEligible port q c && tolGreen port q c == (s == 0)
  let cands := qs.map fun q => (q, (tolGet port q c).weight * rd Reg.TOL_QUANTUM c, match tolHead port q c with | some f => f.len | none => 0)
  let ds := qs.map fun q => (q, (tolGet port q c).deficit)
  let r := roundsPick 4 63 cands (60 * 256) { portRounds port s c with deficits := ds }
  let c := { c with tolRounds := mapPut ⟨4, true, []⟩ c.tolRounds (port * 2 + s) { r.2 with deficits := [] } }
  (r.1, qs.foldl (fun c q => tolSet port q { tolGet port q c with deficit := deficitOf q r.2.deficits } c) c)

/-- The choice of R614: strict queues first, then GREEN, then YELLOW. -/
def tolPick (port : Nat) (c : Chip) : Option Nat × Chip :=
  match (List.range 4).find? fun q => tolEligible port q c with
  | some q => (some q, c)
  | none =>
    let g := tolPickSet port 0 c
    match g.1 with
    | some q => (some q, g.2)
    | none => tolPickSet port 1 g.2

/-! ### Transmit rings (R626, R627) -/

def txBase (q : Nat) (c : Chip) : Nat := rd Reg.TOL_TXQ_TABLE c + 64 * q
def txF (q off hi lo : Nat) (c : Chip) : Nat := ldF spDev (txBase q c + off) hi lo c
def txPut (q off hi lo v : Nat) (c : Chip) : Chip := putF spDev (txBase q c + off) hi lo v c
def txOwner (q : Nat) (c : Chip) : Nat := txF q 8 31 16 c
def txGen (q : Nat) (c : Chip) : Nat := txF q 8 47 32 c
def txActive (q : Nat) (c : Chip) : Bool := txF q 0x20 0 0 c == 1
def txHead (q : Nat) (c : Chip) : Nat := txF q 0x24 14 0 c
def txPort (q : Nat) (c : Chip) : Nat := txF q 0x18 3 0 c

/-- The address of entry `i` of the ring. -/
def txSlot (q i : Nat) (c : Chip) : Nat := txF q 0 63 12 c * 4096 + 32 * (i % 2 ^ txF q 0 3 0 c)

/-- Toll writes a descriptor back, pulses and sends MSI-X (R592, R627); discarded when its generation is stale (R350). -/
def txBack (d : TxDesc) (status time : Nat) (c : Chip) : Chip :=
  if d.gen ≠ txGen d.ring c then c
  else
    let o := txOwner d.ring c
    let ts := d.ts && status == 0
    let a := txSlot d.ring d.ix c
    let c := ownWrite o a (leBytes 8 time ++ leBytes 8 (d.len + status * 2 ^ 16 + b2n ts * 2 ^ 26 + d.gen * 2 ^ 32) ++ List.replicate 12 0) c
    let c := ownWrite o (a + 28) (leBytes 4 d.phase) c
    let c := if status = 3 then raise 0x30 0x0E04 2 c else c
    let c := pulseIf (txF d.ring 0x10 12 12 c == 1) (txF d.ring 0x10 11 0 c) c
    match ownerHost o c with
    | some h => if txF d.ring 0x10 27 27 c = 1 then sendMsix h 1 (txF d.ring 0x10 26 16 c) c else c
    | none => c

/-- The descriptor at the head of an ACTIVE ring; none when nothing is posted. -/
def txPosted (q : Nat) (c : Chip) : Option (TxDesc × Bool) :=
  let h := txHead q c
  if !txActive q c || h == mapGet 0 c.txTail q || !ownerIssues 1 (txOwner q c) c then none
  else
    let b := ownRead (txOwner q c) (txSlot q h c) 32 c
    let v := leNat b.1
    some ({ ring := q, ix := h, gen := bits v 111 96, phase := txF q 0x24 15 15 c, ts := v.testBit 80, addr := bits v 63 0, len := bits v 77 64 }, b.2)

/-- The head of a ring passes its descriptor. -/
def txPass (q : Nat) (c : Chip) : Chip :=
  let h := (txHead q c + 1) % 2 ^ 15
  let c := if h % 2 ^ txF q 0 3 0 c = 0 then txPut q 0x24 15 15 (1 - txF q 0x24 15 15 c) c else c
  txPut q 0x24 14 0 h c

/-- Descriptors at the head of a ring that make no frame are passed: a stale `GEN` without a trace (R350), a length that the
port does not take with TOO_LONG, a port that is down with PORT_DOWN. -/
def txSkip (q : Nat) : Nat → Chip → Chip
  | 0, c => c
  | fuel + 1, c => match txPosted q c with
    | none => c
    | some (d, bad) =>
      let p := txPort q c
      if d.gen ≠ txGen q c then txSkip q fuel (ahnStale (txPass q c))
      else if bad then txSkip q fuel (txBack d 3 0 (txPass q c))
      else if rd (Reg.ETH_MAX_FRAME (p / 4) (p % 4)) c < d.len + 4 ∨ d.len < 60 then txSkip q fuel (txBack d 1 0 (txPass q c))
      else if !ethUp p c then txSkip q fuel (txBack d 2 0 (txPass q c))
      else c

/-- The frame of a descriptor. -/
def txFrame (d : TxDesc) (c : Chip) : TxFrame :=
  { port := txPort d.ring c, cls := txF d.ring 0x18 6 4 c, len := d.len + 4,
    stall := if isStallCode (txOwner d.ring c) then some (txOwner d.ring c) else none, ring := some d, what := .frame (txPort d.ring c) [] }

/-! ### Sources (R619–R621) -/

/-- The queue that a class enters: queue 63 when the map names a queue that is not TX. -/
def classQueue (port cls : Nat) (c : Chip) : Nat × Bool :=
  let q := bits (rd (Reg.TOL_CLASS_MAP port) c) (6 * cls + 5) (6 * cls)
  if (tolGet port q c).role = 1 then (q, false) else (63, true)

/-- The rings that have a frame for a port, ascending. -/
def txReady (port : Nat) (c : Chip) : List TxFrame :=
  (c.txTail.map (·.1)).filterMap fun q =>
    if txPort q c = port then (txPosted q c).map fun d => txFrame d.1 c else none

/-- The frames that wait to enter a queue: each source's first, blocks before rings. -/
def tolWaiting (port q : Nat) (c : Chip) : List TxFrame :=
  ((c.txWait.filter fun f => f.port == port) ++ txReady port c).filter fun f => (classQueue port f.cls c).1 == q

/-- The number of a source: 0 every source without a stall, else the stall plus 1. -/
def srcOf (f : TxFrame) : Nat := match f.stall with
  | some s => s + 1
  | none => 0

/-- The source may move a frame (R620). -/
def srcMay (f : TxFrame) (c : Chip) : Bool := match f.stall with
  | some s => !(shpGet s c).en || decide (0 < (shpGet s c).tok)
  | none => true

/-- A frame moves into its queue: its shaper pays, its descriptor is taken. -/
def tolMove (port q : Nat) (f : TxFrame) (c : Chip) : Chip :=
  let c := if (classQueue port f.cls c).2 then raise 0x30 0x0E03 0 c else c
  let c := match f.ring with
    | some d => txPass d.ring c
    | none => { c with txWait := c.txWait.erase f }
  let c := match f.stall with
    | some s => if (shpGet s c).en then shpSet s { shpGet s c with tok := (shpGet s c).tok - tolUnits f.len } c else c
    | none => c
  tolQueueSet port q (tolQueue port q c ++ [f]) c

/-- One frame admitted to a queue with room, by the rounds over the sources that may move one (R617, R621). `stalls` says
whether stall sources take part. -/
def tolAdmit1 (port q : Nat) (stalls : Bool) (c : Chip) : Option Chip :=
  let fs := (tolWaiting port q c).filter fun f => srcMay f c && (stalls || f.stall.isNone)
  if 256 ≤ (tolQueue port q c).length then none
  else
    let ids := (List.range 2049).filter fun i => fs.any fun f => srcOf f == i
    let cand := fun i => match fs.find? fun f => srcOf f == i with
      | some f => (i, (if i = 0 then rd Reg.TOL_NONSTALL_WEIGHT c else (shpGet (i - 1) c).weight) * rd Reg.TOL_QUANTUM c, f.len)
      | none => (i, 0, 0)
    let r := roundsPick 0 2048 (ids.map cand) (2049 * 256) (mapGet ⟨0, true, []⟩ c.tolAdmit (tolKey port q))
    match r.1 with
    | none => none
    | some i => match fs.find? fun f => srcOf f == i with
      | none => none
      | some f => some (tolMove port q f { c with tolAdmit := mapPut ⟨0, true, []⟩ c.tolAdmit (tolKey port q) r.2 })

/-- Frames of sources without a stall enter a queue as long as it has room. -/
def tolFill (port q : Nat) : Nat → Chip → Chip
  | 0, c => c
  | fuel + 1, c => match tolAdmit1 port q false c with
    | some c => tolFill port q fuel c
    | none => c

/-- Heads of the rings of a port made ready. -/
def txSkips (port : Nat) (c : Chip) : Chip :=
  (c.txTail.map (·.1)).foldl (fun c q => if txPort q c = port then txSkip q 32768 c else c) c

/-- SHAPER_ADMIT (R620, R621): one frame moves into the queue. -/
def shaperAdmit (port q : Nat) (c : Chip) : Chip :=
  if !working 0x30 c then c
  else
    let c := txSkips port c
    match tolAdmit1 port q true c with
    | some c => c
    | none => c

def execShaperAdmit (port : Fin 16) (q : Fin 64) : State → Host.Outcome State Fault Refusal := onChip (shaperAdmit port.val q.val)

/-! ### Transmission -/

/-- FRAME_TRANSMIT_START (R614–R616): sources without a stall fill the queues; the frame chosen leaves its queue, its buckets
pay, and it starts. A frame of another block leaves the device; a ring's frame is on the wire until its write-back. -/
def transmitStart (port : Nat) (c : Chip) : Chip :=
  if !working 0x30 c || !ethUp port c || (mapGet none c.tolWire port).isSome then c
  else
    let c := txSkips port c
    let c := (List.range 64).foldl (fun c q => tolFill port q 256 c) c
    match tolPick port c with
    | (none, c) => c
    | (some q, c) => match tolQueue port q c with
      | [] => c
      | f :: t =>
        let x := tolGet port q c
        let g := tolGreen port q c
        let x := { x with
          pTok := if x.meter then x.pTok - tolUnits f.len else x.pTok
          cTok := if x.meter && g then x.cTok - tolUnits f.len else x.cTok
          green := if g then (x.green + 1) % 2 ^ 64 else x.green
          yellow := if g then x.yellow else (x.yellow + 1) % 2 ^ 64
          deficit := if t.isEmpty then 0 else x.deficit }
        let c := tolQueueSet port q t (tolSet port q x c)
        match f.ring with
        | some _ => { c with tolWire := mapPut none c.tolWire port (some (f, now c)) }
        | none => emit f.what c

def execFrameTransmitStart (port : Fin 16) : State → Host.Outcome State Fault Refusal := onChip (transmitStart port.val)

/-- TX_WRITEBACK (R627): the ring frame on the wire has left with its FCS, or its data was read poisoned and it is not sent. -/
def txWriteback (port : Nat) (poisoned : Bool) (c : Chip) : Chip :=
  match mapGet none c.tolWire port with
  | none => c
  | some (f, t) =>
    let c := { c with tolWire := mapPut none c.tolWire port none }
    match f.ring with
    | none => c
    | some d =>
      let b := ownRead (txOwner d.ring c) d.addr d.len c
      if poisoned || b.2 then txBack d 3 0 (ownReach (txOwner d.ring c) d.addr d.len c)
      else txBack d 0 t (emit (.frame port (b.1 ++ leBytes 4 (crc32 b.1))) c)

def execTxWriteback (port : Fin 16) (poisoned : Bool) : State → Host.Outcome State Fault Refusal := onChip (txWriteback port.val poisoned)

/-- A port goes down: the ring frames queued for it are not sent (PORT_DOWN). -/
def tolPortDown (port : Nat) (c : Chip) : Chip :=
  let c := match mapGet none c.tolWire port with
    | some (f, _) => (match f.ring with | some d => txBack d 2 0 c | none => c)
    | none => c
  let c := { c with tolWire := mapPut none c.tolWire port none }
  (List.range 64).foldl (fun c q =>
    let fs := tolQueue port q c
    if fs.isEmpty then c
    else
      let c := fs.foldl (fun c f => match f.ring with | some d => txBack d 2 0 c | none => c) c
      tolQueueSet port q (fs.filter fun f => f.ring.isNone) c) c

/-! ### Metering (R622–R624) -/

/-- The meter of queue `q` of a received frame of length `l` with pre-colour `pre` (0 green, 1 yellow, 2 red): whether the
frame is placed. -/
def tolMeter (port q l pre : Nat) (c : Chip) : Bool × Chip :=
  let x := tolGet port q c
  if x.role ≠ 2 then (true, raise 0x30 0x0E02 0 c)
  else if !x.meter then (true, c)
  else
    let pre := if x.aware then pre else 0
    let n := tolUnits l
    if pre = 2 ∨ x.pTok < n then
      let c := tolSet port q { x with red := (x.red + 1) % 2 ^ 64 } c
      if x.redDrop then (false, raise 0x30 0x0E01 0 c) else (true, c)
    else if pre = 1 ∨ x.cTok < n then (true, tolSet port q { x with pTok := x.pTok - n, yellow := (x.yellow + 1) % 2 ^ 64 } c)
    else (true, tolSet port q { x with pTok := x.pTok - n, cTok := x.cTok - n, green := (x.green + 1) % 2 ^ 64 } c)

/-! ### Configuration (R610, R611, R621, R628) -/

/-- The party may write the TOL page (R628). -/
def tolMay (p : Party) (c : Chip) : Bool := isHost p || isControl p c

/-- A command register of the TOL page. -/
def tolCommand (p : Party) (off value : Nat) (f : Nat → Chip → Chip) : Chip → Chip :=
  regAccess p 0x30 off value fun c => match bankOf p c with
    | some b => if tolMay p c then f b c else refuse 0x30 0x03 off c
    | none => refuse 0x30 0x03 off c

/-- Q_LOAD. -/
def execQLoad (p : Party) : State → Host.Outcome State Fault Refusal :=
  onChip (tolCommand p 0x104 (2 ^ 31) fun b c =>
    let x := tolGet (rdB b Reg.TOL_Q_PORT c) (rdB b Reg.TOL_Q_INDEX c) c
    let c := wrB b Reg.TOL_PBS x.pbs (wrB b Reg.TOL_CBS x.cbs (wrB b Reg.TOL_PIR x.pir (wrB b Reg.TOL_CIR x.cir c)))
    let c := wrB b Reg.TOL_RESET_MODE (b2n x.zero) (wrB b Reg.TOL_ROLE x.role (wrB b Reg.TOL_WEIGHT x.weight c))
    let c := wrB b Reg.TOL_RED_DROP (b2n x.redDrop) (wrB b Reg.TOL_COLOUR_AWARE (b2n x.aware) (wrB b Reg.TOL_METER_EN (b2n x.meter) c))
    wr Reg.TOL_Q_RESULT 0 (wrB b Reg.TOL_PFC_BOUND (b2n x.bound) (wrB b Reg.TOL_PFC_PRIO x.prio c)))

/-- The staged configuration of bank `b`. -/
def tolStaged (b : Nat) (old : TolQ) (c : Chip) : TolQ :=
  { old with
    cir := rdB b Reg.TOL_CIR c, pir := rdB b Reg.TOL_PIR c, cbs := rdB b Reg.TOL_CBS c, pbs := rdB b Reg.TOL_PBS c
    weight := rdB b Reg.TOL_WEIGHT c, role := rdB b Reg.TOL_ROLE c, zero := rdB b Reg.TOL_RESET_MODE c == 1
    meter := rdB b Reg.TOL_METER_EN c == 1, aware := rdB b Reg.TOL_COLOUR_AWARE c == 1, redDrop := rdB b Reg.TOL_RED_DROP c == 1
    prio := rdB b Reg.TOL_PFC_PRIO c, bound := rdB b Reg.TOL_PFC_BOUND c == 1 }

/-- The check of COMMIT (R610). -/
def tolCommitOk (port q : Nat) (x : TolQ) (c : Chip) : Bool :=
  !(x.meter && decide (x.pir < x.cir)) &&
  !(x.role == 1 && x.meter && decide (x.pbs < rd (Reg.ETH_MAX_FRAME (port / 4) (port % 4)) c)) &&
  !(x.weight == 0 && x.role == 1 && decide (4 ≤ q)) && !(x.weight != 0 && decide (q < 4)) && x.role != 3

/-- Q_COMMIT (R610, R611). -/
def execQCommit (p : Party) : State → Host.Outcome State Fault Refusal :=
  onChip (tolCommand p 0x104 (2 ^ 31 + 1) fun b c =>
    let port := rdB b Reg.TOL_Q_PORT c
    let q := rdB b Reg.TOL_Q_INDEX c
    let x := tolStaged b (tolGet port q c) c
    if tolCommitOk port q x c then
      wr Reg.TOL_Q_RESULT 0 (tolSet port q
        { x with cTok := if x.zero then 0 else tolUnits x.cbs, pTok := if x.zero then 0 else tolUnits x.pbs, deficit := 0 } c)
    else wr Reg.TOL_Q_RESULT 1 c)

/-- SHP_LOAD. -/
def execShpLoad (p : Party) : State → Host.Outcome State Fault Refusal :=
  onChip (tolCommand p 0x184 (2 ^ 31) fun b c =>
    let x := shpGet (rdB b Reg.TOL_SHP_SEL c) c
    let c := wrB b Reg.TOL_SHP_WEIGHT x.weight (wrB b Reg.TOL_SHP_BURST x.burst (wrB b Reg.TOL_SHP_RATE x.rate c))
    wr Reg.TOL_SHP_RESULT 0 (wrB b Reg.TOL_SHP_RESET_MODE (b2n x.zero) (wrB b Reg.TOL_SHP_EN (b2n x.en) c)))

/-- A shaper configured, its bucket full or 0 (R611, R621). -/
def shpCommit (s rate burst weight : Nat) (en zero : Bool) (c : Chip) : Chip :=
  shpSet s { rate := rate, burst := burst, weight := weight, en := en, zero := zero, tok := if zero then 0 else tolUnits burst } c

/-- SHP_COMMIT. -/
def execShpCommit (p : Party) : State → Host.Outcome State Fault Refusal :=
  onChip (tolCommand p 0x184 (2 ^ 31 + 1) fun b c =>
    let en := rdB b Reg.TOL_SHP_EN c == 1
    if en && decide (rdB b Reg.TOL_SHP_BURST c < 9600) then wr Reg.TOL_SHP_RESULT 1 c
    else wr Reg.TOL_SHP_RESULT 0 (shpCommit (rdB b Reg.TOL_SHP_SEL c) (rdB b Reg.TOL_SHP_RATE c) (rdB b Reg.TOL_SHP_BURST c)
      (rdB b Reg.TOL_SHP_WEIGHT c) en (rdB b Reg.TOL_SHP_RESET_MODE c == 1) c))

/-! ### Ring commands (R626) -/

/-- TX_TAIL: the owner of an ACTIVE ring, else DOORBELL_DROP (R343). -/
def txTail (p : Party) (q tail : Nat) (c : Chip) : Chip :=
  if ownerCode p c = txOwner q c ∧ txActive q c = true then
    wakeFor 0x30 { c with txTail := mapPut 0 c.txTail q (tail % 2 ^ 15) }
  else raise 0x40 0x040D 0 c

def execTxTail (p : Party) (q : Fin 8192) (tail : Nat) : State → Host.Outcome State Fault Refusal := onChip (txTail p q.val tail)

/-- A ring enters RESET: its frames that wait are gone. -/
def txReset (q : Nat) (c : Chip) : Chip :=
  let keep := fun (f : TxFrame) => match f.ring with
    | some d => d.ring != q
    | none => true
  let c := { c with
    txTail := mapPut 0 c.txTail q 0
    tolFrames := (c.tolFrames.map fun (e : Nat × List TxFrame) => (e.1, e.2.filter keep)).filter fun (e : Nat × List TxFrame) => !e.2.isEmpty
    tolWire := c.tolWire.filter fun (e : Nat × Option (TxFrame × Nat)) => match e.2 with | some f => keep f.1 | none => false }
  unbindProducer 0x30 q (txPut q 0x24 15 0 (2 ^ 15) (txPut q 0x20 0 0 0 c))

/-- Every ring of an owner to RESET. -/
def txResetOwner (o : Nat) (c : Chip) : Chip :=
  (List.range 8192).foldl (fun c q => if txActive q c && txOwner q c == o then txReset q c else c) c

/-- The check of a context (R367, R626). -/
def txContextOk (q : Nat) (c : Chip) : Bool :=
  let o := txOwner q c
  let l := txF q 0 3 0 c
  decide (4 ≤ l) && txF q 0 11 4 c == 0 && ownerReaches o (txF q 0 63 12 c * 4096) (32 * 2 ^ l) c && ownerValid o &&
  txF q 8 15 0 c == 0 && txF q 8 63 48 c == 0 && txF q 0x10 15 13 c == 0 && txF q 0x10 63 28 c == 0 && txF q 0x18 63 7 c == 0 &&
  !(txF q 0x10 12 12 c == 1 && lineTaken (txF q 0x10 11 0 c) c)

/-- A write of the ring command register: code 0x01 for another party. -/
def txCommand (p : Party) (q cmd : Nat) (f : Chip → Chip) : Chip → Chip :=
  regAccess p 0x30 0x298 (q + cmd * 2 ^ 13 + 2 ^ 31) fun c =>
    if !tolMay p c then refuse 0x30 0x03 0x298 c
    else if ownerCode p c = txOwner q c ∨ (isControl p c = true ∧ isStallCode (txOwner q c) = true) then f c
    else wr Reg.TOL_TXQ_RESULT 1 c

/-- TXQ_RESET. -/
def execTxqReset (p : Party) (q : Fin 8192) : State → Host.Outcome State Fault Refusal :=
  onChip (txCommand p q.val 0 fun c => wr Reg.TOL_TXQ_RESULT 0 (txReset q.val c))

/-- ACTIVE from RESET, after the check. -/
def txActivate (q : Nat) (c : Chip) : Chip :=
  if txActive q c || !txContextOk q c then wr Reg.TOL_TXQ_RESULT 2 c
  else
    let c := if txF q 0x10 12 12 c = 1 then bindProducer (txF q 0x10 11 0 c) 0x30 q c else c
    wr Reg.TOL_TXQ_RESULT 0 (txPut q 0x24 15 0 (2 ^ 15) (txPut q 0x20 0 0 1 { c with txTail := mapPut 0 c.txTail q 0 }))

/-- TXQ_ACTIVE. -/
def execTxqActive (p : Party) (q : Fin 8192) : State → Host.Outcome State Fault Refusal := onChip (txCommand p q.val 1 (txActivate q.val))

/-- TOL enters OFF: no frame waits any more; its configuration stands. -/
def tolOff (c : Chip) : Chip := { c with txWait := [], tolFrames := [], tolWire := [] }

end Sys2Proof.Machine
end

