-- ==== Sys2Proof/Machine/Separator.lean ====
section
/-! DEFINITION. The Ethernet ports and the Separator (chapter 14): the MAC's checks, the parser and its key, rules and actions, load spreading, receive queues, rule banks. -/

namespace Sys2Proof.Machine

/-! ### The parser (R572–R575) -/

/-- Byte `i` of the first 64 bytes; `none` beyond them (R572). -/
def hdrByte (h : List Nat) (i : Nat) : Option Nat := if i < 64 then h[i]? else none

/-- A wire field of `n` bytes at `i`, its first byte most significant; absent when part of it lies beyond byte 63. -/
def wireField (h : List Nat) (i n : Nat) : Option Nat :=
  if i + n ≤ min 64 h.length then some (((h.drop i).take n).foldl (fun a b => a * 256 + b) 0) else none

/-- A field with 0 for an absent one, and whether it is absent. -/
def fieldOr (x : Option Nat) : Nat × Bool := (x.getD 0, x.isNone)

/-- What the parser finds behind the tags: flags, and the fields from `IP_PROTO` up. -/
structure Parsed where
  flags : Nat
  proto : Nat
  dscp : Nat
  ecn : Nat
  sip : Nat
  dip : Nat
  sport : Nat
  dport : Nat
  flow : Nat
deriving DecidableEq, Repr

/-- Nothing of IP. -/
def Parsed.none : Parsed := ⟨0, 0, 0, 0, 0, 0, 0, 0, 0⟩

/-- An IPv4 address as an IPv4-mapped one. -/
def mapped (a : Nat) : Nat := 0xFFFF * 2 ^ 32 + a

/-- The bits of `FLAGS` (R575). -/
def flVlan0 : Nat := 2 ^ 0
def flVlan1 : Nat := 2 ^ 1
def flIpv4 : Nat := 2 ^ 2
def flIpv6 : Nat := 2 ^ 3
def flIpOpt : Nat := 2 ^ 4
def flFrag : Nat := 2 ^ 5
def flFragFirst : Nat := 2 ^ 6
def flL4 : Nat := 2 ^ 7
def flTcp : Nat := 2 ^ 8
def flUdp : Nat := 2 ^ 9
def flBcast : Nat := 2 ^ 10
def flMcast : Nat := 2 ^ 11
def flShort : Nat := 2 ^ 12
def flIpBad : Nat := 2 ^ 13

/-- The ports at offset `i` of a packet of protocol `proto` that is no fragment (R573, R574). -/
def parsePorts (h : List Nat) (i proto : Nat) (frag : Bool) (x : Parsed) : Parsed :=
  let x := { x with flags := x.flags + (if proto = 6 then flTcp else if proto = 17 then flUdp else 0) }
  if frag || !(proto == 6 || proto == 17) then x
  else
    let s := fieldOr (wireField h i 2)
    let d := fieldOr (wireField h (i + 2) 2)
    if s.2 || d.2 then { x with flags := Nat.lor x.flags flShort, sport := s.1, dport := d.1 }
    else { x with flags := x.flags + flL4, sport := s.1, dport := d.1 }

/-- The one's complement sum of the header's 16-bit words. -/
def ipSum (h : List Nat) (i n : Nat) : Nat :=
  let s := (List.range (n / 2)).foldl (fun a k => a + ((h.drop (i + 2 * k)).take 2).foldl (fun a b => a * 256 + b) 0) 0
  let s := s % 65536 + s / 65536
  s % 65536 + s / 65536

/-- An IPv4 header at `i`. A checksum whose header does not lie whole in the first 64 bytes is not judged (log entry 35). -/
def parseV4 (h : List Nat) (i : Nat) : Parsed :=
  let v := fieldOr (wireField h i 1)
  let ihl := v.1 % 16
  let tos := fieldOr (wireField h (i + 1) 1)
  let fr := fieldOr (wireField h (i + 6) 2)
  let proto := fieldOr (wireField h (i + 9) 1)
  let s := fieldOr (wireField h (i + 12) 4)
  let d := fieldOr (wireField h (i + 16) 4)
  let frag := fr.1 / 2 ^ 13 % 2 == 1 || fr.1 % 2 ^ 13 != 0
  let bad := v.1 / 16 != 4 || decide (ihl < 5) || (decide (i + 4 * ihl ≤ min 64 h.length) && ipSum h i (4 * ihl) != 0xFFFF)
  let short := v.2 || tos.2 || fr.2 || proto.2 || s.2 || d.2
  let fl := flIpv4 + (if 5 < ihl then flIpOpt else 0) + (if frag then flFrag else 0) + (if frag && fr.1 % 2 ^ 13 == 0 then flFragFirst else 0) +
    (if short then flShort else 0) + (if bad then flIpBad else 0)
  parsePorts h (i + 4 * ihl) proto.1 frag
    { Parsed.none with flags := fl, proto := proto.1, dscp := tos.1 / 4, ecn := tos.1 % 4,
                       sip := if s.2 then 0 else mapped s.1, dip := if d.2 then 0 else mapped d.1 }

/-- The next headers that are IPv6 extension headers the parser does not walk. -/
def isExtHeader (n : Nat) : Bool := n == 0 || n == 43 || n == 50 || n == 51 || n == 60 || n == 135 || n == 139 || n == 140

/-- An IPv6 header at `i`. -/
def parseV6 (h : List Nat) (i : Nat) : Parsed :=
  let w := fieldOr (wireField h i 4)
  let nh := fieldOr (wireField h (i + 6) 1)
  let s := fieldOr (wireField h (i + 8) 16)
  let d := fieldOr (wireField h (i + 24) 16)
  let frag := nh.1 == 44
  let f := fieldOr (wireField h (i + 42) 2)
  let fnh := fieldOr (wireField h (i + 40) 1)
  let proto := if frag then fnh.1 else nh.1
  let short := w.2 || nh.2 || s.2 || d.2 || (frag && (f.2 || fnh.2))
  let opt := isExtHeader proto
  let fl := flIpv6 + (if opt then flIpOpt else 0) + (if frag then flFrag else 0) + (if frag && f.1 / 8 == 0 then flFragFirst else 0) +
    (if short then flShort else 0) + (if w.1 / 2 ^ 28 != 6 then flIpBad else 0)
  parsePorts h (i + if frag then 48 else 40) proto frag
    { Parsed.none with flags := fl, proto := proto, dscp := w.1 / 2 ^ 22 % 64, ecn := w.1 / 2 ^ 20 % 4,
                       sip := s.1, dip := d.1, flow := w.1 % 2 ^ 20 }

/-- A VLAN tag stands at `i` (R573). -/
def isTag (h : List Nat) (i : Nat) : Bool := wireField h i 2 == some 0x8100 || wireField h i 2 == some 0x88A8

/-- The tags of a frame: how many, and their TCIs. -/
def parseTags (h : List Nat) : Nat × Nat × Nat × Bool :=
  let t0 := fieldOr (wireField h 14 2)
  let t1 := fieldOr (wireField h 18 2)
  if isTag h 12 then (if isTag h 16 then (2, t0.1, t1.1, t0.2 || t1.2) else (1, t0.1, 0, t0.2)) else (0, 0, 0, false)

/-- The key of a frame without `PASS` and `META` (R575). -/
def sepKey (port : Nat) (h : List Nat) : Nat :=
  let d := (wireField h 0 6).getD 0
  let s := (wireField h 6 6).getD 0
  let t := parseTags h
  let i := 12 + 4 * t.1
  let et := fieldOr (wireField h i 2)
  let x := if et.1 = 0x0800 then parseV4 h (i + 2) else if et.1 = 0x86DD then parseV6 h (i + 2) else Parsed.none
  let fl := Nat.lor x.flags ((if 1 ≤ t.1 then flVlan0 else 0) + (if t.1 = 2 then flVlan1 else 0) +
    (if d = 2 ^ 48 - 1 then flBcast else if d / 2 ^ 40 % 2 = 1 then flMcast else 0) + (if t.2.2.2 || et.2 then flShort else 0))
  port % 16 + fl * 2 ^ 24 + d * 2 ^ 40 + s * 2 ^ 88 + t.2.1 * 2 ^ 136 + t.2.2.1 * 2 ^ 152 + et.1 * 2 ^ 168 + x.proto * 2 ^ 184 +
  x.dscp * 2 ^ 192 + x.ecn * 2 ^ 198 + x.sip * 2 ^ 200 + x.dip * 2 ^ 328 + x.sport * 2 ^ 456 + x.dport * 2 ^ 472 + x.flow * 2 ^ 488

/-- The key of a pass. -/
def passKey (f : SepFrame) : Nat := sepKey f.port f.head + f.pass % 4 * 2 ^ 4 + f.info % 2 ^ 16 * 2 ^ 8

/-! ### Rules (R576–R581, R597) -/

/-- The bank that a rule index is looked up in: the privileged range in `bank`, the stall range in its own. -/
def ruleBank (bank r : Nat) (c : Chip) : Nat := if r < rd Reg.SEP_STALL_BASE c then bank else 2

def ruleGet (bank r : Nat) (c : Chip) : SepRule := mapGet SepRule.none c.sepRules (ruleBank bank r c * 8192 + r)
def ruleSet (bank r : Nat) (x : SepRule) (c : Chip) : Chip :=
  { c with sepRules := mapPut SepRule.none c.sepRules (ruleBank bank r c * 8192 + r) x }

/-- The rule matches a key (R576, R602). -/
def ruleMatch (k : Nat) (x : SepRule) : Bool := x.valid && !x.bad && Nat.land k x.mask == x.value

/-- The rule that decides (R576): the matching one of the lowest index. -/
def sepLookup (bank k : Nat) (c : Chip) : Option Nat :=
  (c.sepRules.filterMap fun (e : Nat × SepRule) =>
    let r := e.1 % 8192
    if e.1 / 8192 = ruleBank bank r c ∧ ruleMatch k e.2 = true then some r else none).foldl
    (fun (m : Option Nat) r => match m with | some x => some (min x r) | none => some r) none

/-- A field of an action (R578). -/
def actF (x : SepRule) (hi lo : Nat) : Nat := bits x.action hi lo

/-- Bits 32 wide of the hash key from bit `i`, most significant first (R586). -/
def hashWindow (key : List Nat) (i : Nat) : Nat :=
  (List.range 32).foldl (fun w j => w * 2 + (key.getD ((i + j) / 8) 0 / 2 ^ (7 - (i + j) % 8)) % 2) 0

/-- The Toeplitz function (R586). -/
def toeplitz (key inp : List Nat) : Nat :=
  (List.range 288).foldl (fun h i => if (inp.getD (i / 8) 0 / 2 ^ (7 - i % 8)) % 2 = 1 then Nat.xor h (hashWindow key i) else h) 0

/-- The bytes of a number, most significant first. -/
def wireBytes (n v : Nat) : List Nat := (leBytes n v).reverse

/-- The hash of a frame under an action (R586, R587). -/
def sepHash (k : Nat) (x : SepRule) (c : Chip) : Nat :=
  let l4 := actF x 4 4 == 1 && (bits k 39 24).testBit 7
  let sym := actF x 3 3 == 1
  let s := bits k 327 200
  let d := bits k 455 328
  let sp := if l4 then bits k 471 456 else 0
  let dp := if l4 then bits k 487 472 else 0
  let a := if sym && decide (d < s) then (d, s) else (s, d)
  let p := if sym && decide (dp < sp) then (dp, sp) else (sp, dp)
  toeplitz ((List.range 40).map fun n => rd (Reg.SEP_HASH_KEY n) c) (wireBytes 16 a.1 ++ wireBytes 16 a.2 ++ wireBytes 2 p.1 ++ wireBytes 2 p.2)

/-- The first entry of an indirection table entry's key. -/
def tabKey (t j : Nat) : Nat := t * 512 + j

/-! ### Receive queues (R589–R596) -/

def rxBase (q : Nat) (c : Chip) : Nat := rd Reg.SEP_RXQ_TABLE c + 64 * q
def rxF (q off hi lo : Nat) (c : Chip) : Nat := ldF spDev (rxBase q c + off) hi lo c
def rxPut (q off hi lo v : Nat) (c : Chip) : Chip := putF spDev (rxBase q c + off) hi lo v c
def rxOwner (q : Nat) (c : Chip) : Nat := rxF q 8 31 16 c
def rxGen (q : Nat) (c : Chip) : Nat := rxF q 8 47 32 c
def rxActive (q : Nat) (c : Chip) : Bool := rxF q 0x20 0 0 c == 1
def rxHead (q : Nat) (c : Chip) : Nat := rxF q 0x24 14 0 c
def getRx (q : Nat) (c : Chip) : RxQ := mapGet RxQ.idle c.rxQs q
def setRx (q : Nat) (x : RxQ) (c : Chip) : Chip := { c with rxQs := mapPut RxQ.idle c.rxQs q x }

/-- The address of descriptor `i`. -/
def rxSlot (q i : Nat) (c : Chip) : Nat := rxF q 0 63 12 c * 4096 + 32 * (i % 2 ^ rxF q 0 3 0 c)

/-- The head passes its descriptor. -/
def rxPass (q : Nat) (c : Chip) : Chip :=
  let h := (rxHead q c + 1) % 2 ^ 15
  let c := if h % 2 ^ rxF q 0 3 0 c = 0 then rxPut q 0x24 15 15 (1 - rxF q 0x24 15 15 c) c else c
  rxPut q 0x24 14 0 h c

/-- The next descriptor taken (R591): buffer address, index, `GEN`, `PHASE`. One with a stale `GEN` is consumed on the way. -/
def rxTake (q : Nat) : Nat → Chip → Option (Nat × Nat × Nat × Nat) × Chip
  | 0, c => (none, c)
  | fuel + 1, c =>
    let h := rxHead q c
    if h = (getRx q c).tail then (none, c)
    else
      let b := ownRead (rxOwner q c) (rxSlot q h c) 32 c
      let v := leNat b.1
      let ph := rxF q 0x24 15 15 c
      if bits v 111 96 ≠ rxGen q c then rxTake q fuel (ahnStale (rxPass q c))
      else (some (bits v 63 0, h, bits v 111 96, ph), rxPass q c)

/-- Bytes 0x00–0x1B of a write-back (R592). -/
def rxBody (f : SepFrame) (len status gen : Nat) (sop eop : Bool) : List Nat :=
  leBytes 8 (if sop then f.time else 0) ++
  leBytes 8 (len + status * 2 ^ 16 + b2n sop * 2 ^ 24 + b2n eop * 2 ^ 25 + b2n sop * 2 ^ 26 + gen * 2 ^ 32) ++
  leBytes 4 f.hash ++
  leBytes 4 ((match f.rule with | some r => r + 2 ^ 15 | none => 0) + f.info % 2 ^ 16 * 2 ^ 16) ++
  leBytes 4 (if eop && status == 0 then f.bytes.length else 0)

/-- The write-backs of a frame that ends, delivered or discarded (R592, R594). -/
def rxBacks (x : RxPlace) (discard : Bool) : List RxBack :=
  let n := x.used.length
  ((List.range n).zip x.used).map fun e =>
    let sop := e.1 == 0
    let eop := e.1 + 1 == n
    { ix := e.2.1, gen := e.2.2.1, phase := e.2.2.2.1, last := eop && !discard,
      body := rxBody x.frame (if discard then 0 else e.2.2.2.2) (if discard then 1 else 0) e.2.2.1 sop eop }

/-- The frame at the head of a queue is placed as far as descriptors are posted (R591, R593, R595); the next one follows it. -/
def rxRun (q : Nat) : Nat → Chip → Chip
  | 0, c => c
  | fuel + 1, c =>
    let x := getRx q c
    match x.frames with
    | [] => c
    | p :: t =>
      if p.rest.isEmpty then
        rxRun q fuel (setRx q { x with frames := t, backs := x.backs ++ rxBacks p p.frame.error } c)
      else
        match rxTake q 32768 c with
        | (none, c) =>
          if p.used.isEmpty then rxRun q fuel (bump (Reg.SEP_CTR 3) 1 (setRx q { getRx q c with frames := t } c)) else c
        | (some (addr, ix, gen, ph), c) =>
          let n := min p.rest.length (2 ^ rxF q 8 3 0 c)
          let c := ownWrite (rxOwner q c) addr (p.rest.take n) c
          rxRun q fuel (setRx q { getRx q c with frames := { p with rest := p.rest.drop n, used := p.used ++ [(ix, gen, ph, n)] } :: t } c)

/-- A queue's frames placed as far as possible. -/
def rxGo (q : Nat) (c : Chip) : Chip :=
  rxRun q (((getRx q c).frames.map fun p => p.rest.length / 256 + 4).sum + 1) c

/-- A frame enters a queue (R582); a queue that is not ACTIVE, or outside the stall that named it, drops it. `slow` is the
slow path (R579). -/
def rxEnter (q : Nat) (slow : Bool) (need : Option Nat) (f : SepFrame) (c : Chip) : Chip :=
  let stray := match need with
    | some s => rxOwner q c != s
    | none => false
  if !rxActive q c || stray then
    if slow then raise 0x28 0x0C02 0 (bump (Reg.SEP_CTR 6) 1 c) else raise 0x28 0x0C04 0 (bump (Reg.SEP_CTR 5) 1 c)
  else
    let x := getRx q c
    if slow && x.frames.isEmpty && (rxTake q 32768 c).1.isNone then raise 0x28 0x0C02 0 (bump (Reg.SEP_CTR 6) 1 c)
    else rxGo q (setRx q { x with frames := x.frames ++ [⟨f, f.bytes, []⟩] } (wakeFor 0x5A c))

/-- RX_RING_EMPTY_DISCARD (R594): the frame in placement that finds its ring empty is discarded whole. -/
def rxDiscard (q : Nat) (c : Chip) : Chip :=
  let x := getRx q c
  match x.frames with
  | [] => c
  | p :: t =>
    let c := setRx q { x with frames := t, backs := x.backs ++ rxBacks p true } c
    let c := if p.frame.error then c else raise 0x28 0x0C03 0 (bump (Reg.SEP_CTR 4) 1 c)
    rxGo q c

def rxRingEmpty (id : Nat) (c : Chip) : Chip :=
  match c.rxQs.find? fun (e : Nat × RxQ) => match e.2.frames with | p :: _ => p.frame.id == id | [] => false with
  | some e => rxDiscard e.1 c
  | none => c

def execRxRingEmptyDiscard (id : Nat) : State → Host.Outcome State Fault Refusal := onChip (rxRingEmpty id)

/-- RX_WRITEBACK (R592): the oldest write-back of a queue is written, `PHASE` last; the last one of a delivered frame pulses
and sends the message. A stale one is discarded unwritten. -/
def rxWriteback (q : Nat) (c : Chip) : Chip :=
  let x := getRx q c
  match x.backs with
  | [] => c
  | b :: t =>
    let c := setRx q { x with backs := t } c
    if b.gen ≠ rxGen q c then c
    else
      let o := rxOwner q c
      let a := rxSlot q b.ix c
      let c := ownWrite o (a + 28) (leBytes 4 b.phase) (ownWrite o a b.body c)
      if b.last then
        let c := pulseIf (rxF q 0x10 12 12 c == 1) (rxF q 0x10 11 0 c) c
        match ownerHost o c with
        | some h => if rxF q 0x10 27 27 c = 1 then sendMsix h 1 (rxF q 0x10 26 16 c) c else c
        | none => c
      else c

def execRxWriteback (q : Fin 8192) : State → Host.Outcome State Fault Refusal := onChip (rxWriteback q.val)

/-- RX_TAIL (R590): the owner of an ACTIVE queue, else DOORBELL_DROP (R343). -/
def rxTail (p : Party) (q tail : Nat) (c : Chip) : Chip :=
  if ownerCode p c = rxOwner q c ∧ rxActive q c = true then
    rxGo q (setRx q { getRx q c with tail := tail % 2 ^ 15 } (wakeFor 0x28 c))
  else raise 0x40 0x040D 0 c

def execRxTail (p : Party) (q : Fin 8192) (tail : Nat) : State → Host.Outcome State Fault Refusal := onChip (rxTail p q.val tail)

/-- The frame in placement ends under R594, and those behind it find no queue. -/
def rxStop (q : Nat) (c : Chip) : Chip :=
  let x := getRx q c
  match x.frames with
  | p :: t =>
    let c := setRx q { x with frames := [], backs := x.backs ++ if p.used.isEmpty then [] else rxBacks p true } c
    let c := if p.used.isEmpty then c else raise 0x28 0x0C03 0 (bump (Reg.SEP_CTR 4) 1 c)
    if t.isEmpty then c else raise 0x28 0x0C04 0 (bump (Reg.SEP_CTR 5) t.length c)
  | [] => c

/-- A queue in RESET; write-backs not written are discarded. -/
def rxIdle (q : Nat) (c : Chip) : Chip :=
  unbindProducer 0x28 q (rxPut q 0x24 15 0 (2 ^ 15) (rxPut q 0x20 0 0 0 (setRx q RxQ.idle c)))

/-- A queue enters RESET: placement ends, and what is left to write is written. -/
def rxReset (q : Nat) (c : Chip) : Chip :=
  let c := rxStop q c
  rxIdle q ((List.range (getRx q c).backs.length).foldl (fun c _ => rxWriteback q c) c)

/-- Every queue of an owner to RESET. -/
def rxResetOwner (o : Nat) (c : Chip) : Chip :=
  (List.range 8192).foldl (fun c q => if rxActive q c && rxOwner q c == o then rxReset q c else c) c

/-- The check of a context (R367, R589). -/
def rxContextOk (q : Nat) (c : Chip) : Bool :=
  let o := rxOwner q c
  let l := rxF q 0 3 0 c
  decide (4 ≤ l) && rxF q 0 11 4 c == 0 && ownerReaches o (rxF q 0 63 12 c * 4096) (32 * 2 ^ l) c && ownerValid o &&
  decide (8 ≤ rxF q 8 3 0 c) && decide (rxF q 8 3 0 c ≤ 14) && rxF q 8 15 4 c == 0 && rxF q 8 63 48 c == 0 &&
  rxF q 0x10 15 13 c == 0 && rxF q 0x10 63 28 c == 0 && ld spDev (rxBase q c + 0x18) 8 c == 0 &&
  !(rxF q 0x10 12 12 c == 1 && lineTaken (rxF q 0x10 11 0 c) c)

/-- A write of the queue command register: code 0x01 for another party. -/
def rxCommand (p : Party) (q cmd : Nat) (f : Chip → Chip) : Chip → Chip :=
  regAccess p 0x28 0x160 (q + cmd * 2 ^ 13 + 2 ^ 31) fun c =>
    if ownerCode p c = rxOwner q c ∨ (isControl p c = true ∧ isStallCode (rxOwner q c) = true) then f c else wr Reg.SEP_RXQ_RESULT 1 c

/-- RXQ_RESET. -/
def execRxqReset (p : Party) (q : Fin 8192) : State → Host.Outcome State Fault Refusal :=
  onChip (rxCommand p q.val 0 fun c => wr Reg.SEP_RXQ_RESULT 0 (rxReset q.val c))

/-- ACTIVE from RESET, after the check. -/
def rxActivate (q : Nat) (c : Chip) : Chip :=
  if rxActive q c || !rxContextOk q c then wr Reg.SEP_RXQ_RESULT 2 c
  else
    let c := if rxF q 0x10 12 12 c = 1 then bindProducer (rxF q 0x10 11 0 c) 0x28 q c else c
    wr Reg.SEP_RXQ_RESULT 0 (rxPut q 0x24 15 0 (2 ^ 15) (rxPut q 0x20 0 0 1 (setRx q RxQ.idle c)))

/-- RXQ_ACTIVE. -/
def execRxqActive (p : Party) (q : Fin 8192) : State → Host.Outcome State Fault Refusal := onChip (rxCommand p q.val 1 (rxActivate q.val))

/-! ### Decisions (R577–R585, R622–R625) -/

/-- The priority of a frame in PFC accounting: the PCP of its outer tag, 0 when it is untagged (R570). -/
def framePrio (h : List Nat) : Nat := let t := parseTags h; if t.1 = 0 then 0 else t.2.1 / 2 ^ 13

/-- XOFF and XON of a group follow the bytes that its receive buffer holds of each priority (R570). -/
def pfcUpdate (g : Nat) (c : Chip) : Chip :=
  (List.range 4).foldl (fun c j =>
    let port := 4 * g + j
    (bitList 8 (rd (Reg.ETH_PFC_EN g j) c)).foldl (fun c pr =>
      let n := ((c.sepFrames.filter fun f => f.port / 4 == g && framePrio f.head == pr).map fun f => f.bytes.length + 4).sum
      let k := port * 8 + pr
      if !c.pfcSent.elem k && decide (rd (Reg.ETH_XOFF_KIB g) c * 1024 < n) then emit (.pfc port pr false) { c with pfcSent := setAdd c.pfcSent k }
      else if c.pfcSent.elem k && decide (n < rd (Reg.ETH_XON_KIB g) c * 1024) then emit (.pfc port pr true) { c with pfcSent := setDel c.pfcSent k }
      else c) c) c

/-- The final pass: the frame is metered (R622) and leaves for its destination. -/
def sepPlace (kind q : Nat) (need : Option Nat) (f : SepFrame) (c : Chip) : Chip :=
  let m := match f.tollQ with
    | some t => tolMeter f.port t (f.bytes.length + 4) f.colour c
    | none => (true, c)
  if !m.1 then m.2
  else match kind with
    | 1 => rxEnter q false need f m.2
    | 4 => rxEnter (rd Reg.SEP_SLOW_QUEUE c) true none f m.2
    | _ => m.2

/-- What a matching rule sets on a frame (R578, R580). -/
def ruleMarks (x : SepRule) (r : Nat) (f : SepFrame) : SepFrame :=
  { f with
    cls := if actF x 67 67 = 1 then some (actF x 66 64) else f.cls
    colour := if actF x 70 70 = 1 then actF x 69 68 else f.colour
    tollQ := if actF x 77 77 = 1 then some (actF x 76 71) else f.tollQ
    rule := some r }

/-- One pass of a frame (R576, R579–R582). -/
def sepPass (f : SepFrame) (c : Chip) : Chip :=
  let k := passKey f
  let c := bump (Reg.SEP_CTR 0) 1 c
  match sepLookup f.bank k c with
  | none =>
    let c := bump (Reg.SEP_CTR 2) 1 c
    if f.pass = 0 then sepPlace (rd (Reg.SEP_DEF_KIND f.port) c) (rd (Reg.SEP_DEF_QUEUE f.port) c) none { f with rule := none } c
    else sepPlace 1 f.fallback f.stall { f with rule := none } c
  | some r =>
    let x := ruleGet f.bank r c
    let c := ruleSet f.bank r { x with hits := (x.hits + 1) % 2 ^ 64 } c
    let stall := if rd Reg.SEP_STALL_BASE c ≤ r then some x.owner else none
    let f := ruleMarks x r f
    match actF x 2 0 with
    | 1 => sepPlace 1 (actF x 20 8) stall f c
    | 2 =>
      let h := sepHash k x c
      sepPlace 1 (mapGet 0 c.sepTables (tabKey (actF x 31 24) (h % 512))) stall { f with hash := h } c
    | 3 => sepPlace 3 0 none f c
    | 4 => sepPlace 4 0 none f c
    | 5 =>
      let mask := actF x 63 48
      let info := Nat.lor (Nat.land f.info (65535 - mask)) (Nat.land (actF x 47 32) mask)
      let same := (c.sepFrames.filter fun g => g.port / 4 == f.port / 4).length
      if f.pass = 3 ∨ 256 ≤ same then raise 0x28 0x0C01 0 (bump (Reg.SEP_CTR 7) 1 c)
      else
        pfcUpdate (f.port / 4) (bump (Reg.SEP_CTR 1) 1
          { c with sepFrames := c.sepFrames ++ [{ f with info := info, pass := f.pass + 1, fallback := actF x 20 8, stall := stall }] })
    | _ => sepPlace 0 0 none f c

/-! ### Reception (R567–R570) -/

/-- The MAC address of the frame passes the port's filter (R567). -/
def macAccepts (port : Nat) (h : List Nat) (c : Chip) : Bool :=
  let d := (wireField h 0 6).getD 0
  d / 2 ^ 40 % 2 == 1 || d == rd (Reg.ETH_MAC_ADDR (port / 4) (port % 4)) c || rdb (Reg.ETH_PROMISC (port / 4) (port % 4)) c

/-- FRAME_RECEIVE: the MAC's checks, then the first pass. An FCS or FEC error found only after placement has begun lets the
frame run to its queue and be discarded there (R595). -/
def frameReceive (x : Frame) (c : Chip) : Chip :=
  let g := x.port / 4
  let j := x.port % 4
  let n := x.bytes.length
  let body := x.bytes.take (n - 4)
  let fcsBad := x.bytes.drop (n - 4) != leBytes 4 (crc32 body)
  let ctr := fun k c => bump (Reg.ETH_CTR g j k) 1 c
  if !decide (x.port < 16) || !ethUp x.port c then c
  else if n < 64 then ctr 4 c
  else if rd (Reg.ETH_MAX_FRAME g j) c < n then ctr 5 c
  else if x.full then raise (0x20 + g) 0x0D03 0 (ctr 6 c)
  else
    let c := if x.fec then raise (0x20 + g) 0x0D02 0 (ctr 3 c) else if fcsBad then ctr 2 c else c
    let err := x.fec || fcsBad
    if err && !x.begun then c
    else if !macAccepts x.port x.bytes c then c
    else
      let c := if err then c else bump (Reg.ETH_CTR g j 1) n (ctr 0 c)
      if !working 0x28 c then c
      else
        let f : SepFrame :=
          { id := c.sepNext, port := x.port, bytes := body, head := x.bytes.take 64, time := x.time, error := err, bank := rd Reg.SEP_ACTIVE_BANK c,
            pass := 0, info := 0, fallback := 0, stall := none, cls := none, colour := 0, tollQ := none, hash := 0, rule := none }
        sepPass f { c with sepNext := c.sepNext + 1 }

def execFrameReceive (f : Frame) : State → Host.Outcome State Fault Refusal := onChip (frameReceive f)

/-- RECIRCULATE_PASS (R584): a frame in the recirculation queue gets a lookup slot. -/
def recirculate (id : Nat) (c : Chip) : Chip :=
  match c.sepFrames.find? fun f => f.id == id with
  | none => c
  | some f => if working 0x28 c then pfcUpdate (f.port / 4) (sepPass f { c with sepFrames := c.sepFrames.filter fun g => g.id != id }) else c

def execRecirculatePass (id : Nat) : State → Host.Outcome State Fault Refusal := onChip (recirculate id)

/-- PFC_FRAME (R570): the port obeys XOFF for the enabled priorities of `prios` that `xoff` sets, and releases the others. -/
def pfcFrame (port prios xoff : Nat) (c : Chip) : Chip :=
  if !ethUp port c then c
  else
    let en := Nat.land prios (rd (Reg.ETH_PFC_EN (port / 4) (port % 4)) c)
    let old := mapGet 0 c.pfcOff port
    bump (Reg.ETH_CTR (port / 4) (port % 4) 7) 1
      { c with pfcOff := mapPut 0 c.pfcOff port (Nat.lor (Nat.land old (255 - en)) (Nat.land xoff en)) }

def execPfcFrame (port : Fin 16) (prios : Nat) (xoff : Nat) : State → Host.Outcome State Fault Refusal := onChip (pfcFrame port.val prios xoff)

/-- ETH_LINK_DOWN (R603). -/
def ethLinkDown (port : Nat) (c : Chip) : Chip :=
  let g := port / 4
  let j := port % 4
  if !rdb (Reg.ETH_LINK_UP g j) c then c
  else
    let c := tolPortDown port { wr (Reg.ETH_LINK_UP g j) 0 c with pfcOff := mapPut 0 c.pfcOff port 0 }
    if working (0x20 + g) c && rdb (Reg.ETH_PORT_EN g j) c then raise (0x20 + g) 0x0D01 0 c else c

def execEthLinkDown (port : Fin 16) : State → Host.Outcome State Fault Refusal := onChip (ethLinkDown port.val)

/-- ETH_LINK_UP: the PCS is aligned and the FEC locked on a port that is provided and enabled. -/
def ethLinkUp (port : Nat) (c : Chip) : Chip :=
  if working (0x20 + port / 4) c && portExists port c && rdb (Reg.ETH_PORT_EN (port / 4) (port % 4)) c then
    wr (Reg.ETH_LINK_UP (port / 4) (port % 4)) 1 c
  else c

def execEthLinkUp (port : Fin 16) : State → Host.Outcome State Fault Refusal := onChip (ethLinkUp port.val)

/-! ### Changing the rules (R588, R597–R602) -/

/-- The checks of R576 and R578 on a rule. -/
def ruleSound (x : SepRule) : Bool :=
  Nat.land x.value x.mask == x.value && decide (actF x 2 0 ≤ 5) && actF x 7 5 == 0 && actF x 23 21 == 0 && actF x 69 68 != 3 && actF x 127 78 == 0

/-- The checks of R577 on a rule of the stall range. -/
def stallRuleOk (x : SepRule) (c : Chip) : Bool :=
  let cover := 3 * 2 ^ 4 + 2047 * 2 ^ 8
  let kind := actF x 2 0
  isStallCode x.owner && Nat.land x.mask cover == cover && bits x.value 18 8 == x.owner && bits x.value 5 4 != 0 &&
  (kind == 1 || kind == 2 || kind == 5) && actF x 67 67 == 0 && actF x 70 70 == 0 && actF x 77 77 == 0 && bits (actF x 63 48) 10 0 == 0 &&
  (kind == 2 || rxOwner (actF x 20 8) c == x.owner) && (kind != 2 || rd (Reg.SEP_TABLE_OWNER (actF x 31 24)) c == x.owner)

/-- A rule is allowed at its index (R576–R578). -/
def ruleAllowed (r : Nat) (x : SepRule) (c : Chip) : Bool :=
  ruleSound x && (if r < rd Reg.SEP_STALL_BASE c then x.owner == 0x8000 || x.owner == 0x8001 || x.owner == 0xA000 else stallRuleOk x c)

/-- The party may stage a rule with that owner code (R599). -/
def stageMay (p : Party) (o : Nat) (c : Chip) : Bool := isStallCode o || (!isControl p c && ownerCode p c == o)

/-- The range of an owner's rules (R577). -/
def inOwnRange (o r : Nat) (c : Chip) : Bool := if isStallCode o then decide (rd Reg.SEP_STALL_BASE c ≤ r) else decide (r < rd Reg.SEP_STALL_BASE c)

/-- COMMIT of a rule at an index (R599): 0x00, or 0x01 an owner not permitted, 0x02 the checks, 0x03 the range. -/
def ruleCommit (may : Nat → Bool) (r : Nat) (x : SepRule) (c : Chip) : Nat × Chip :=
  let bank := rd Reg.SEP_ACTIVE_BANK c
  let old := ruleGet bank r c
  if !may x.owner || (old.valid && !may old.owner) then (1, c)
  else if !inOwnRange x.owner r c then (3, c)
  else if !ruleAllowed r x c then (2, c)
  else (0, ruleSet bank r { x with valid := true, hits := 0, bad := false } c)

/-- INVALIDATE of a rule (R599). -/
def ruleInvalidate (may : Nat → Bool) (r : Nat) (c : Chip) : Nat × Chip :=
  let bank := rd Reg.SEP_ACTIVE_BANK c
  let old := ruleGet bank r c
  if old.valid && !may old.owner then (1, c) else (0, ruleSet bank r { old with valid := false } c)

/-- The rule that a bank of staging registers holds. -/
def stagedRule (b : Nat) (c : Chip) : SepRule :=
  let bytes := fun (reg : Nat → Fld) n => leNat ((List.range n).map fun k => rdB b (reg k) c)
  { SepRule.none with value := bytes Reg.SEP_STG_VALUE 64, mask := bytes Reg.SEP_STG_MASK 64, action := bytes Reg.SEP_STG_ACTION 16,
                      owner := rdB b Reg.SEP_STG_OWNER c }

/-- A write of the staging command (R50, R599); `STG_RESULT` is the writer's own. -/
def stageCommand (p : Party) (value : Nat) (f : Nat → Chip → Nat × Chip) : Chip → Chip :=
  regAccess p 0x28 0x294 value fun c => match bankOf p c with
    | some b => let r := f b c; wrB b Reg.SEP_STG_RESULT r.1 r.2
    | none => refuse 0x28 0x03 0x294 c

/-- STG_COMMIT. -/
def execStgCommit (p : Party) (value : Nat) : State → Host.Outcome State Fault Refusal :=
  onChip (stageCommand p value fun b c => ruleCommit (fun o => stageMay p o c) (value % 2 ^ 13) (stagedRule b c) c)

/-- STG_INVALIDATE. -/
def execStgInvalidate (p : Party) (value : Nat) : State → Host.Outcome State Fault Refusal :=
  onChip (stageCommand p value fun _ c => ruleInvalidate (fun o => stageMay p o c) (value % 2 ^ 13) c)

/-- SWAP (R600): every valid shadow rule is checked; the banks are exchanged, or the first failing rule is named. -/
def sepSwap (c : Chip) : Chip :=
  if rdb Reg.SEP_SWAP_BUSY c then c
  else
    let sh := 1 - rd Reg.SEP_ACTIVE_BANK c
    match (List.range (rd Reg.SEP_STALL_BASE c)).find? fun r => let x := ruleGet sh r c; x.valid && !ruleAllowed r x c with
    | some r => wr Reg.SEP_SWAP_RESULT 1 (wr Reg.SEP_FIRST_BAD_RULE r c)
    | none => wr Reg.SEP_SWAP_RESULT 0 (wr Reg.SEP_SWAP_BUSY 1 (wr Reg.SEP_ACTIVE_BANK sh c))

def execSwap (p : Party) : State → Host.Outcome State Fault Refusal := onChip (regAccess p 0x28 0x104 1 sepSwap)

/-- SWAP_DONE: no frame decided on the old bank is left in the pipe (R600). -/
def swapDone (c : Chip) : Chip :=
  if c.sepFrames.all fun f => f.bank == rd Reg.SEP_ACTIVE_BANK c then wr Reg.SEP_SWAP_BUSY 0 c else c

def execSwapDone : State → Host.Outcome State Fault Refusal := onChip swapDone

/-- COPY (R601). -/
def sepCopy (c : Chip) : Chip :=
  let a := rd Reg.SEP_ACTIVE_BANK c
  (List.range (rd Reg.SEP_STALL_BASE c)).foldl (fun c r => ruleSet (1 - a) r (ruleGet a r c) c) c

def execCopy (p : Party) : State → Host.Outcome State Fault Refusal := onChip (regAccess p 0x28 0x104 2 sepCopy)

/-- An indirection table entry written for an owner code (R588); `off` is the offset of the refusal. -/
def tableWrite (o t j value off : Nat) (c : Chip) : Chip :=
  let own := rd (Reg.SEP_TABLE_OWNER t) c
  let q := value % 2 ^ 13
  if own ≠ o ∨ (isStallCode own = true ∧ rxOwner q c ≠ own) then refuse 0x28 0x22 off c
  else { c with sepTables := mapPut 0 c.sepTables (tabKey t j) q }

/-- An entry written through the rule window (R57): SEP's guard and sleep stand for the window's. -/
def windowTable (p : Party) (t j value : Nat) (c : Chip) : Chip :=
  let a := 0x200000 + 2048 * t + 4 * j
  let off := a % 0x1000
  if pageState 0x28 c = 6 then holdAccess p (0x400 + a / 0x1000) off 32 (some value) c
  else if !guardOk p 0x28 c then refuse 0x28 0x07 off c
  else tableWrite (ownerCode p c) t j value off c

/-- TABLE_ENTRY_WRITE. -/
def execTableEntryWrite (p : Party) (t : Fin 256) (j : Fin 512) (value : Nat) : State → Host.Outcome State Fault Refusal :=
  onChip (windowTable p t.val j.val value)

/-- A slot of the window written (R57, R598): a shadow-bank slot of the privileged range, by a writer that its `OWNER` code
names; `off` is the offset in the slot. Anything else is dropped with 0x20. An invalid slot that no code names may be taken by
a writer of a privileged code (log entry 35). -/
def ruleWindowWrite (p : Party) (r off v n : Nat) (c : Chip) : Chip :=
  let bank := if rdb Reg.SEP_WIN_BANK c then 1 - rd Reg.SEP_ACTIVE_BANK c else rd Reg.SEP_ACTIVE_BANK c
  let x := ruleGet bank r c
  let code := ownerCode p c
  let privileged := fun o => o == 0x8000 || o == 0x8001 || o == 0xA000
  let may := privileged code && (x.owner == code || (!x.valid && !privileged x.owner))
  if rd Reg.SEP_STALL_BASE c ≤ r ∨ bank = rd Reg.SEP_ACTIVE_BANK c ∨ rdb Reg.SEP_SWAP_BUSY c = true ∨ may = false then
    refuse 0x28 0x20 (256 * r % 4096 + off) c
  else
    let y :=
      if off < 0x40 then { x with value := setBits x.value (8 * off) (8 * n) v }
      else if off < 0x80 then { x with mask := setBits x.mask (8 * (off - 0x40)) (8 * n) v }
      else if off < 0x90 then { x with action := setBits x.action (8 * (off - 0x80)) (8 * n) v }
      else if off = 0x90 then { x with valid := v.testBit 0, owner := bits v 31 16 }
      else x
    ruleSet bank r { y with bad := false } c

/-- A slot of the window read. -/
def ruleWindowRead (r off n : Nat) (c : Chip) : Nat :=
  let bank := if rdb Reg.SEP_WIN_BANK c then 1 - rd Reg.SEP_ACTIVE_BANK c else rd Reg.SEP_ACTIVE_BANK c
  let x := ruleGet bank r c
  let img := x.value + x.mask * 2 ^ 512 + x.action % 2 ^ 128 * 2 ^ 1024 + b2n x.valid * 2 ^ 1152 + x.owner * 2 ^ 1168 + x.hits * 2 ^ 1216
  bits img (8 * (off + n) - 1) (8 * off)

/-- RULE_PARITY (R602): the entry that lookups use does not match until it is written again. -/
def ruleParity (r : Nat) (c : Chip) : Chip :=
  let bank := rd Reg.SEP_ACTIVE_BANK c
  raise 0x28 0x0C05 2 (wr Reg.SEP_FIRST_BAD_RULE r (ruleSet bank r { ruleGet bank r c with bad := true } c))

def execRuleParity (r : Fin 8192) : State → Host.Outcome State Fault Refusal := onChip (ruleParity r.val)

/-- SEP enters OFF: frames on their way are gone; rules and tables stand. -/
def sepOff (c : Chip) : Chip :=
  { c with sepFrames := [], rxQs := (c.rxQs.map fun (e : Nat × RxQ) => (e.1, { e.2 with frames := [] })).filter fun (e : Nat × RxQ) => !decide (e.2 = RxQ.idle) }

end Sys2Proof.Machine
end

