-- ==== Sys2Proof/Machine/PageCheck.lean ====
section
/-! DEFINITION. What the pages depend on, when they are idle, and the consistency check (R59, R72–R80 and the refusal codes of each block's chapter). -/

namespace Sys2Proof.Machine

/-! ### Dependencies -/

/-- The pages that page `q` requires, each of them (R171, R331, R378, R455, R491, R493, R540, R604, R629, R665, R678). -/
def dependsOn (q : Nat) (c : Chip) : List Nat :=
  let movs := fun n => (List.range n).map (0x50 + ·)
  match blockType q with
  | some 0x2000 => [0x60]
  | some 0x1000 => [0x88]
  | some 0x28 => [0x5A]
  | some 0x30 => [0x5A]
  | some 0x40 => [0x28, 0x30, 0x5A]
  | some 0x61 => [0x60, 0x40] ++ movs 11
  | some 0x70 => [0x40, 0x71, 0x72, 0x60] ++ movs 8
  | some 0x71 => movs 8 ++ [0x5B]
  | some 0x72 => movs 10 ++ (if rd Reg.KVP_PAIL_SIZE c = 0 then [] else [0x5B])
  | some 0x78 => [0x40, 0x61, 0x79] ++ movs 10 ++ (if rdb Reg.LBY_PROT c then [0x88] else []) ++
      (if rd Reg.LBY_DUR_KIND c = 2 then [0x5B, 0x80] else [])
  | some 0x80 => [0x5B]
  | _ => []

/-- The pages of which page `q` requires a number, and that number (R604, R629, R665). -/
def dependsSome (q : Nat) : List Nat × Nat :=
  match blockType q with
  | some 0x28 => ([0x20, 0x21, 0x22, 0x23], 1)
  | some 0x30 => ([0x20, 0x21, 0x22, 0x23], 1)
  | some 0x80 => ((List.range 8).map (0x18 + ·), 6)
  | _ => ([], 0)

/-- Every page that `q` requires counts as RUNNING. -/
def depsOk (q : Nat) (c : Chip) : Bool :=
  (dependsOn q c).all (countsRunning · c) &&
  decide ((dependsSome q).2 ≤ ((dependsSome q).1.filter (countsRunning · c)).length)

/-- Page `p` is among what page `q` requires. -/
def usesPage (q p : Nat) (c : Chip) : Bool := (dependsOn q c).elem p || (dependsSome q).1.elem p

/-- The pages that can depend on page `p`. -/
def maybeDependents (p : Nat) : List Nat :=
  [0x28, 0x30, 0x40, 0x61, 0x70, 0x71, 0x72, 0x78, 0x80] ++
  (if p = 0x60 then (List.range 336).map (0x2000 + ·) else []) ++ (if p = 0x88 then (List.range 256).map (0x1000 + ·) else [])

/-! ### Idle -/

/-- The page holds no outstanding work (`IDLE`, R59). -/
def pageIdle (p : Nat) (c : Chip) : Bool :=
  match blockType p with
  | some 0x2000 => let s := rd (Reg.CC_RUN_STATE (p - 0x2000)) c; s != 1 && s != 2
  | some 0x50 => !c.movRun.any fun e => e.1 / 64 == p - 0x50
  | some 0x28 => c.sepFrames.isEmpty && c.rxQs.all fun e => e.2.frames.isEmpty
  | some 0x30 => c.txWait.isEmpty && c.tolFrames.isEmpty && c.tolWire.isEmpty
  | some 0x40 => c.txMsgs.isEmpty && c.flights.isEmpty && c.reasm.isEmpty && c.flags.isEmpty
  | some 0x61 => c.colRuns.isEmpty
  | some 0x70 => c.herdLive.isEmpty
  | some 0x71 => c.vatLoads.isEmpty && c.vatRels.isEmpty && c.vatFill.isNone
  | some 0x72 => c.kvPages.all fun x => x.move.isNone
  | some 0x78 => c.lby.run.isNone && c.lby.drains.isEmpty && !rdb Reg.LBY_CMD_BUSY c
  | some 0x80 => c.palCmds.isEmpty && c.palRebuild.isNone
  | some 0x90 => c.freezing.isEmpty
  | some 0x05 => !rdb Reg.BOOT_UPD_BUSY c
  | some 0xA0 => (List.range (if p = 0xA6 then 64 else 32)).all fun n => !rdb (Reg.MEM_SCRUBBING (p - 0xA0) n) c
  | _ => true

/-! ### The consistency check -/

/-- A condition that fails records its code at an offset. -/
def failIf (bad : Bool) (code off : Nat) : List (Nat × Nat) := if bad then [(code, off)] else []

/-- A field that must be a multiple of `2^n` (code 0x02). -/
def misaligned (f : Fld) (n : Nat) (c : Chip) : List (Nat × Nat) := failIf (rd f c % 2 ^ n != 0) 0x02 f.off

/-- A field that must lie in `[lo, hi]`. -/
def offRange (f : Fld) (lo hi code : Nat) (c : Chip) : List (Nat × Nat) :=
  failIf (decide (rd f c < lo) || decide (hi < rd f c)) code f.off

/-- An area that must lie in an activity's channels. -/
def offArea (f : Fld) (act n code : Nat) (c : Chip) : List (Nat × Nat) :=
  failIf (decide (0 < n) && !inActivity act (rd f c) n c) code f.off

/-- The Cellar holds the address. -/
def inCellar (a : Nat) : Bool := decide (0xA0000000000 ≤ a) && decide (a < 0xC0000000000)

/-- A queue pair that is not the block's, or not in RESET. -/
def offQp (q owner : Nat) (c : Chip) : Bool := qpOwner q c != owner || qpState q c != 0

/-- A channel of some engine of a list that the block does not own. -/
def offChannels (es : List Nat) (ch owner : Nat) (c : Chip) : Bool := es.any fun e => rd (Reg.MOV_OWNER e ch) c != owner

/-- SPR (R727). -/
def checkSpr (a : Nat) (c : Chip) : List (Nat × Nat) :=
  let on := (List.range 8).filter fun w => rd (Reg.SPR_IW_SIZE a w) c ≠ 0
  misaligned (Reg.SPR_ACC_BAR_ADDR a) 21 c ++ misaligned (Reg.SPR_ACC_WIN_SIZE a) 21 c ++
  (List.range 8).flatMap (fun w => misaligned (Reg.SPR_IW_BASE a w) 21 c ++ misaligned (Reg.SPR_IW_SIZE a w) 21 c ++
    misaligned (Reg.SPR_IW_TARGET a w) 21 c) ++
  on.flatMap (fun w => failIf (on.any fun v => v != w &&
    overlaps (rd (Reg.SPR_IW_BASE a w) c) (rd (Reg.SPR_IW_SIZE a w) c) (rd (Reg.SPR_IW_BASE a v) c) (rd (Reg.SPR_IW_SIZE a v) c))
    0x20 (0x200 + 0x20 * w)) ++
  on.flatMap fun w =>
    failIf (!([3, 2, 8].any fun act => inActivity act (rd (Reg.SPR_IW_TARGET a w) c) (rd (Reg.SPR_IW_SIZE a w) c) c))
      0x21 (0x210 + 0x20 * w)

/-- ETH (R565, R566, and the ranges of its table). -/
def checkEth (g : Nat) (c : Chip) : List (Nat × Nat) :=
  offRange (Reg.ETH_MODE g) 0 2 0x04 c ++
  failIf (decide (rd (Reg.ETH_XOFF_KIB g) c ≤ rd (Reg.ETH_XON_KIB g) c)) 0x04 0x104 ++
  (List.range 4).flatMap fun j => offRange (Reg.ETH_MAX_FRAME g j) 1518 9600 0x04 c ++
    failIf (rdb (Reg.ETH_PORT_EN g j) c && !portExists (4 * g + j) c) 0x20 (0x200 + 0x80 * j)

/-- SEP (R604). -/
def checkSep (c : Chip) : List (Nat × Nat) :=
  misaligned Reg.SEP_RXQ_TABLE 12 c ++ offArea Reg.SEP_RXQ_TABLE 5 0x80000 0x21 c ++ offRange Reg.SEP_STALL_BASE 1 8191 0x21 c

/-- TOL (R629). -/
def checkTol (c : Chip) : List (Nat × Nat) :=
  misaligned Reg.TOL_TXQ_TABLE 12 c ++ offArea Reg.TOL_TXQ_TABLE 5 0x80000 0x20 c ++ offRange Reg.TOL_QUANTUM 64 16384 0x21 c

/-- AHN (R331, R371). -/
def checkAhn (c : Chip) : List (Nat × Nat) :=
  let rto := rd Reg.AHN_RTO_BASE c
  misaligned Reg.AHN_ADDR_TABLE 12 c ++ misaligned Reg.AHN_QP_TABLE 12 c ++ misaligned Reg.AHN_REGION_TABLE 12 c ++
  offRange Reg.AHN_RTO_BASE 1000 65535 0x04 c ++
  failIf (decide (rd Reg.AHN_MPL c < 127 * rto + rd Reg.AHN_NET_LIFETIME c)) 0x20 0x168 ++
  failIf (rd Reg.AHN_UDP_PORT c == 0) 0x21 0x100 ++
  failIf (rd Reg.AHN_PORT_MASK c == 0 || (ahnPorts c).any fun p =>
    !portExists p c || !rdb (Reg.ETH_PORT_EN (p / 4) (p % 4)) c || !working (0x20 + p / 4) c) 0x21 0x104 ++
  offRange Reg.AHN_FLIGHT_WINDOW 64 16384 0x22 c ++
  offRange Reg.AHN_CWND_INIT 1 (rd Reg.AHN_FLIGHT_WINDOW c) 0x22 c ++
  (if rdb Reg.AHN_DOMAIN_MODE c then offRange Reg.AHN_DISC_COUNT 1 16 0x23 c
   else failIf (!addrValid (rd Reg.AHN_DEVICE_ID c) c) 0x23 0x108) ++
  offArea Reg.AHN_ADDR_TABLE 5 0x200000 0x24 c ++
  failIf (decide (rd Reg.AHN_RESP_TIMEOUT c < 510 * rto)) 0x25 0x320 ++
  offArea Reg.AHN_QP_TABLE 5 0x80000 0x26 c ++ offArea Reg.AHN_REGION_TABLE 5 0x400000 0x26 c

/-- COL (R378). -/
def checkCol (c : Chip) : List (Nat × Nat) :=
  misaligned Reg.COL_GROUP_TABLE 12 c ++ misaligned Reg.COL_STAGING 21 c ++
  failIf (rd (Reg.CHN_KIND (rd Reg.COL_POOL c)) c != 1) 0x20 0x100 ++
  failIf (offQp (rd Reg.COL_COL_QP c) 0x9007 c) 0x21 0x110 ++
  offArea Reg.COL_GROUP_TABLE 7 0x40000 0x22 c ++ offRange Reg.COL_STAGING_LOG2 26 36 0x22 c ++
  offArea Reg.COL_STAGING 7 (2 ^ min 40 (rd Reg.COL_STAGING_LOG2 c)) 0x22 c

/-- HRD (R455). -/
def checkHrd (c : Chip) : List (Nat × Nat) :=
  [Reg.HRD_CTX_TABLE, Reg.HRD_POLICY_TABLE, Reg.HRD_INTAKE_TABLE].flatMap (misaligned · 12 c) ++
  (List.range 32).flatMap (fun p => failIf (rdb (Reg.HRD_CALL_BOUND p) c && lineTaken (rd (Reg.HRD_CALL_LINE p) c) c) 0x0B (0x408 + 16 * p)) ++
  offArea Reg.HRD_CTX_TABLE 3 0x8000000 0x21 c ++ offArea Reg.HRD_POLICY_TABLE 3 0x40000 0x21 c ++
  offArea Reg.HRD_INTAKE_TABLE 3 0x40000 0x21 c ++ offArea Reg.HRD_LIST_AREA 3 (2 ^ min 40 (rd Reg.HRD_LIST_LOG2 c)) 0x21 c ++
  offArea Reg.HRD_PROMPT_AREA 3 (2 ^ min 40 (rd Reg.HRD_PROMPT_LOG2 c)) 0x21 c ++ offArea Reg.HRD_CRING_AREA 3 0x2000000 0x21 c ++
  failIf ((List.range (rd Reg.HRD_QP_COUNT c)).any fun k => offQp (herdQp k c) 0x9003 c) 0x22 0x124 ++
  offRange Reg.HRD_LIST_LOG2 20 30 0x23 c ++ offRange Reg.HRD_RECV_LOG2 12 25 0x23 c ++
  offRange Reg.HRD_PROMPT_LOG2 (max 20 (rd Reg.HRD_RECV_LOG2 c + 4)) 32 0x23 c ++ offRange Reg.HRD_QP_COUNT 0 16 0x23 c ++
  (List.range 32).flatMap fun p => failIf (rdb (Reg.HRD_CALL_BOUND p) c &&
    (decide (rd (Reg.HRD_CALL_LOG2 p) c < 4) || decide (12 < rd (Reg.HRD_CALL_LOG2 p) c))) 0x23 (0x400 + 16 * p)

/-- VAT (R491). -/
def checkVat (c : Chip) : List (Nat × Nat) :=
  misaligned Reg.VAT_IMAGE_TABLE 12 c ++ (List.range 8).flatMap (fun a => misaligned (Reg.VAT_AREA_OFFSET a) 16 c) ++
  offArea Reg.VAT_IMAGE_TABLE 1 0x40000 0x20 c ++
  failIf (rd Reg.VAT_AREA_SIZE c == 0 || rd Reg.VAT_AREA_SIZE c % 0x10000 != 0) 0x21 0x108 ++
  failIf (offChannels (List.range 8 ++ [11]) (rd Reg.VAT_VAT_CH c) vatCode c) 0x22 0x110

/-- KVP (R493). -/
def checkKvp (c : Chip) : List (Nat × Nat) :=
  let m := 0x200000
  let off := fun (f : Fld) => failIf (rd f c % m != 0) 0x21 f.off
  let accs := List.range 8
  offArea Reg.KVP_SEQ_TABLE 2 0x2000000 0x20 c ++ offArea Reg.KVP_DESC_TABLE 2 0x10000000 0x20 c ++
  offArea Reg.KVP_FMT_TABLE 2 0x4000 0x20 c ++ offArea Reg.KVP_PT_AREA 2 (2 ^ min 40 (rd Reg.KVP_PT_LOG2 c)) 0x20 c ++
  offArea Reg.KVP_HBM_AREA 2 (rd Reg.KVP_HBM_SIZE c) 0x20 c ++ offArea Reg.KVP_CELLAR_AREA 2 (rd Reg.KVP_CELLAR_SIZE c) 0x20 c ++
  offRange Reg.KVP_PT_LOG2 24 34 0x21 c ++ offRange Reg.KVP_GROW_PAGES 1 255 0x21 c ++
  [Reg.KVP_HBM_AREA, Reg.KVP_HBM_SIZE, Reg.KVP_CELLAR_AREA, Reg.KVP_CELLAR_SIZE, Reg.KVP_PAIL_OFFSET].flatMap off ++
  accs.flatMap (fun a => off (Reg.KVP_KV_OFFSET a) ++ off (Reg.KVP_KV_SIZE a)) ++
  failIf (offChannels (List.range 10 ++ if rd Reg.KVP_PAIL_SIZE c = 0 then [] else [11]) (rd Reg.KVP_KVP_CH c) kvpCode c) 0x22 0x168 ++
  accs.flatMap fun a => failIf (overlaps (rd (Reg.KVP_KV_OFFSET a) c) (rd (Reg.KVP_KV_SIZE a) c)
    (rd (Reg.VAT_AREA_OFFSET a) c) (rd Reg.VAT_AREA_SIZE c)) 0x23 (0x400 + 0x20 * a)

/-- The durable fields suit `DUR_KIND` (R518, R540): a target that is not NONE has a size; a volume is one that Layby may use
and holds the two halves. DEDUCED, log entry 36. -/
def durableOk (c : Chip) : Bool :=
  match rd Reg.LBY_DUR_KIND c with
  | 0 => true
  | 1 => rd Reg.LBY_DUR_SIZE c != 0
  | 2 => rd Reg.LBY_DUR_SIZE c != 0 && volServes (rd Reg.LBY_DUR_VOLUME c) lbyCode c &&
      decide (rd Reg.LBY_DUR_ADDR c + rd Reg.LBY_DUR_SIZE c ≤ 4096 * volBlocks (rd Reg.LBY_DUR_VOLUME c) c)
  | _ => false

/-- LBY (R540). -/
def checkLby (c : Chip) : List (Nat × Nat) :=
  let mul := fun (f : Fld) (top : Nat) => failIf (rd f c % 0x200000 != 0 || decide (top < rd f c)) 0x20 f.off
  let cellar := fun (f : Fld) (n : Nat) => failIf (decide (0 < n) && !inCellar (rd f c)) 0x20 f.off
  misaligned Reg.LBY_NEAR_AREA 12 c ++ misaligned Reg.LBY_DUR_ADDR 12 c ++ (List.range 8).flatMap (fun a => misaligned (Reg.LBY_GO_ADDR a) 3 c) ++
  offRange Reg.LBY_MEMBERS 1 65536 0x20 c ++ offArea Reg.LBY_MEMBER_TABLE 8 (8 * rd Reg.LBY_MEMBERS c) 0x20 c ++
  offRange Reg.LBY_MANIFEST_COUNT 1 1048576 0x20 c ++ offArea Reg.LBY_MANIFEST 8 (256 * rd Reg.LBY_MANIFEST_COUNT c) 0x20 c ++
  mul Reg.LBY_NEAR_SLOT 0x1800000000 ++ offArea Reg.LBY_NEAR_AREA 8 (2 * rd Reg.LBY_NEAR_SLOT c) 0x20 c ++
  cellar Reg.LBY_NEAR_AREA (rd Reg.LBY_NEAR_SLOT c) ++
  mul Reg.LBY_HELD_SIZE 0x3000000000 ++ offArea Reg.LBY_HELD_AREA 9 (rd Reg.LBY_HELD_SIZE c) 0x20 c ++
  cellar Reg.LBY_HELD_AREA (rd Reg.LBY_HELD_SIZE c) ++ offArea Reg.LBY_MARK_AREA 8 512 0x20 c ++
  failIf (offQp (rd Reg.LBY_LBY_QP c) lbyCode c) 0x21 0x148 ++
  failIf (offChannels (List.range 10 ++ if rd Reg.LBY_DUR_KIND c = 2 then [11] else []) (rd Reg.LBY_LBY_CH c) lbyCode c) 0x22 0x150 ++
  failIf (!durableOk c) 0x23 0x168 ++ failIf (lbyOverBudget c) 0x24 0x164

/-- PAL (R665). -/
def checkPal (c : Chip) : List (Nat × Nat) :=
  misaligned Reg.PAL_QUEUE_TABLE 12 c ++ misaligned Reg.PAL_STAGING 21 c ++
  offArea Reg.PAL_QUEUE_TABLE 6 0x40000 0x20 c ++ offArea Reg.PAL_STAGING 6 (2 ^ min 40 (rd Reg.PAL_STAGING_LOG2 c)) 0x20 c ++
  offRange Reg.PAL_STAGING_LOG2 22 30 0x21 c ++
  failIf ((List.range 8).any fun n => countsRunning (0x18 + n) c && !ssdFits n) 0x22 8

/-- A key page (R678). -/
def checkKey (n : Nat) (c : Chip) : List (Nat × Nat) :=
  failIf (!keyOwnerOk (rd (Reg.KEY_OWNER n) c)) 0x20 0x100 ++
  failIf (rdb (Reg.KEY_RX_EN n) c && (List.range 256).any fun m => m != n && running (keyPage m) c &&
    rdb (Reg.KEY_RX_EN m) c && rd (Reg.KEY_RX_QP m) c == rd (Reg.KEY_RX_QP n) c) 0x21 0x104

/-- STL (R756). -/
def checkStl (c : Chip) : List (Nat × Nat) :=
  misaligned Reg.STL_STALL_TABLE 12 c ++ misaligned Reg.STL_SERVICE_AREA 26 c ++
  offArea Reg.STL_STALL_TABLE 10 0x100000 0x20 c ++ offArea Reg.STL_SERVICE_AREA 10 0x400000000 0x21 c

/-- A COLLECTIVE pool is every enabled core of one to four clusters, replacements excepted, and the only one (R170, R176). -/
def collectiveOk (p : Nat) (c : Chip) : Bool :=
  let cores := poolCores p c
  let clusters := (List.range 21).filter fun k => cores.any fun n => n / 16 == k && !c.reissues.any fun r => r.repl == n
  decide (1 ≤ clusters.length) && decide (clusters.length ≤ 4) &&
  (clusters.all fun k => (List.range 16).all fun i => isDisabled (16 * k + i) c || cores.elem (16 * k + i)) &&
  !((List.range 32).any fun q => q != p && rd (Reg.CHN_KIND q) c == 1)

/-- A core page (R170). -/
def checkCore (n : Nat) (c : Chip) : List (Nat × Nat) :=
  let p := rd (Reg.CHN_POOL_OF n) c
  let out := fun j => if rdb (Reg.CC_OUT_BOUND n j) c then some (rd (Reg.CC_OUT_LINE n j) c) else none
  (List.range 4).flatMap (fun j => match out j with
    | some l => failIf (lineTaken l c || (List.range j).any fun i => out i == some l) 0x0B (0x160 + 4 * j)
    | none => []) ++
  failIf (decide (32 ≤ p) || rd (Reg.CHN_KIND p) c == 0) 0x21 8 ++
  failIf (decide (p < 32) && rd (Reg.CHN_KIND p) c == 1 && !collectiveOk p c) 0x22 8

/-- The block-specific part of the check. -/
def checkBlock (p : Nat) (c : Chip) : List (Nat × Nat) :=
  match blockType p with
  | some 0x10 => checkSpr (p - 0x10) c
  | some 0x20 => checkEth (p - 0x20) c
  | some 0x28 => checkSep c
  | some 0x30 => checkTol c
  | some 0x40 => checkAhn c
  | some 0x61 => checkCol c
  | some 0x70 => checkHrd c
  | some 0x71 => checkVat c
  | some 0x72 => checkKvp c
  | some 0x78 => checkLby c
  | some 0x80 => checkPal c
  | some 0x90 => checkStl c
  | some 0x1000 => checkKey (p - 0x1000) c
  | some 0x2000 => checkCore (p - 0x2000) c
  | _ => []

/-- The page's domain is switched, asleep, and its wake refused (R79, R799). -/
def checkAsleep (p : Nat) (c : Chip) : Bool :=
  let d := pageDomain p
  d != 0x1FF && !domAwake d c && wakeRefusal d .work c != 0

/-- Everything that fails on page `p`, as (code, offset) (R76). -/
def pageFailures (p : Nat) (c : Chip) : List (Nat × Nat) :=
  (c.held.filter fun e => e.1 / 0x1000 == p && e.2 != 0).map (fun e => (0x01, e.1 % 0x1000)) ++
  failIf (rdb Reg.RST_SAFE_STATE c || !depsOk p c) 0x06 8 ++
  failIf (rd (Hdr.DRV_MAJOR p) c != rd (Hdr.MAJOR p) c) 0x08 8 ++
  failIf (checkAsleep p c || (blockType p == some 0x2000 && isDisabled (p - 0x2000) c)) 0x0A 8 ++
  checkBlock p c

/-- The order in which codes apply (R76), with the offset; a smaller key comes first. -/
def failKey (e : Nat × Nat) : Nat := e.1 * 0x1000 + e.2

/-- The first failure of a list. -/
def firstFailure : List (Nat × Nat) → Option (Nat × Nat)
  | [] => none
  | e :: t => match firstFailure t with
    | some x => if failKey x < failKey e then some x else some e
    | none => some e

/-- The outcome of the check (R76): none when it passes, else the code and offset recorded. -/
def pageCheck (p : Nat) (c : Chip) : Option (Nat × Nat) := firstFailure (pageFailures p c)

end Sys2Proof.Machine
end

