-- ==== Sys2Proof/Machine/Pages.lean ====
section
/-! DEFINITION. Page states (R68–R78, R896, R897): enabling, draining, fencing, the loss of a dependency, and the commands that write `BLK_CTRL`; and what each block does as its page is fenced, reaches RUNNING and reaches OFF. -/

namespace Sys2Proof.Machine

/-! ### Links of the Spur and SSD ports -/

/-- The link field register of an SPR or SSD page. -/
def linkFld (p : Nat) : Fld := if p < 0x18 then Reg.SPR_LINK_FIELDS (p - 0x10) else Reg.SSD_LINK_FIELDS (p - 0x18)

/-- Every running descriptor checked against the places it reaches (R265, R715). -/
def movRecheck (c : Chip) : Chip :=
  (c.movRun.filterMap fun e => e.2.map fun r => (e.1 / 64, e.1 % 64, r)).foldl (fun c x =>
    let c' := movCheckPath x.1 x.2.1 x.2.2 c
    if (movRunOf x.1 x.2.1 c').isNone && (movRunOf x.1 x.2.1 c).isSome && decide (movOwner x.1 x.2.1 c = 0x9001) && decide (x.1 < 8) &&
      x.2.1 == rd Reg.VAT_VAT_CH c then vatAbortOn x.1 c' else c') c

/-- The link of an SPR or SSD page goes down: its fields read 0, the link-down counter advances, requests to it end with
errors (R715, R716). -/
def linkFall (p : Nat) (c : Chip) : Chip :=
  if !portUp p c then wr (linkFld p) 0 c
  else
    let c := wr (linkFld p) 0 c
    let c := bump (if p < 0x18 then Reg.SPR_CTR (p - 0x10) 0 else Reg.SSD_CTR (p - 0x18) 0) 1 c
    if p < 0x18 then movRecheck c else c

/-! ### What each block does -/

/-- Outstanding work answered with errors as a page is fenced, or taken down by `EN` 0 (R71, R72). HRD finishes what it has
taken when it is taken down (R453) and returns it when it is fenced. -/
def pageAnswer (fence : Bool) (p : Nat) (c : Chip) : Chip :=
  match blockType p with
  | some 0x10 => accFail (p - 0x10) (linkFall p c)
  | some 0x18 => ssdFail (p - 0x18) (linkFall p c)
  | some 0x20 => (List.range 4).foldl (fun c j => ethLinkDown (4 * (p - 0x20) + j) c) c
  | some 0x28 => sepOff c
  | some 0x30 => tolOff c
  | some 0x40 => ahnAnswer c
  | some 0x50 => vatAbortOn (p - 0x50) (movFence (p - 0x50) c)
  | some 0x61 => colRestAll ((List.range 16).foldl (fun c q => colFail q 6 (match runOf q c with
      | some r => groupRank r.group c
      | none => 0) c) c)
  | some 0x70 => if fence then herdCounts (finishAll c.herdLive 6 c) else c
  | some 0x71 => herdSettle (loadsGo ((List.range 8).flatMap fun a => (loadsFailOn a c).1)
      ((List.range 8).foldl (fun c a => (loadsFailOn a c).2) { c with vatFill := none }))
  | some 0x72 => { c with kvPages := c.kvPages.map fun (x : KvPage) => { x with move := none, goal := none } }
  | some 0x78 => { lbyAbortAll c with lby := { (lbyAbortAll c).lby with drains := [] } }
  | some 0x80 => { (c.palQs.map (·.1)).foldl (fun c q => palResetQueue q c) c with palCmds := [], palRebuild := none }
  | some 0x2000 =>
    let n := p - 0x2000
    { c with cores := c.cores.map fun (e : Nat × CoreSt) =>
        if e.1 = n then (e.1, { e.2 with tile := none, wait := none, mark := false, sigs := [] }) else e }
  | _ => c

/-- The queue pairs of a block put in RESET with nothing reported: the safe state discards work (R820). -/
def qpDiscard (o : Nat) (c : Chip) : Chip :=
  (List.range 4096).foldl (fun c n => if qpOwner n c = o ∧ qpState n c ≠ 0 then qpEnterReset n c else c) c

/-- What a block does as its page reaches OFF; `auto` under the automatic engine reset (R833). -/
def offHook (auto : Bool) (p : Nat) (c : Chip) : Chip :=
  let quiet := fun (o : Nat) (c : Chip) => if rdb Reg.RST_SAFE_STATE c then qpDiscard o c else c
  match blockType p with
  | some 0x10 => linkFall p c
  | some 0x18 => linkFall p c
  | some 0x28 => sepOff c
  | some 0x30 => tolOff c
  | some 0x40 => ahnOff auto c
  | some 0x50 => movResetEngine (p - 0x50) c
  | some 0x61 => colPageOff (quiet 0x9007 c)
  | some 0x70 => herdOff (quiet 0x9003 c)
  | some 0x71 => vatOff c
  | some 0x72 => kvpOff c
  | some 0x78 => lbyOff (quiet lbyCode c)
  | some 0x80 => palOff c
  | some 0x1000 => keyErasePage (p - 0x1000) c
  | some 0x2000 =>
    let n := p - 0x2000
    let c := (List.range 8).foldl (fun c i => unbindConsumer (.core n i) c) (unbindPage p c)
    let s := rd (Reg.CC_RUN_STATE n) c
    if s = 1 ∨ s = 2 ∨ s = 5 then wr (Reg.CC_RUN_STATE n) 0 c else c
  | _ => c

/-- A core page enables: the core joins its pool with its member number, its counts are 0 and its lines bound (R27, R28,
R167, R171). -/
def coreOn (n : Nat) (c : Chip) : Chip :=
  let p := rd (Reg.CHN_POOL_OF n) c
  let m := memberOf p n c
  let c := wr (Reg.CC_MEMBER n) m (wr (Reg.CC_POOL n) p { c with numbered := setAdd c.numbered n })
  let c := (List.range 8).foldl (fun c i =>
    let c := wr (Reg.CC_IN_COUNT n i) 0 c
    if rdb (Reg.CC_IN_BOUND n i) c then bindConsumer (rd (Reg.CC_IN_LINE n i) c) (.core n i) c else c) c
  (List.range 4).foldl (fun c j =>
    if rdb (Reg.CC_OUT_BOUND n j) c then bindProducer (rd (Reg.CC_OUT_LINE n j) c) (corePage n) j c else c) c

/-- The lines of Herd's call rings bound (R27, R28, R430). -/
def herdLines (c : Chip) : Chip :=
  (List.range 32).foldl (fun c p =>
    let c := if rdb (Reg.HRD_CALL_BOUND p) c then bindProducer (rd (Reg.HRD_CALL_LINE p) c) 0x70 p c else c
    if rdb (Reg.HRD_VERDICT_BOUND p) c then bindConsumer (rd (Reg.HRD_VERDICT_LINE p) c) (.verdict p) c else c) c

/-- What a block does as its page reaches RUNNING from CHECKING. -/
def onHook (p : Nat) (c : Chip) : Chip :=
  match blockType p with
  | some 0x40 => ahnOn c
  | some 0x61 => colOn c
  | some 0x70 => herdLines (herdOn c)
  | some 0x72 => kvpOn c
  | some 0x78 => lbyOn c
  | some 0x80 => palOn c
  | some 0x2000 => coreOn (p - 0x2000) c
  | _ => c

/-! ### Fences and lost dependencies -/

/-- Page `p` enters FENCED, or goes on to OFF when `EN` is 0 (R896); its work is answered with errors (R72). Any other page
stays as it is. -/
def fenceOne (p : Nat) (c : Chip) : Chip :=
  let s := pageState p c
  if s = 2 ∨ (s = 5 ∧ rdb (Hdr.EN p) c = true) then pageAnswer true p (wr (Hdr.STATE p) 4 c)
  else if s = 5 then pageAnswer true p c
  else c

/-- The dependents of page `p` that have lost a page they require. -/
def lostDependents (p : Nat) (c : Chip) : List Nat :=
  (maybeDependents p).filter fun q => q != p && usesPage q p c && (working q c || pageState q c == 5) && !depsOk q c

/-- The loss of pages passed on: each dependent is FENCED with `DEP_LOST`, and its own dependents follow (R68, R896). -/
def loseWave : Nat → List Nat → Chip → Chip
  | 0, _, c => c
  | _, [], c => c
  | fuel + 1, p :: t, c =>
    let qs := lostDependents p c
    let down := qs.filter (working · c)
    loseWave fuel (t ++ down) (qs.foldl (fun c q => fenceOne q (raise q 0x0001 2 c)) c)

/-- Page `p` has left RUNNING for OFF or FENCED (R68). -/
def pageLost (p : Nat) (c : Chip) : Chip := if countsRunning p c then c else loseWave 4096 [p] c

/-- Page `p` is fenced by a write of `FENCE` or a fault (R68, R829). -/
def fencePage (p : Nat) (c : Chip) : Chip :=
  let was := working p c
  let c := fenceOne p c
  if was then pageLost p c else c

/-- Page `p` enters OFF (R71). -/
def pageOff (auto : Bool) (p : Nat) (c : Chip) : Chip :=
  pageLost p (offHook auto p (wr (Hdr.STATE p) 0 (wr (Hdr.FENCE p) 0 (wr (Hdr.QUIESCE p) 0 c))))

/-- A page that arrives in RUNNING from CHECKING or ASLEEP goes on to FENCED or DRAINING as its bits say (R897). -/
def pageArrives (p : Nat) (c : Chip) : Chip :=
  let c := wr (Hdr.STATE p) 2 c
  if rdb (Hdr.FENCE p) c then fencePage p c
  else if rdb (Hdr.QUIESCE p) c then wr (Hdr.STATE p) 5 c
  else c

/-! ### Writes of BLK_CTRL -/

/-- `EN` written 1 on a page that is OFF or REFUSED (R68, R77). A sleeping domain is asked to wake for the check. -/
def enableStart (p : Nat) (c : Chip) : Chip :=
  let c := wr (Hdr.STATE p) 1 (wr (Hdr.EN p) 1 (wr (Hdr.REFUSAL_OFFSET p) 0 (wr (Hdr.REFUSAL_CODE p) 0 c)))
  let d := pageDomain p
  if d = 0x1FF ∨ domAwake d c = true ∨ wakeRefusal d .work c ≠ 0 then c else requestWake d .work c

/-- `EN` written 0 (R68, R71): a check is abandoned; a working page drains towards OFF, its work answered with errors, unless
the safe state discards it (R820). -/
def enableEnd (p : Nat) (c : Chip) : Chip :=
  let s := pageState p c
  if s = 1 then pageOff false p (wr (Hdr.EN p) 0 c)
  else if s = 2 ∨ s = 4 ∨ s = 6 ∨ (s = 5 ∧ rdb (Hdr.EN p) c = true) then
    let c := wr (Hdr.STATE p) 5 (wr (Hdr.EN p) 0 c)
    if rdb Reg.RST_SAFE_STATE c then c else pageAnswer false p c
  else wr (Hdr.EN p) 0 c

/-- The effect of `QUIESCE` and `FENCE` on a page that takes part in work (R68, R897). -/
def ctrlBits (p : Nat) (c : Chip) : Chip :=
  if rdb (Hdr.FENCE p) c && working p c then fencePage p c
  else if rdb (Hdr.QUIESCE p) c then (if running p c then wr (Hdr.STATE p) 5 c else c)
  else if working p c then wr (Hdr.STATE p) 2 c
  else c

/-- The party may write `BLK_CTRL` of the page: key pages have their own rule (R670). -/
def ctrlMay (party : Party) (p : Nat) (c : Chip) : Bool :=
  !(blockType p == some 0x1000) || keyCtrlOk party (p - 0x1000) c

/-- A write of `BLK_CTRL` (R59, R65, R68–R71, R75, R897). `DRV_MAJOR` is taken while the page is OFF or REFUSED. -/
def ctrlWrite (party : Party) (p value : Nat) (c : Chip) : Chip :=
  if !hasHeader p then c
  else if !guardOk party p c then refuse p 0x07 8 c
  else if !ctrlMay party p c then refuse p 0x03 8 c
  else
    let s := pageState p c
    let c := if s = 0 ∨ s = 3 then wr (Hdr.DRV_MAJOR p) (bits value 31 16) c else c
    let c := wr (Hdr.SLEEP_OK p) (bits value 3 3) (wr (Hdr.FENCE p) (bits value 2 2) (wr (Hdr.QUIESCE p) (bits value 1 1) c))
    if value % 2 = 0 then enableEnd p c
    else if s = 0 ∨ s = 3 then enableStart p c
    else ctrlBits p c

/-- The value of `BLK_CTRL`. -/
def ctrlValue (p : Nat) (c : Chip) : Nat :=
  rd (Hdr.EN p) c + 2 * rd (Hdr.QUIESCE p) c + 4 * rd (Hdr.FENCE p) c + 8 * rd (Hdr.SLEEP_OK p) c + 2 ^ 16 * rd (Hdr.DRV_MAJOR p) c

/-- EN_WRITTEN_1: `BLK_CTRL` written with `EN` 1. -/
def execEnWritten1 (p : Party) (page value : Nat) : State → Host.Outcome State Fault Refusal :=
  onChip (ctrlWrite p page (setBits value 0 1 1))

/-- EN_WRITTEN_0: `BLK_CTRL` written with `EN` 0. -/
def execEnWritten0 (p : Party) (page value : Nat) : State → Host.Outcome State Fault Refusal :=
  onChip (ctrlWrite p page (setBits value 0 1 0))

/-- QUIESCE_WRITE: the bit alone changes. -/
def execQuiesceWrite (p : Party) (page : Nat) (on : Bool) : State → Host.Outcome State Fault Refusal :=
  onChip fun c => ctrlWrite p page (setBits (ctrlValue page c) 1 1 (b2n on)) c

/-- FENCE_WRITE: the bit alone changes. -/
def execFenceWrite (p : Party) (page : Nat) (on : Bool) : State → Host.Outcome State Fault Refusal :=
  onChip fun c => ctrlWrite p page (setBits (ctrlValue page c) 2 1 (b2n on)) c

/-- The check ends (R68, R76): RUNNING, or REFUSED with the first failing code and `EN` 0. It waits for a wake of the page's
domain that is not refused. -/
def checkEnd (p : Nat) (c : Chip) : Chip :=
  if pageState p c ≠ 1 then c
  else match pageCheck p c with
    | some (code, off) => refuse p code off (wr (Hdr.EN p) 0 (wr (Hdr.STATE p) 3 c))
    | none =>
      if pageDomain p ≠ 0x1FF ∧ domAwake (pageDomain p) c = false then c
      else pageArrives p (onHook p (wr (Hdr.STATE p) 2 c))

def execConsistencyCheckEnd (page : Nat) : State → Host.Outcome State Fault Refusal := onChip (checkEnd page)

/-- DRAIN_TO_OFF: nothing remains, or the safe state has discarded it (R68, R71, R820). -/
def execDrainToOff (page : Nat) : State → Host.Outcome State Fault Refusal :=
  onChip fun c =>
    if pageState page c = 5 ∧ rdb (Hdr.EN page) c = false ∧ (pageIdle page c || rdb Reg.RST_SAFE_STATE c) = true then
      pageOff false page c
    else c

/-- A write of BLK_ERR_COUNT with `CLEAR` 1 (R59). -/
def errCountWrite (party : Party) (p value : Nat) (c : Chip) : Chip :=
  if !hasHeader p then c
  else if !guardOk party p c then refuse p 0x07 0x28 c
  else if bit value 31 then wr (Hdr.ERR_COUNT p) 0 c else c

def execErrCountClear (p : Party) (page : Nat) : State → Host.Outcome State Fault Refusal :=
  onChip (errCountWrite p page (2 ^ 31))

end Sys2Proof.Machine
end

