-- ==== Sys2Proof/Machine/Stalls.lean ====
section
/-! DEFINITION. Stalls (chapter 19): entries and pools, the STL commands, reset, freeze, save and restore, service images, doorbell pages. -/

namespace Sys2Proof.Machine

/-! ### Resources of a stall (R736, R737) -/

/-- Where a kind of resource stands in a stall's entry: the word and bits of its count and of its first index (word 0 for a
kind without one), how many the device has, the greatest count of a stall. -/
structure ResKind where
  cOff : Nat
  cHi : Nat
  cLo : Nat
  fOff : Nat
  fHi : Nat
  fLo : Nat
  total : Nat
  most : Nat
deriving DecidableEq, Repr

/-- The kinds, by their numbers of R754. -/
def resKinds : List ResKind :=
  [⟨0x10, 5, 0, 0x100, 11, 0, 4096, 32⟩, ⟨0x10, 14, 8, 0x104, 12, 0, 8192, 64⟩, ⟨0x10, 22, 16, 0x104, 28, 16, 8192, 64⟩,
   ⟨0x10, 30, 24, 0, 0, 0, 768, 64⟩, ⟨0x14, 18, 16, 0x114, 19, 16, 16, 4⟩, ⟨0x14, 5, 0, 0x108, 11, 0, 4093, 32⟩,
   ⟨0x14, 13, 8, 0x108, 27, 16, 4096, 32⟩, ⟨0x18, 10, 0, 0x10C, 15, 0, 65536, 1024⟩, ⟨0x18, 24, 16, 0x110, 12, 0, 8192, 256⟩,
   ⟨0x1C, 2, 0, 0x110, 23, 16, 256, 4⟩, ⟨0x14, 27, 24, 0x114, 7, 0, 256, 8⟩, ⟨0x1C, 14, 8, 0, 0, 0, 65280, 64⟩,
   ⟨0x1C, 22, 16, 0x114, 12, 8, 336, 64⟩]
def resKind (k : Nat) : ResKind := resKinds.getD k ⟨0, 0, 0, 0, 0, 0, 0, 0⟩

def stallCount (s k : Nat) (c : Chip) : Nat := stallF s (resKind k).cOff (resKind k).cHi (resKind k).cLo c
def stallFirst (s k : Nat) (c : Chip) : Nat := stallF s (resKind k).fOff (resKind k).fHi (resKind k).fLo c

/-- The engine and channel of local index `j`, as engine * 64 + channel. -/
def stallChan (s j : Nat) (c : Chip) : Nat := stallF s (0x180 + 2 * j) 3 0 c * 64 + stallF s (0x180 + 2 * j) 13 8 c

/-- The resources of a kind by global index: a channel as engine * 64 + channel, a member by its core, a digest context that the
stall holds. -/
def stallRes (s k : Nat) (c : Chip) : List Nat :=
  if k = 3 then (List.range (stallCount s k c)).map fun j => stallChan s j c
  else if k = 11 then (c.wmk.filter fun e => e.2.owner == s).map (·.1)
  else if k = 12 then (if stallCount s k c = 0 then [] else poolCores (stallFirst s k c) c)
  else (List.range (stallCount s k c)).map fun j => stallFirst s k c + j

/-- A core number as an index. -/
def coreFin (n : Nat) : Fin 336 := ⟨n % 336, Nat.mod_lt _ (by decide)⟩

/-- Stalls that are not FREE. -/
def liveStalls (c : Chip) : List Nat := (List.range 2048).filter fun s => stallState s c != 0

/-- The owner code is one that is no stall's. -/
def foreignCode (o : Nat) : Bool := ownerValid o && !isStallCode o

/-- A global index is not free: another stall's range holds it, or an owner that is no stall. -/
def resTaken (k i : Nat) (c : Chip) : Bool :=
  ((liveStalls c).any fun s => decide (stallFirst s k c ≤ i) && decide (i < stallFirst s k c + stallCount s k c)) ||
  (match k with
   | 0 => foreignCode (qpOwner i c)
   | 1 => foreignCode (rxOwner i c)
   | 2 => foreignCode (txOwner i c)
   | 4 => rd (Reg.COL_OWNER i) c != 0xFFFF
   | 5 => foreignCode (palOwner i c)
   | 6 => foreignCode (inkOwner i c)
   | 7 => foreignCode (regionF i 0x10 63 48 c) && regionF i 0x10 32 32 c == 1
   | 8 => decide (i < rd Reg.SEP_STALL_BASE c)
   | 9 => rd (Reg.SEP_TABLE_OWNER i) c != 0xFFFF
   | 10 => rd (Reg.KEY_OWNER i) c != 0xFFFF
   | _ => false)

/-- The Mover channels that a mask of engines offers, in ascending order. -/
def freeChans (mask : Nat) (c : Chip) : List Nat :=
  (bitList 12 mask).flatMap fun e => ((List.range 64).filter fun ch =>
    movOwner e ch c == 0xFFFF && !rdb (Reg.MOV_CH_EN e ch) c).map fun ch => e * 64 + ch

/-- The enabled cores of no pool, and the lowest pool that has neither kind nor member. -/
def freeCores (c : Chip) : List Nat := (List.range 336).filter fun n => rd (Reg.CHN_POOL_OF n) c == 0xFF && !isDisabled n c
def freePool (c : Chip) : Option Nat := (List.range 32).find? fun p => rd (Reg.CHN_KIND p) c == 0 && (poolCores p c).isEmpty

/-- The digest contexts that stalls may claim or others hold. -/
def wmkPromised (c : Chip) : Nat :=
  ((liveStalls c).map fun s => stallCount s 11 c).sum + (c.wmk.filter fun e => !isStallCode e.2.owner && e.2.owner != 0xFFFF).length

/-- The global indices that a stall's count of a kind would get; none when the pool cannot be had (R736, R738). -/
def resOffer (s k : Nat) (c : Chip) : Option (List Nat) :=
  let n := stallCount s k c
  let enough := fun (l : List Nat) => if n ≤ l.length then some (l.take n) else none
  if n = 0 then some []
  else if k = 3 then enough (freeChans (stallF s 0x20 11 0 c) c)
  else if k = 11 then (if wmkPromised c + n ≤ 65280 then some [] else none)
  else if k = 12 then (if (freePool c).isSome then enough (freeCores c) else none)
  else ((List.range ((resKind k).total + 1 - n)).find? fun i => (List.range n).all fun j => !resTaken k (i + j) c).map
    fun i => (List.range n).map (i + ·)

/-- The `OWNER` and `GEN` of a context, and nothing else, written (R739, R744). -/
def resGen (k i o g : Nat) (c : Chip) : Chip :=
  match k with
  | 0 => qpPut i 0x18 47 32 g (qpPut i 0x18 15 0 o c)
  | 1 => rxPut i 8 47 32 g (rxPut i 8 31 16 o c)
  | 2 => txPut i 8 47 32 g (txPut i 8 31 16 o c)
  | 3 => wr (Reg.MOV_GEN (i / 64) (i % 64)) g (wr (Reg.MOV_OWNER (i / 64) (i % 64)) o c)
  | 4 => wr (Reg.COL_GEN i) g (wr (Reg.COL_OWNER i) o c)
  | 5 => palPut i 0x10 31 16 g (palPut i 0x10 15 0 o c)
  | 6 => putF spDev (inkBase i c + 0x18) 47 32 g (putF spDev (inkBase i c + 0x18) 15 0 o c)
  | 7 => regionPut i 0x10 63 48 o c
  | 9 => wr (Reg.SEP_TABLE_OWNER i) o c
  | 10 => wr (Reg.KEY_OWNER i) o c
  | _ => c

/-- A context in RESET, a rule or region without `VALID`, a channel OFF. -/
def resRest (k i : Nat) (c : Chip) : Chip :=
  match k with
  | 0 => setQp i AhnQp.idle (qpPut i 0x40 1 0 0 c)
  | 1 => setRx i RxQ.idle (rxPut i 0x20 0 0 0 c)
  | 2 => txPut i 0x20 0 0 0 { c with txTail := mapPut 0 c.txTail i 0 }
  | 3 => movState (i / 64) (i % 64) 0 c
  | 5 => setPalQ i PalQ.idle (palPut i 0x20 0 0 0 c)
  | 6 => setInk i IntakeQ.idle c
  | 7 => regionPut i 0x10 32 32 0 c
  | _ => c

/-- The resources of one kind given to stall `s` (R736, R739). -/
def resGive (s k : Nat) (is : List Nat) (c : Chip) : Chip :=
  let r := resKind k
  let c := is.foldl (fun c i => resRest k i (resGen k i s (stallGen s c) c)) c
  match k, is with
  | _, [] => c
  | 3, _ => (is.zip (List.range is.length)).foldl (fun c x =>
      wr (Reg.MOV_PRIO_CAP (x.1 / 64) (x.1 % 64)) (stallF s 0xD8 1 0 c)
        (stallPut s (0x180 + 2 * x.2) 13 8 (x.1 % 64) (stallPut s (0x180 + 2 * x.2) 3 0 (x.1 / 64) c))) c
  | 8, i :: _ => stallPut s r.fOff r.fHi r.fLo i (is.foldl (fun c i => ruleSet 0 i { SepRule.none with owner := s } c) c)
  | 12, _ =>
    let p := (freePool c).getD 0
    let c := is.foldl (fun c n => wr (Reg.CHN_POOL_OF n) p { c with numbered := setDel c.numbered n }) c
    recountPool p (wr (Reg.CHN_STALL p) s (wr (Reg.CHN_KIND p) 3 (stallPut s r.fOff r.fHi r.fLo p c)))
  | _, i :: _ => stallPut s r.fOff r.fHi r.fLo i c

/-! ### CREATE (R738, R739) -/

/-- The fields of the manager's record, as (byte offset, lowest bit, width); the device's own fields of word 0 among them. -/
def recordFields : List (Nat × Nat × Nat) :=
  [(0, 0, 3), (0, 4, 1), (0, 8, 1), (0, 16, 16), (4, 0, 20), (8, 0, 8), (0x10, 0, 6), (0x10, 8, 7), (0x10, 16, 7), (0x10, 24, 7),
   (0x14, 0, 6), (0x14, 8, 6), (0x14, 16, 3), (0x14, 24, 4), (0x18, 0, 11), (0x18, 16, 9), (0x1C, 0, 3), (0x1C, 8, 7), (0x1C, 16, 7),
   (0x20, 0, 12), (0xC0, 0, 32), (0xC4, 0, 24), (0xC8, 0, 32), (0xCC, 0, 26), (0xD0, 0, 32), (0xD4, 0, 32), (0xD8, 0, 2),
   (0xDC, 0, 32), (0xE0, 0, 4), (0xE0, 12, 52), (0xE8, 12, 52)] ++
  (List.range 8).flatMap fun i => [(0x40 + 16 * i, 0, 64), (0x48 + 16 * i, 0, 48)]

/-- Every bit of the record outside its fields is 0. -/
def recordClean (rec : Nat) : Bool := recordFields.foldl (fun v f => setBits v (8 * f.1 + f.2.1) f.2.2 0) rec == 0

/-- No two ranges of a list overlap. -/
def disjoint : List (Nat × Nat) → Bool
  | [] => true
  | r :: t => !(t.any fun q => overlaps r.1 r.2 q.1 q.2) && disjoint t

/-- The checks of R738 on the record that stands in the entry of stall `s`, apart from blocks and pools. -/
def recordOk (s h : Nat) (c : Chip) : Bool :=
  let maps := stallMaps s c
  let log2 := stallF s 0xE0 3 0 c
  ((List.range 13).all fun k => decide (stallCount s k c ≤ (resKind k).most)) &&
  ((List.range 8).all fun i => ld spDev (stallBase s c + 0x40 + 16 * i) 8 c % 4096 == 0 && stallF s (0x48 + 16 * i) 47 0 c % 4096 == 0) &&
  disjoint maps && (maps.all fun r => decide (r.1 + r.2 ≤ 2 ^ 62)) &&
  ((bitList 8 (stallF s 8 7 0 c)).all fun a => rd (Reg.SPR_BIND_HOST a) c == h) && stallF s 0xD8 1 0 c != 0 &&
  decide (4096 ≤ stallF s 0xC4 23 0 c) && decide (33554432 ≤ stallF s 0xCC 25 0 c) && decide (9600 ≤ stallF s 0xD4 23 0 c) &&
  decide (4 ≤ log2) && decide (log2 ≤ 10) &&
  ownerReaches s (stallF s 0xE0 63 12 c * 4096) (64 * 2 ^ log2) c && ownerReaches s (stallF s 0xE8 63 12 c * 4096) (16 * 2 ^ log2) c

/-- The pages that a nonzero count of a kind needs. -/
def kindPages (s k : Nat) (c : Chip) : List Nat :=
  match k with
  | 0 | 7 => [0x40]
  | 1 | 8 | 9 => [0x28]
  | 2 => [0x30]
  | 3 => (bitList 12 (stallF s 0x20 11 0 c)).map (0x50 + ·)
  | 4 => [0x61]
  | 5 => [0x80]
  | 6 => [0x70]
  | 10 => [0x88]
  | 11 => [0x79]
  | _ => [0x60]

/-- The block type of the first block that a nonzero count needs and that is not RUNNING. -/
def missingBlock (s : Nat) (c : Chip) : Option Nat :=
  ((List.range 13).filter fun k => stallCount s k c != 0).findSome? fun k =>
    ((kindPages s k c).find? fun p => !countsRunning p c).bind blockType

/-- The pools of a stall given, or the record offset of the first count whose pool cannot be had. -/
def takePools (s : Nat) : List Nat → Chip → Option Nat × Chip
  | [], c => (none, c)
  | k :: t, c => match resOffer s k c with
    | none => (some (resKind k).cOff, c)
    | some is => takePools s t (resGive s k is c)

/-- The rate limits of a stall as its entry gives them: buckets full, its shaper committed (R739, R741, R742). -/
def stallRates (s : Nat) (c : Chip) : Chip :=
  shpCommit s (stallF s 0xD0 31 0 c) (stallF s 0xD4 23 0 c) (stallF s 0xD4 31 24 c) true false
    { c with stallMov := mapPut (0 : Int) c.stallMov s (tolUnits (stallF s 0xC4 23 0 c))
             stallPail := mapPut (0 : Int) c.stallPail s (tolUnits (stallF s 0xCC 25 0 c)) }

/-- Stall `s` of home port `h` made from the 240 bytes of a record: the result, its detail, and the chip, unchanged when it
fails. -/
def stallMake (h s gen : Nat) (bytes : List Nat) (bad : Bool) (c : Chip) : Nat × Nat × Chip :=
  if bad || !recordClean (leNat bytes) then (4, 0, c)
  else
    let e := put spDev (stallBase s c) (leBytes 4 (h * 2 ^ 8 + gen * 2 ^ 16) ++ bytes.drop 4 ++ List.replicate 272 0) c
    if !recordOk s h e then (4, 0, c)
    else match missingBlock s e with
      | some b => (4, b, c)
      | none => match takePools s (List.range 13) e with
        | (some off, _) => (3, off, c)
        | (none, e) => (0, 0, bump Reg.STL_STALLS_USED 1 (stallPut s 0 2 0 1 (stallRates s e)))

/-! ### Reset and removal (R744, R745) -/

/-- A COL queue disabled: its run ends with PEER_FAILED, its ring and its line are released (R269, R377, R409). -/
def colQueueOff (q : Nat) (c : Chip) : Chip :=
  let c := collectiveEnd q (colFail q 6 (match runOf q c with
    | some r => groupRank r.group c
    | none => 0) c)
  let c := unbindProducer 0x61 q (wr (Reg.COL_Q_EN q) 0 c)
  colRest q (wr (Reg.COL_DONE q) 0 (wr (Reg.COL_TAIL q) 0 (wr (Reg.COL_HEAD q) 0 c)))

/-- A resource at its starting state (R744 step 3). -/
def resReset (k i : Nat) (c : Chip) : Chip :=
  match k with
  | 0 => qpForceReset i c
  | 1 => if rxActive i c then rxReset i c else c
  | 2 => if txActive i c then txReset i c else c
  | 3 => movResetAt (i / 64) (i % 64) c
  | 4 => colQueueOff i c
  | 5 => if palActive i c then palResetQueue i c else c
  | 6 => if (getInk i c).state = 0 then c else intakeReset i c
  | 12 => churnStop (coreFin i) c
  | _ => c

/-- The result of an STL command in the copy of the home port (R50, R755); BUSY while another command of that port waits. -/
def stlEnd (h code detail : Nat) (c : Chip) : Chip :=
  let busy := (c.stlWait.any fun w => w.1 == h) || c.freezing.any fun s => stallHome s c == h
  let c := wrB (1 + h) Reg.STL_CMD_DETAIL detail (wrB (1 + h) Reg.STL_CMD_BUSY (b2n busy) (wrB (1 + h) Reg.STL_CMD_RESULT code c))
  if code = 0 then c else raise 0x90 0x1401 0 c

/-- The steps of R744. A FREEZE that runs ends with 0x09 (R755). -/
def stallReset (s : Nat) (c : Chip) : Chip :=
  let g := if stallGen s c = 0xFFFF then 1 else stallGen s c + 1
  let frozen := c.freezing.elem s
  let c := stallPut s 0 31 16 g (stallPut s 0 2 0 2 { c with freezing := setDel c.freezing s })
  let c := if frozen then stlEnd (stallHome s c) 9 0 c else c
  let c := (List.range 7).foldl (fun c k => (stallRes s k c).foldl (fun c i => resGen k i s g c) c) c
  let c := (List.range 13).foldl (fun c k => (stallRes s k c).foldl (fun c i => resReset k i c) c) c
  let cores := stallRes s 12 c
  let c := { c with stallCtl := mapPut StallCtl.idle c.stallCtl s StallCtl.idle, stallLog := mapPut 0 c.stallLog s 0
                    stlMembers := c.stlMembers.filter fun n => !cores.elem n }
  bump (Reg.STL_CTR 2) 1 (stallPut s 0 4 4 0 (stallPut s 0 2 0 1 c))

/-- A resource released (R745). -/
def resFree (k i : Nat) (c : Chip) : Chip :=
  match k with
  | 7 => resGen 7 i 0xFFFF 0 (if regionF i 0x10 32 32 c = 1 then regionInvalidate i c else c)
  | 8 => ruleSet 0 i SepRule.none c
  | 10 => resGen 10 i 0xFFFF 0 (pageOff false (keyPage i) (wr (Hdr.EN (keyPage i)) 0 (keyErasePage i c)))
  | 12 =>
    let p := rd (Reg.CHN_POOL_OF i) c
    let c := pageOff false (corePage i) (wr (Hdr.EN (corePage i)) 0 c)
    recountPool p (wr (Reg.CHN_POOL_OF i) 0xFF { c with numbered := setDel c.numbered i })
  | k => resGen k i 0xFFFF 0 c

/-- REMOVE (R745): reset, then everything released and the entry zeroed. -/
def stallRemove (s : Nat) (c : Chip) : Chip :=
  let c := stallPut s 0 2 0 4 (stallReset s c)
  let pool := stallFirst s 12 c
  let has := stallCount s 12 c != 0
  let c := (List.range 13).foldl (fun c k => (stallRes s k c).foldl (fun c i => resFree k i c) c) c
  let c := if has then wr (Reg.CHN_STALL pool) 0 (wr (Reg.CHN_KIND pool) 0 c) else c
  let c := wmkReleaseOwner s c
  let c := (c.kvSeqs.filter fun q => q.owner == s && !q.eph).foldl (fun c q => seqFree q c) c
  let c := shpSet s Shaper.off { c with stallMov := mapPut 0 c.stallMov s 0, stallPail := mapPut 0 c.stallPail s 0 }
  bump Reg.STL_STALLS_USED (2 ^ 12 - 1) (zero spDev (stallBase s c) 512 c)

/-! ### FREEZE and THAW (R749, R751) -/

/-- Every part of a stall is idle. -/
def stallIdle (s : Nat) (c : Chip) : Bool :=
  ((stallRes s 0 c).all fun n => (getQp n c).works.isEmpty && (getQp n c).recs.isEmpty && !(getQp n c).resetting) &&
  ((stallRes s 1 c).all fun q => (getRx q c).frames.isEmpty && (getRx q c).backs.isEmpty) &&
  (let rings := stallRes s 2 c
   !(c.tolFrames.any fun e => e.2.any fun f => (f.ring.map fun d => rings.elem d.ring).getD false) &&
   !(c.tolWire.any fun e => (e.2.bind fun f => f.1.ring.map fun d => rings.elem d.ring).getD false)) &&
  ((stallRes s 3 c).all fun k => (movRunOf (k / 64) (k % 64) c).isNone) && ((stallRes s 4 c).all fun q => (runOf q c).isNone) &&
  ((stallRes s 5 c).all fun q => !(c.palCmds.any fun x => x.queue == q) && (getPalQ q c).recs.isEmpty) &&
  (let ins := stallRes s 6 c
   (ins.all fun q => (getInk q c).recs.isEmpty) && !(c.herdLive.any fun n => !ctxAhnam n c && ins.elem (ctxOrigin n c))) &&
  ((stallRes s 12 c).all fun n => runState n c == 0 || runState n c == 3 || runState n c == 4)

/-- FREEZE begins: no entry is taken (`ownerRuns`), requests taken from intake queues are cancelled (R450). -/
def freezeStart (s : Nat) (c : Chip) : Chip :=
  let ins := stallRes s 6 c
  let c := bump (Reg.STL_CTR 3) 1 { c with freezing := setAdd c.freezing s }
  herdSettle ((c.herdLive.filter fun n => !ctxAhnam n c && ins.elem (ctxOrigin n c)).foldl (fun c n => (cancelCtx n c).2) c)

/-- The members of a stall that FREEZE stopped run on from their restart records (R751). -/
def membersGo (s : Nat) (c : Chip) : Chip :=
  let mine := (stallRes s 12 c).filter fun n => c.stlMembers.elem n
  mine.foldl (fun c n =>
    let pool := rd (Reg.CHN_POOL_OF n) c
    let b := (readRange s (restartSlot pool (memberOf pool n c) c) 512 c).1
    wr (Reg.CC_MARK_COUNT n) (leNat ((b.drop 328).take 8)) (wr (Reg.CC_RUN_STATE n) 1 (setCore (.churn (coreFin n)) (restartCore b) c)))
    { c with stlMembers := c.stlMembers.filter fun n => !mine.elem n }

/-- FREEZE_COMPLETE. -/
def freezeComplete (s : Nat) (c : Chip) : Chip :=
  if c.freezing.elem s && stallIdle s c then
    stlEnd (stallHome s c) 0 0 (stallPut s 0 2 0 3 { c with freezing := setDel c.freezing s })
  else c

/-- FREEZE_TIMEOUT: the stall runs on. -/
def freezeTimeout (s : Nat) (c : Chip) : Chip :=
  if c.freezing.elem s then
    raise 0x90 0x1404 0 (stlEnd (stallHome s c) 6 0 (membersGo s { c with freezing := setDel c.freezing s }))
  else c

/-! ### SAVE and RESTORE (R750, R751)

The spec gives the header, the sections and their kinds; what an entry of a section holds besides the named context is the
model's layout (log entry 40). -/

/-- The values of register fields, 8 bytes each, and the fields set from them. -/
def fldBytes (fs : List Fld) (c : Chip) : List Nat := fs.flatMap fun f => leBytes 8 (rd f c)
def fldLoad (fs : List Fld) (b : List Nat) (c : Chip) : Chip :=
  (fs.zip (List.range fs.length)).foldl (fun c x => wr x.1 (leNat ((b.drop (8 * x.2)).take 8)) c) c

def chanFields (e ch : Nat) : List Fld :=
  [Reg.MOV_LOG2_N e ch, Reg.MOV_BASE e ch, Reg.MOV_CH_EN e ch, Reg.MOV_PRIO_CAP e ch, Reg.MOV_TAIL e ch, Reg.MOV_HEAD e ch,
   Reg.MOV_DONE e ch, Reg.MOV_CH_STATE e ch, Reg.MOV_LINE0 e ch, Reg.MOV_BOUND0 e ch, Reg.MOV_LINE1 e ch, Reg.MOV_BOUND1 e ch]
def colFields (q : Nat) : List Fld :=
  [Reg.COL_LOG2_N q, Reg.COL_BASE q, Reg.COL_Q_EN q, Reg.COL_TAIL q, Reg.COL_HEAD q, Reg.COL_DONE q, Reg.COL_Q_STATE q, Reg.COL_LINE q, Reg.COL_BOUND q]
def keyFields (n : Nat) : List Fld :=
  [Reg.KEY_TX_SLOT n, Reg.KEY_RX_SLOT_A n, Reg.KEY_RX_SLOT_B n, Reg.KEY_RX_B_EN n, Reg.KEY_RX_EN n, Reg.KEY_USE_LIMIT n, Reg.KEY_RX_QP n]
def memberFields (n : Nat) : List Fld :=
  [Hdr.EN (corePage n), Hdr.STATE (corePage n), Reg.CC_MEMBER n, Reg.CC_RUN_STATE n, Reg.CC_ENTRY n, Reg.CC_WDOG_LIMIT n, Reg.CC_HALT_CODE n,
   Reg.CC_TRAP_CAUSE n, Reg.CC_TRAP_PC n, Reg.CC_MARK_PC n, Reg.CC_MARK_COUNT n] ++
  (List.range 8).flatMap (fun i => [Reg.CC_IN_LINE n i, Reg.CC_IN_BOUND n i, Reg.CC_IN_COUNT n i]) ++
  (List.range 4).flatMap fun j => [Reg.CC_OUT_LINE n j, Reg.CC_OUT_BOUND n j]

/-- The bytes that SAVE writes for one resource. -/
def resSave (s k i : Nat) (c : Chip) : List Nat :=
  match k with
  | 0 => ldBytes spDev (qpBase i c) 128 c ++ (let q := getQp i c; leBytes 2 q.sqTail ++ leBytes 2 q.rqTail ++ leBytes 2 q.cqHead ++ leBytes 2 q.sqNext)
  | 1 => ldBytes spDev (rxBase i c) 64 c ++ leBytes 8 (getRx i c).tail
  | 2 => ldBytes spDev (txBase i c) 64 c ++ leBytes 8 (mapGet 0 c.txTail i)
  | 3 => fldBytes (chanFields (i / 64) (i % 64)) c
  | 4 => fldBytes (colFields i) c
  | 5 => ldBytes spDev (palBase i c) 64 c ++ leBytes 4 (getPalQ i c).sqTail ++ leBytes 4 (getPalQ i c).cqHead
  | 6 => ldBytes spDev (inkBase i c) 64 c ++
    (let q := getInk i c; leBytes 2 q.state ++ leBytes 2 q.tail ++ leBytes 2 q.head ++ leBytes 2 q.cqHead ++ leBytes 2 q.cqTail ++ List.replicate 6 0)
  | 7 => ldBytes spDev (regionBase i c) 64 c
  | 8 => (let x := ruleGet 0 i c; leBytes 64 x.value ++ leBytes 64 x.mask ++ leBytes 16 x.action ++ leBytes 8 (b2n x.valid) ++ leBytes 8 x.hits)
  | 9 => (List.range 512).flatMap fun j => leBytes 2 (mapGet 0 c.sepTables (tabKey i j))
  | 10 => fldBytes (keyFields i) c
  | 11 => (let x := wmkGet i c; leBytes 8 x.seed0 ++ leBytes 8 x.seed1 ++ leBytes 8 x.sum0 ++ leBytes 8 x.sum1 ++ leBytes 8 x.adds ++ leBytes 8 (b2n x.spoiled))
  | _ =>
    let p := rd (Reg.CHN_POOL_OF i) c
    (readRange s (restartSlot p (memberOf p i c) c) 512 c).1 ++ ldBytes (spImem i) 0 65536 c ++ leBytes 8 (b2n (c.stlMembers.elem i)) ++
      leBytes 8 (rd (Reg.CHN_IMAGE p) c) ++ leBytes 8 (rd (Reg.CHN_RESTART p) c) ++ leBytes 8 (rd (Reg.CHN_AUTO_RESTART p) c) ++ fldBytes (memberFields i) c

/-- The bytes of one entry of each kind. -/
def resSize (k : Nat) : Nat :=
  match k with
  | 0 => 136 | 1 => 72 | 2 => 72 | 3 => 96 | 4 => 72 | 5 => 72 | 6 => 80 | 7 => 64 | 8 => 160 | 9 => 1024 | 10 => 56 | 11 => 48
  | _ => 66080 + 8 * 43

/-- The kinds of resources that each section after the first holds, in order. -/
def sectionKinds : List (List Nat) := [[0], [1, 2], [3], [4], [5, 6], [7], [8, 9], [10], [11], [12]]

/-- A section: its 16 B header and its entries. -/
def imageSection (no entries : Nat) (body : List Nat) : List Nat :=
  leBytes 4 (no + entries * 2 ^ 16) ++ leBytes 4 body.length ++ List.replicate 8 0 ++ body

/-- The state image of a stall (R750). -/
def stallImage (s : Nat) (c : Chip) : List Nat :=
  let body := imageSection 1 1 (ldBytes spDev (stallBase s c) 512 c) ++
    ((sectionKinds.zip (List.range 10)).flatMap fun x =>
      imageSection (x.2 + 2) (x.1.map fun k => (stallRes s k c).length).sum (x.1.flatMap fun k => (stallRes s k c).flatMap fun i => resSave s k i c))
  leBytes 4 (1 + rd (Hdr.MAJOR 0x90) c * 2 ^ 16) ++ List.replicate 4 0 ++ leBytes 8 (stallGen s c) ++ leBytes 8 (64 + body.length) ++
    leBytes 4 (crc32 body) ++ List.replicate 36 0 ++ body

/-- A global index of the source carried over to the destination. -/
def reindex (old new n i : Nat) : Nat := if old ≤ i ∧ i < old + n then new + (i - old) else i

/-- The producer lines of a restored resource bound, where no producer holds them. -/
def bindFree (lines : List Nat) (page sub : Nat) (c : Chip) : Chip :=
  lines.foldl (fun c l => if lineTaken l c then c else bindProducer l page sub c) c

/-- One resource set from its bytes of an image. `re` carries a global index of a kind over. -/
def resLoad (s k i : Nat) (re : Nat → Nat → Nat) (b : List Nat) (c : Chip) : Chip :=
  let w := fun off n => leNat ((b.drop off).take n)
  let g := stallGen s c
  match k with
  | 0 =>
    let c := resGen 0 i s g (put spDev (qpBase i c) (b.take 128) c)
    let c := setQp i { AhnQp.idle with sqTail := w 128 2, rqTail := w 130 2, cqHead := w 132 2, sqNext := w 134 2 } c
    if qpState i c ≠ 0 ∧ qpF i 0x18 60 60 c = 1 then bindFree [qpF i 0x18 59 48 c] 0x40 i c else c
  | 1 =>
    let c := setRx i { RxQ.idle with tail := w 64 8 } (resGen 1 i s g (put spDev (rxBase i c) (b.take 64) c))
    if rxActive i c && rxF i 0x10 12 12 c == 1 then bindFree [rxF i 0x10 11 0 c] 0x28 i c else c
  | 2 =>
    let c := resGen 2 i s g (put spDev (txBase i c) (b.take 64) { c with txTail := mapPut 0 c.txTail i (w 64 8) })
    if txActive i c && txF i 0x10 12 12 c == 1 then bindFree [txF i 0x10 11 0 c] 0x30 i c else c
  | 3 =>
    let c := fldLoad (chanFields (i / 64) (i % 64)) b c
    let c := movState (i / 64) (i % 64) (rd (Reg.MOV_CH_STATE (i / 64) (i % 64)) c) c
    if rdb (Reg.MOV_CH_EN (i / 64) (i % 64)) c then bindFree (movLines (i / 64) (i % 64) c) (movPage (i / 64)) (i % 64) c else c
  | 4 =>
    let c := fldLoad (colFields i) b c
    if rdb (Reg.COL_Q_EN i) c && rdb (Reg.COL_BOUND i) c then bindFree [rd (Reg.COL_LINE i) c] 0x61 i c else c
  | 5 =>
    let c := setPalQ i { PalQ.idle with sqTail := w 64 4, cqHead := w 68 4 } (resGen 5 i s g (put spDev (palBase i c) (b.take 64) c))
    if palActive i c && palF i 0x14 12 12 c == 1 then bindFree [palF i 0x14 11 0 c] 0x80 i c else c
  | 6 => setInk i { IntakeQ.idle with state := w 64 2, tail := w 66 2, head := w 68 2, cqHead := w 70 2, cqTail := w 72 2 }
      (resGen 6 i s g (put spDev (inkBase i c) (b.take 64) c))
  | 7 => resGen 7 i s g (put spDev (regionBase i c) (b.take 64) c)
  | 8 =>
    let kind := bits (w 128 16) 2 0
    let action := if kind = 2 then setBits (w 128 16) 24 8 (re 9 (bits (w 128 16) 31 24)) else setBits (w 128 16) 8 13 (re 1 (bits (w 128 16) 20 8))
    ruleSet 0 i { SepRule.none with value := setBits (w 0 64) 8 11 s, mask := w 64 64, action := action, owner := s, valid := w 144 8 == 1, hits := w 152 8 } c
  | 9 => (List.range 512).foldl (fun c j => { c with sepTables := mapPut 0 c.sepTables (tabKey i j) (re 1 (w (2 * j) 2)) }) c
  | 10 => fldLoad (keyFields i) b (wr (Reg.KEY_SLOT_STATE i) 0 c) |> fun c => wr (Reg.KEY_RX_QP i) (re 0 (rd (Reg.KEY_RX_QP i) c)) c
  | 11 => wmkSet i { owner := s, seed0 := w 0 8, seed1 := w 8 8, sum0 := w 16 8, sum1 := w 24 8, adds := w 32 8, spoiled := w 40 8 == 1 } c
  | _ =>
    let p := rd (Reg.CHN_POOL_OF i) c
    let c := wr (Reg.CHN_AUTO_RESTART p) (w 66072 8) (wr (Reg.CHN_RESTART p) (w 66064 8) (wr (Reg.CHN_IMAGE p) (w 66056 8) c))
    let c := fldLoad (memberFields i) (b.drop 66080) c
    let c := wr (Reg.CC_POOL i) p (put (spImem i) 0 ((b.drop 512).take 65536) { c with numbered := setAdd c.numbered i })
    let c := writeRange s (restartSlot p (rd (Reg.CC_MEMBER i) c) c) (b.take 512) c
    let c := if w 66048 8 = 1 then { c with stlMembers := setAdd c.stlMembers i } else c
    let c := (List.range 8).foldl (fun c j => if rdb (Reg.CC_IN_BOUND i j) c then bindConsumer (rd (Reg.CC_IN_LINE i j) c) (.core i j) c else c) c
    (List.range 4).foldl (fun c j => if rdb (Reg.CC_OUT_BOUND i j) c then bindFree [rd (Reg.CC_OUT_LINE i j) c] (corePage i) j c else c) c

/-- The bodies of the sections of an image, in order. -/
def imageBodies : Nat → List Nat → List (Nat × List Nat)
  | 0, _ => []
  | fuel + 1, b =>
    let n := leNat ((b.drop 4).take 4)
    (leNat ((b.drop 2).take 2), (b.drop 16).take n) :: imageBodies fuel (b.drop (16 + n))

/-- The resources of the kinds of a section set from its body, in order. -/
def loadSection (s : Nat) (re : Nat → Nat → Nat) : List (Nat × Nat) → List Nat → Chip → Chip
  | [], _, c => c
  | (k, i) :: t, b, c => loadSection s re t (b.drop (resSize k)) (resLoad s k i re (b.take (resSize k)) c)

/-- The lowest free digest contexts. -/
def freeWmk (n : Nat) (c : Chip) : List Nat := ((List.range 65280).filter fun i => (wmkGet i c).owner == 0xFFFF).take n

/-- RESTORE (R751). -/
def stallRestore (h s : Nat) (c : Chip) : Nat × Nat × Chip :=
  let a := rdB (1 + h) Reg.STL_CMD_ADDR c
  let head := ldBytes (spHost h) a 64 c
  let n := leNat ((head.drop 0x10).take 8)
  let w0 := leNat (head.take 4)
  if n < 64 + 528 ∨ 0x4000000 < n then (7, 0, c)
  else
    let body := ldBytes (spHost h) (a + 64) (n - 64) c
    if w0 % 2 ^ 16 ≠ 1 ∨ leNat ((head.drop 0x18).take 4) ≠ crc32 body ∨ anyPoison (spHost h) a n c = true then (7, 0, c)
    else if w0 / 2 ^ 16 ≠ rd (Hdr.MAJOR 0x90) c then (8, 0, c)
    else
      let parts := imageBodies 11 body
      let old := (parts.getD 0 (0, [])).2
      let gen := leNat ((head.drop 8).take 8) + 1
      let record := leBytes 4 0 ++ leBytes 4 (rdB (1 + h) Reg.STL_CMD_PASID c) ++ (old.drop 8).take 0xE8
      match stallMake h s (if 0xFFFF < gen then 1 else gen) record false c with
      | (0, d, c) =>
        let of := fun (hi lo off : Nat) => bits (leNat ((old.drop off).take 8)) hi lo
        let re := fun k i => let r := resKind k; reindex (of r.fHi r.fLo r.fOff) (stallFirst s k c) (stallCount s k c) i
        let c := (sectionKinds.zip (parts.drop 1)).foldl (fun c x =>
          let ids := x.1.flatMap fun k => (if k = 11 then freeWmk (min (stallCount s 11 c) x.2.1) c else stallRes s k c).map fun i => (k, i)
          loadSection s re ids x.2.2 c) c
        (0, d, stallPut s 0 2 0 3 c)
      | r => r

/-! ### Service images (R752, R753) -/

/-- The place of service image `s`. -/
def imagePlace (s : Nat) (c : Chip) : Nat := rd Reg.STL_SERVICE_AREA c + 0x4000000 * s

/-- LOAD_SERVICE. -/
def serviceLoad (h s : Nat) (c : Chip) : Nat × Nat × Chip :=
  let a := rdB (1 + h) Reg.STL_CMD_ADDR c
  let b := ldBytes (spHost h) a 64 c
  let w := fun off n => leNat ((b.drop off).take n)
  let src := w 0 8
  let n := w 8 4
  let entry := w 0x10 4
  let mask := w 0x18 4
  if anyPoison (spHost h) a 64 c || src % 4096 != 0 || n % 4096 != 0 || n == 0 || decide (0x4000000 < n) || entry % 4 != 0 || w 0xC 4 != 0 ||
     w 0x14 4 != 0 || w 0x1C 36 != 0 || decide (2 ^ 24 ≤ mask) || c.images.any fun e => Nat.land e.2 mask != 0 then (4, 0, c)
  else
    let at0 := imagePlace s c
    let c := copyMem (spHost h) src spDev at0 n c
    let c := { c with images := mapPut 0 c.images s (mapGet 0 c.images s ||| mask) }
    let c := (List.range 24).foldl (fun c w =>
      if mask.testBit w then
        let i : CoreId := .wayside ⟨w % 24, Nat.mod_lt _ (by decide)⟩
        let c := setCore i { CoreSt.reset with pc := at0 + entry } c
        if domAwake (357 + w) c then c else requestWake (357 + w) .work c
      else c) c
    (0, 0, c)

/-- STOP_SERVICE. -/
def serviceStop (s : Nat) (c : Chip) : Chip :=
  wmkReleaseOwner (0xB000 + s) (keyEraseOwner (0xB000 + s) { c with images := mapPut 0 c.images s 0 })

/-! ### The commands (R752–R755) -/

/-- The writing port is the stall's home; a FREE stall has none yet. -/
def stlHomeOk (h s : Nat) (c : Chip) : Bool := stallState s c == 0 || stallHome s c == h

/-- The state of a stall takes a command: CREATE and RESTORE on FREE, FREEZE on ACTIVE, SAVE and THAW on FROZEN, the others on both;
none while a FREEZE runs. -/
def stlStateOk (cmd s : Nat) (c : Chip) : Bool :=
  let st := stallState s c
  !c.freezing.elem s &&
  (if cmd = 0 ∨ cmd = 7 then st == 0 else if cmd = 5 then st == 1 else if cmd = 6 ∨ cmd = 8 then st == 3 else st == 1 || st == 3)

/-- What a command on a stall does, as (result, detail, chip); FREEZE answers later. -/
def stlEffect (h cmd s : Nat) (c : Chip) : Nat × Nat × Chip :=
  let a := rdB (1 + h) Reg.STL_CMD_ADDR c
  match cmd with
  | 0 => stallMake h s 1 (ldBytes (spHost h) a 240 c) (anyPoison (spHost h) a 240 c) c
  | 1 => (0, 0, stallRemove s c)
  | 2 => (0, 0, stallReset s c)
  | 3 =>
    if 0x1000000000 < ((stallMaps s c).map (·.2)).sum then (5, 0, c)
    else (0, 0, stallPut s 0 4 4 1 { c with stallLog := mapPut 0 c.stallLog s a })
  | 4 => (0, 0, stallPut s 0 4 4 0 { c with stallLog := mapPut 0 c.stallLog s 0 })
  | 5 => (0, 0, freezeStart s c)
  | 6 => (0, 0, put (spHost h) a (stallImage s c) c)
  | 7 => stallRestore h s c
  | 8 => (0, 0, membersGo s (stallPut s 0 2 0 1 c))
  | 9 =>
    let e := put spDev (stallBase s c + 0xC0) (ldBytes (spHost h) (a + 0xC0) 0x1C c) c
    if anyPoison (spHost h) (a + 0xC0) 0x1C c || stallF s 0xC4 31 24 e != 0 || stallF s 0xCC 31 26 e != 0 || stallF s 0xD8 31 2 e != 0 || !recordOk s h e
    then (4, 0, c) else (0, 0, stallRates s e)
  | _ => (2, 0, c)

/-- A command carried out: the control service's for a stall, the device's own for a service image. -/
def stlRun (h cmd s : Nat) (c : Chip) : Chip :=
  if cmd = 10 ∨ cmd = 11 then
    if !holdsSem (.host ⟨h % 2, Nat.mod_lt _ (by decide)⟩) 0 c then stlEnd h 10 0 c
    else if cmd = 10 then (let r := serviceLoad h s c; stlEnd h r.1 r.2.1 r.2.2)
    else stlEnd h 0 0 (serviceStop s c)
  else if !stlHomeOk h s c then stlEnd h 1 0 c
  else if !stlStateOk cmd s c then stlEnd h 2 0 c
  else
    let r := stlEffect h cmd s c
    if cmd = 5 then wrB (1 + h) Reg.STL_CMD_BUSY 1 r.2.2 else stlEnd h r.1 r.2.1 r.2.2

/-- Image 0, the control service, runs (R753). -/
def controlRuns (c : Chip) : Bool := mapGet 0 c.images 0 != 0

/-- Commands that waited for image 0. -/
def stlPump (c : Chip) : Chip :=
  if controlRuns c then c.stlWait.foldl (fun c w => stlRun w.1 w.2.1 w.2.2 c) { c with stlWait := [] } else c

/-- A write of `CMD_GO` by PF0 of a host port (R753). -/
def stlCommand (p : Party) (cmd s : Nat) : Chip → Chip :=
  regAccess p 0x90 0x200 (cmd + s * 16 + 2 ^ 31) fun c =>
    match p with
    | .host h =>
      if !working 0x90 c then stlEnd h.val 2 0 c
      else if cmd = 10 ∨ cmd = 11 ∨ controlRuns c = true then stlPump (stlRun h.val cmd s c)
      else wrB (1 + h.val) Reg.STL_CMD_BUSY 1 { c with stlWait := c.stlWait ++ [(h.val, cmd, s)] }
    | _ => refuse 0x90 0x03 0x200 c

/-- STALL_CREATE. -/
def execStallCreate (p : Party) (s : Fin 2048) : State → Host.Outcome State Fault Refusal := onChip (stlCommand p 0 s.val)
/-- STALL_REMOVE. -/
def execStallRemove (p : Party) (s : Fin 2048) : State → Host.Outcome State Fault Refusal := onChip (stlCommand p 1 s.val)
/-- STALL_RESET. -/
def execStallReset (p : Party) (s : Fin 2048) : State → Host.Outcome State Fault Refusal := onChip (stlCommand p 2 s.val)
/-- LOG_START. -/
def execLogStart (p : Party) (s : Fin 2048) : State → Host.Outcome State Fault Refusal := onChip (stlCommand p 3 s.val)
/-- LOG_STOP. -/
def execLogStop (p : Party) (s : Fin 2048) : State → Host.Outcome State Fault Refusal := onChip (stlCommand p 4 s.val)
/-- FREEZE. -/
def execFreeze (p : Party) (s : Fin 2048) : State → Host.Outcome State Fault Refusal := onChip (stlCommand p 5 s.val)
/-- FREEZE_COMPLETE. -/
def execFreezeComplete (s : Fin 2048) : State → Host.Outcome State Fault Refusal := onChip (freezeComplete s.val)
/-- FREEZE_TIMEOUT. -/
def execFreezeTimeout (s : Fin 2048) : State → Host.Outcome State Fault Refusal := onChip (freezeTimeout s.val)
/-- SAVE. -/
def execSave (p : Party) (s : Fin 2048) : State → Host.Outcome State Fault Refusal := onChip (stlCommand p 6 s.val)
/-- STALL_RESTORE. -/
def execStallRestore (p : Party) (s : Fin 2048) : State → Host.Outcome State Fault Refusal := onChip (stlCommand p 7 s.val)
/-- THAW. -/
def execThaw (p : Party) (s : Fin 2048) : State → Host.Outcome State Fault Refusal := onChip (stlCommand p 8 s.val)
/-- SET_LIMITS. -/
def execSetLimits (p : Party) (s : Fin 2048) : State → Host.Outcome State Fault Refusal := onChip (stlCommand p 9 s.val)
/-- LOAD_SERVICE: `CMD_STALL`[7:0] is the image. -/
def execLoadService (p : Party) (s : Nat) : State → Host.Outcome State Fault Refusal := onChip (stlCommand p 10 (s % 256))
/-- STOP_SERVICE. -/
def execStopService (p : Party) (s : Nat) : State → Host.Outcome State Fault Refusal := onChip (stlCommand p 11 (s % 256))

/-! ### Doorbell pages (R732, R740) -/

/-- A write dropped (R740). -/
def stallDrop (c : Chip) : Chip := raise 0x90 0x1402 0 (bump (Reg.STL_CTR 0) 1 c)

/-- The tail or head that offset `off` of the doorbell page of function `f` addresses; none beyond the stall's counts. -/
def stallBell (s f off v : Nat) (c : Chip) : Option (Chip → Chip) :=
  let p : Party := .stall ⟨s % 2048, Nat.mod_lt _ (by decide)⟩
  let slot := fun (k j : Nat) (g : Nat → Chip → Chip) => if j < stallCount s k c then some (g (stallFirst s k c + j)) else none
  let none4 := some (fun (c : Chip) => c)
  if f = 1 then
    if off < 0x800 then slot 0 (off / 64) fun n => match off % 64 with
      | 0 => qpSqTail p n v
      | 4 => qpRqTail p n v
      | 8 => qpCqHead p n v
      | _ => id
    else if off < 0xA00 then slot 1 ((off - 0x800) / 8) fun q => if off % 8 = 0 then rxTail p q v else id
    else if off < 0xC00 then slot 2 ((off - 0xA00) / 8) fun q => if off % 8 = 0 then txTail p q v else id
    else if off < 0xE00 then
      let j := (off - 0xC00) / 8
      if j < stallCount s 3 c then some (if off % 8 = 0 then movTail p (stallChan s j c / 64) (stallChan s j c % 64) v else id) else none
    else if off < 0xE20 then slot 4 ((off - 0xE00) / 8) fun q => if off % 8 = 0 then colTailWrite p q v else id
    else
      let r := mapGet StallCtl.idle c.stallCtl s
      let set := fun (r : StallCtl) => some (fun (c : Chip) => { c with stallCtl := mapPut StallCtl.idle c.stallCtl s r })
      if off = 0xF80 then (if stallState s c = 0 then none else set { r with tail := v % 2 ^ 15 })
      else if off = 0xF88 then (if stallState s c = 0 then none else set { r with cqHead := v % 2 ^ 15 })
      else none4
  else if f = 2 then
    if off < 0x800 then slot 5 (off / 64) fun q => match off % 64 with
      | 0 => palSqTail p q v
      | 8 => palCqHead p q v
      | _ => id
    else none4
  else if f = 3 then
    if off < 0x800 then slot 6 (off / 64) fun q => match off % 64 with
      | 4 => intakeDoorbell p q false v
      | 8 => intakeDoorbell p q true v
      | _ => id
    else none4
  else none4

/-- STALL_DOORBELL: a write on host port `h` to offset `off` of the page of stall `s` in function `f`. -/
def stallDoorbell (h s f off v : Nat) (c : Chip) : Chip :=
  if !working 0x90 c || (stallState s c != 0 && stallHome s c != h) then c
  else if stallState s c = 2 ∨ stallState s c = 4 then stallDrop c
  else match stallBell s f off v c with
    | some g => g c
    | none => stallDrop c

def execStallDoorbell (h : Fin 2) (s : Fin 2048) (f off value : Nat) : State → Host.Outcome State Fault Refusal :=
  onChip (stallDoorbell h.val s.val f off value)

end Sys2Proof.Machine
end

