-- ==== Sys2Proof/Machine/Boot.lean ====
section
/-! DEFINITION. Boot, images and updates (chapter 20): the directory, the checks of an image, the ROM, chip reset, the update commands, the live update; and the frames of the management port, which a live update keeps (R779, R861, R862). -/

namespace Sys2Proof.Machine

/-! ### Frames of the management port -/

/-- A datagram on port 47267 (R862): a reclaim notice, or dropped. -/
def mgmtTake (src : Nat) (m : Option LbyMsg) (c : Chip) : Chip :=
  let ours := match m with
    | some x => src == rd Reg.SBI_MGMT_PEER c && x.jobId == rd Reg.LBY_JOB_ID c
    | none => false
  if ours then
    let c := bump (Reg.MST_CTR 4) 1 c
    match m with
    | some x => lbyNotice x.a0 c
    | none => c
  else raise 0xB0 0x1B06 0 (bump (Reg.MST_CTR 5) 1 c)

/-- A TIME record (R850): `TIME_STATE`, `DISC_SRC`, step size. -/
def timeRecord (step : Nat) (c : Chip) : Chip :=
  telemetry 8 6 0 (leBytes 4 (rd Reg.MST_TIME_STATE c) ++ leBytes 4 (rd Reg.MST_DISC_SRC c) ++ leBytes 8 step) c

/-- `TIME_STATE` written; a change is told. -/
def timeState (v : Nat) (c : Chip) : Chip :=
  if rd Reg.MST_TIME_STATE c = v then c else timeRecord 0 (wr Reg.MST_TIME_STATE v c)

/-- `FREQ_TRIM` within 200 ppm (R846): 13,107,200 units to either side. -/
def trimLimit (t : Nat) : Nat :=
  let x := toSigned 32 (t % 2 ^ 32)
  ofSigned 32 (if x < -13107200 then -13107200 else if 13107200 < x then 13107200 else x)

/-- An event of the discipline source `src` (R846, R847): the trim; the state passes through ACQUIRING to LOCKED. -/
def discipline (src trim : Nat) (locked : Bool) (c : Chip) : Chip :=
  if rd Reg.MST_DISC_SRC c ≠ src then c
  else
    let s := rd Reg.MST_TIME_STATE c
    timeState (if locked && (s == 1 || s == 2) then 2 else 1) (wr Reg.MST_FREQ_TRIM (trimLimit trim) c)

/-- A frame of the management port taken (R847, R861, R862). -/
def frameTake (c : Chip) (f : MgmtFrame) : Chip :=
  match f with
  | .datagram src m => mgmtTake src m c
  | .echo src data => emit (.icmp src data) c
  | .sync trim err locked =>
    if rd Reg.MST_DISC_SRC c = 1 then discipline 1 trim locked (wr Reg.MST_TIME_ERR_NS err c) else c

/-- A frame that arrives (R779): kept in the hold of a live update, up to 256. -/
def frameArrive (f : MgmtFrame) (c : Chip) : Chip :=
  if !c.boot.hold then frameTake c f
  else if c.boot.kept.length < 256 then { c with boot := { c.boot with kept := c.boot.kept ++ [f] } }
  else { c with boot := { c.boot with dropped := c.boot.dropped + 1 } }

/-- MGMT_DATAGRAM. -/
def execMgmtDatagram (src : Nat) (m : Option LbyMsg) : State → Host.Outcome State Fault Refusal := onChip (frameArrive (.datagram src m))

/-- ICMP_ECHO. -/
def execIcmpEcho (src : Nat) (data : List Nat) : State → Host.Outcome State Fault Refusal := onChip (frameArrive (.echo src data))

/-- PTP_SYNC. -/
def execPtpSync (trim : Nat) (err : Nat) (locked : Bool) : State → Host.Outcome State Fault Refusal :=
  onChip (frameArrive (.sync trim err locked))

/-! ### The directory (R758, R759) -/

/-- The words 0x00, 0x04 and 0x08 of directory copy `k`. -/
def dirWords (k : Nat) (c : Chip) : Nat × Nat × Nat :=
  (ld (spFlash 0) (0x10000 * k) 4 c, ld (spFlash 0) (0x10000 * k + 4) 4 c, ld (spFlash 0) (0x10000 * k + 8) 4 c)

/-- The copy has a valid CRC. -/
def dirValid (k : Nat) (c : Chip) : Bool :=
  crc32 (ldBytes (spFlash 0) (0x10000 * k) 12 c) == ld (spFlash 0) (0x10000 * k + 12) 4 c

/-- The copy in force: valid, with the higher `DIR_SEQ`. -/
def dirCopy (c : Chip) : Option Nat :=
  match dirValid 0 c, dirValid 1 c with
  | true, true => some (if (dirWords 0 c).1 < (dirWords 1 c).1 then 1 else 0)
  | true, false => some 0
  | false, true => some 1
  | false, false => none

/-- The word at 0x04 of the directory in force; 0 when no copy is valid. -/
def dirFlags (c : Chip) : Nat := match dirCopy c with
  | some k => (dirWords k c).2.1
  | none => 0
def dirActive (c : Chip) : Nat := bits (dirFlags c) 0 0
def dirTrialValid (c : Chip) : Bool := bit (dirFlags c) 1
def dirTrial (c : Chip) : Nat := bits (dirFlags c) 2 2
def dirTries (c : Chip) : Nat := bits (dirFlags c) 11 8

/-- The directory rewritten with another word at 0x04, in the copy not in force, `DIR_SEQ` raised by 1. -/
def dirWrite (flags : Nat) (c : Chip) : Chip :=
  let w := match dirCopy c with
    | some k => dirWords k c
    | none => (0, 0, 0)
  let k := match dirCopy c with
    | some k => 1 - k
    | none => 0
  let b := leBytes 4 (w.1 + 1) ++ leBytes 4 flags ++ leBytes 4 w.2.2
  put (spFlash 0) (0x10000 * k) (b ++ leBytes 4 (crc32 b)) c

/-! ### Images (R760–R762) -/

/-- Where the image of a source stands in flash: slots A and B, the recovery image. -/
def imgFlash (k : Nat) : Nat × Nat := if k = 0 then (spFlash 0, 0x100000) else if k = 1 then (spFlash 0, 0x1100000) else (spFlash 1, 0)

/-- Bits `[hi:lo]` of the word at `off` of an image's header. -/
def hdrBits (img : List Nat) (off hi lo : Nat) : Nat := bits (leNat ((img.drop off).take 4)) hi lo
def imgLen (img : List Nat) : Nat := hdrBits img 0x10 31 0
def imgSvn (img : List Nat) : Nat := hdrBits img 0xC 7 0
def imgKey (img : List Nat) : Nat := hdrBits img 0xC 9 8
def imgEntry (img : List Nat) : Nat := hdrBits img 0x18 31 0
def imgBody (img : List Nat) : List Nat := (img.drop 512).take (imgLen img)

/-- The image of a source: its header and as much body as the header names, at most 4 MiB. -/
def imgBytes (k : Nat) (c : Chip) : List Nat :=
  let p := imgFlash k
  ldBytes p.1 p.2 (min 0x400000 (512 + ld p.1 (p.2 + 0x10) 4 c)) c

/-- Every byte of a list is 0. -/
def allZero (b : List Nat) : Bool := b.all (· == 0)

/-- Step 1 of R762: `MAGIC`, `HDR_VERSION`, `KIND`, `BODY_LEN`, and every reserved byte 0. `KIND` suits the place where one is
given. -/
def imgFormOk (kind : Option Nat) (img : List Nat) : Bool :=
  let k := hdrBits img 4 23 16
  hdrBits img 0 31 0 == 0x57465651 && hdrBits img 4 15 0 == 1 && decide (k ≤ 1) && (match kind with
    | some x => x == k
    | none => true) &&
  imgLen img != 0 && imgLen img % 64 == 0 && decide (imgLen img + 512 ≤ 0x400000) && decide (imgLen img + 512 ≤ img.length) &&
  hdrBits img 4 31 24 == 0 && hdrBits img 0xC 31 10 == 0 && allZero ((img.drop 0x1C).take 0x24) && allZero ((img.drop 0x100).take 0x100)

/-- The key slot is programmed and not revoked (R762, R763). -/
def keySlotLive (n : Nat) (c : Chip) : Bool := (rd Reg.BOOT_KEY_PROGRAMMED c).testBit n && !(rd Reg.BOOT_KEY_REVOKED c).testBit n

/-- The checks of R762 in order, as the result code of the first that fails; 0 when every one holds. -/
def imgCheck (kind : Option Nat) (img : List Nat) (c : Chip) : Nat :=
  let pub := (img.drop 0x40).take 96
  if !imgFormOk kind img then 3
  else if !keySlotLive (imgKey img) c then 5
  else if sha384 pub ≠ Config.keyHash (imgKey img) then 4
  else if imgSvn img < rd Reg.BOOT_ROLLBACK_COUNT c then 6
  else if !ecdsaVerify (beNat pub) (beNat ((img.drop 0xA0).take 96))
      (sha384 (img.take 0xA0 ++ (img.drop 0x100).take 0x100 ++ imgBody img)) then 4
  else 0

/-- What the BOOT page shows of the image of source `k` after a check. -/
def imgNote (k : Nat) (ok : Bool) (img : List Nat) (c : Chip) : Chip :=
  let c := wrb (Reg.BOOT_IMG_VALID k) ok c
  if ok then wr (Reg.BOOT_IMG_KEY k) (imgKey img) (wr (Reg.BOOT_IMG_SVN k) (imgSvn img) (wr (Reg.BOOT_IMG_VERSION k) (hdrBits img 8 31 0) c))
  else c

/-- The base of a half of the Steward's always-on memory (R765). -/
def aonHalf (h : Nat) : Nat := 0x400000 * h

/-- What the BOOT page shows of the running image. -/
def imgRunning (src : Nat) (img : List Nat) (c : Chip) : Chip :=
  wr Reg.BOOT_BOOT_SOURCE src (wr Reg.BOOT_FW_VERSION (hdrBits img 8 31 0) (wr Reg.BOOT_FW_SVN (imgSvn img)
    (wr Reg.BOOT_FW_KEY_SLOT (imgKey img) c)))

/-! ### The ROM (R764–R768) -/

/-- The candidates in order. -/
def romCandidates (c : Chip) : List Nat :=
  match dirCopy c with
  | none => [0, 1, 2]
  | some _ =>
    ((if dirTrialValid c && decide (0 < dirTries c) then [dirTrial c] else []) ++ [dirActive c, 1 - dirActive c, 2]).eraseDups

/-- The ROM runs an image of source `src`: body in always-on memory, the Steward at `ENTRY`, FAULT_N released (R765, R766, R825). -/
def romRun (src : Nat) (img : List Nat) (c : Chip) : Chip :=
  let c := put spAon (aonHalf 0) (imgBody img) c
  let c := setCore .steward { CoreSt.reset with pc := aonHalf 0 + imgEntry img } c
  faultPin { wr Reg.BOOT_BOOT_STATE 2 (imgRunning src img c) with
    boot := { c.boot with half := 0, entry := imgEntry img, romFault := false } }

/-- The candidates tried one after another; none passing, the loader waits (R768). -/
def romTry : List Nat → Chip → Chip
  | [], c => faultPin { wr Reg.BOOT_BOOT_STATE 6 c with boot := { c.boot with romFault := true } }
  | k :: t, c =>
    let img := imgBytes k c
    let ok := imgCheck (some (k / 2)) img c == 0
    let c := imgNote k ok img c
    if ok then
      let c := if k < 2 ∧ dirTrialValid c = true ∧ dirTrial c = k ∧ 0 < dirTries c then
          dirWrite (setBits (dirFlags c) 8 4 (dirTries c - 1)) c
        else c
      romRun k img c
    else romTry t (raise 5 0x1501 0 (wr Reg.BOOT_FAILED_SOURCES (rd Reg.BOOT_FAILED_SOURCES c ||| 2 ^ k) c))

/-- The ROM boots with a cause (R764): 0 POWER_ON, 1 CHIP_RESET, 2 STEWARD_WDOG. The Steward's work ends. -/
def romBoot (cause : Nat) (c : Chip) : Chip :=
  let c := wr Reg.BOOT_UPD_BUSY 0 { c with boot := { c.boot with hold := false, job := none } }
  let c := wr Reg.BOOT_FAILED_SOURCES 0 (wr Reg.BOOT_BOOT_CAUSE cause (wr Reg.BOOT_BOOT_STATE 1 c))
  let c := if dirValid 0 c != dirValid 1 c then raise 5 0x1504 1 c else c
  let c := wr Reg.BOOT_BOOT_COUNT (match dirCopy c with
    | some k => (dirWords k c).2.2
    | none => 0) c
  let c := (List.range 2).foldl (fun c k => wrb (Reg.BOOT_IMG_TRIAL k) (dirTrialValid c && dirTrial c == k) c) c
  romTry (romCandidates c) c

/-- POWER_ON: PWR_GOOD has risen; not booted yet. -/
def powerOn (c : Chip) : Chip := if c.module.good && rd Reg.BOOT_BOOT_STATE c == 0 then romBoot 0 c else c

def execPowerOn : State → Host.Outcome State Fault Refusal := onChip powerOn

/-- The VERSION record (R850). -/
def versionRecord (c : Chip) : Chip :=
  let w := fun (fs : List Fld) => leBytes 4 ((fs.map fun f => rd f c * 2 ^ f.lo).sum)
  telemetry 6 5 0 (w [Reg.BOOT_BOOT_STATE, Reg.BOOT_BOOT_SOURCE, Reg.BOOT_BOOT_CAUSE, Reg.BOOT_FAILED_SOURCES] ++ w [Reg.BOOT_FW_VERSION] ++
    w [Reg.BOOT_FW_SVN, Reg.BOOT_FW_KEY_SLOT, Reg.BOOT_ROLLBACK_COUNT, Reg.BOOT_KEY_PROGRAMMED, Reg.BOOT_KEY_REVOKED] ++ w [Reg.BOOT_ROM_VERSION]) c

/-- The pages that boot brings to RUNNING (R58). -/
def bootPages : List Nat := [0, 1, 2, 3, 4, 5, 6, 8, 9, 0xA0, 0xA1, 0xA2, 0xA3, 0xA4, 0xA5, 0xA6, 0xB0]

/-- BOOT_READY (R766 steps 5 to 7). A reboot of the Steward alone changes no page and no domain. -/
def bootReady (c : Chip) : Chip :=
  if rd Reg.BOOT_BOOT_STATE c ≠ 2 then c
  else
    let c := if rd Reg.BOOT_BOOT_CAUSE c = 2 then c
      else
        let c := bootPages.foldl (fun c p => if pageState p c = 0 then wr (Hdr.STATE p) 2 (wr (Hdr.EN p) 1 c) else c) c
        let c := (List.range 431).foldl (fun c d => setAwake d true c) (wr Reg.PWR_PLL_ON 15 c)
        wr Reg.BOOT_BOOT_TIME_US ((freeVal c).toNat % 180001) (useFree c)
    versionRecord (wr Reg.BOOT_BOOT_STATE 3 c)

def execBootReady : State → Host.Outcome State Fault Refusal := onChip bootReady

/-- LOADER_IMAGE: the loader's image runs from memory when it passes (R768). -/
def loaderImage (img : List Nat) (c : Chip) : Chip :=
  if rd Reg.BOOT_BOOT_STATE c = 6 ∧ imgCheck none img c = 0 then romRun 3 img c else c

def execLoaderImage (img : List Nat) : State → Host.Outcome State Fault Refusal := onChip (loaderImage img)

/-! ### Chip reset (R826, R828, R841) -/

/-- The page is in the always-on domain (R790). -/
def alwaysOn (p : Nat) : Bool := (decide (2 ≤ p) && decide (p ≤ 6)) || p == 0xB0 || (decide (0x1000 ≤ p) && decide (p < 0x1100))

/-- A key of the register file survives a chip reset: an always-on page's, and the spare and retirement records of a memory
page, which the EEPROM holds. -/
def survives (k : Nat) : Bool :=
  let p := (k % 2 ^ 48) / (128 * 0x1000)
  alwaysOn p || (decide (0xA0 ≤ p) && decide (p ≤ 0xA6) && decide (0x304 ≤ k / 128 % 0x1000))

/-- Memory outside the device proper: hosts, accelerators, always-on memory, flash, SSDs. -/
def memOutside (k : Nat) : Bool := let sp := k / 2 ^ 64; decide (1 ≤ sp) && decide (sp < 1000)

/-- The device as a reset leaves it: what always-on registers, EEPROM, OTP, flash and the outside world hold stays. -/
def chipCold (c : Chip) : Chip :=
  { Chip.reset with
    regs := c.regs.filter fun e => survives e.1
    held := c.held.filter fun e => alwaysOn (e.1 / 0x1000)
    mem := c.mem.filter fun e => memOutside e.1
    poison := c.poison.filter fun l => memOutside (64 * l)
    palJournal := c.palJournal
    perstAt := c.perstAt
    boot := { BootSt.reset with half := c.boot.half }
    module := c.module
    stepNow := c.stepNow
    uartRx := c.uartRx
    out := c.out
    free := c.free }

/-- A region's hardware step is forced by failed sensors of its die (R806): 0 north, 1 south. -/
def stepForced (r : Nat) (c : Chip) : Bool :=
  decide (r < 2) && decide (5 ≤ (c.sensorFailed.filter fun i => decide (24 * r ≤ i) && decide (i < 24 * r + 24)).length)

/-- A chip reset: what ends with it in the always-on domain (R810, R820, R845, R850, R868), the key store erased, the Steward
rebooted. -/
def chipReset (c : Chip) : Chip :=
  let t := now c
  let n := stepForced 0 c
  let s := stepForced 1 c
  let c := (List.range 256).foldl (fun c i => keyErasePage i c) c
  let c := chipCold c
  let c := if n then wr (Reg.THM_HW_STEP 0) 0 (wr (Reg.THM_STEP 0) (rd (Reg.THM_FW_STEP 0) c) c) else c
  let c := if s then wr (Reg.THM_HW_STEP 1) 0 (wr (Reg.THM_STEP 1) (rd (Reg.THM_FW_STEP 1) c) c) else c
  let c := (List.range 14).foldl (fun c k => wr (Reg.PWR_DOM_AWAKE k) 0 c) (wr Reg.PWR_PLL_ON 0 c)
  let c := wr Reg.THM_TRIP_SENSOR 0 (wr Reg.THM_TRIPPED 0 c)
  let c := wr Reg.RST_FATAL_CAUSE 0 (wr Reg.RST_FAULT_PULSE 0 (wr Reg.RST_SAFE_STATE 0 c))
  let c := wr Reg.RST_LAST_TIME t (wr Reg.RST_LAST_TARGET 0 (wr Reg.RST_LAST_KIND 6 (bump (Reg.RST_CTR 6) 1 c)))
  let c := wr Reg.MST_MS_TIME 0 (wr Reg.MST_TEL_SEQ 0 c)
  let c := wr Reg.SBI_JTAG_FAILS 0 (wr Reg.SBI_JTAG_SCOPE 0 (wr Reg.SBI_JTAG_STATE 0 c))
  romBoot 1 (pageLost 0x88 c)

/-! ### The update commands (R771–R776) -/

/-- The slot that is not running; with none of the two running, the one that is not `ACTIVE`. -/
def spareSlot (c : Chip) : Nat :=
  let s := rd Reg.BOOT_BOOT_SOURCE c
  if s < 2 then 1 - s else 1 - dirActive c

/-- A command ends: `UPD_RESULT`, and the VERSION record. -/
def updEnd (code : Nat) (c : Chip) : Chip := versionRecord (wr Reg.BOOT_UPD_BUSY 0 (wr Reg.BOOT_UPD_RESULT code c))

/-- A write of `UPD_GO` (R771). -/
def updCommand (p : Party) (f : Nat → Chip → Chip) : Chip → Chip :=
  regAccess p 5 0x14C 0 fun c => match p with
  | .host h =>
    if !holdsSem p 0 c then wr Reg.BOOT_UPD_RESULT 1 c
    else if rdb Reg.BOOT_UPD_BUSY c then wr Reg.BOOT_UPD_RESULT 2 c
    else f h.val c
  | _ => wr Reg.BOOT_UPD_RESULT 1 c

/-- STAGE as far as the erasure (R772): the image of `UPD_LEN` bytes at `UPD_ADDR` read and checked. -/
def stageStart (readErr : Bool) (h : Nat) (c : Chip) : Chip :=
  let a := rd Reg.BOOT_UPD_ADDR c
  let n := rd Reg.BOOT_UPD_LEN c
  if a % 4096 ≠ 0 ∨ n < 512 ∨ 0x400000 < n then updEnd 3 c
  else if readErr || anyPoison (spHost h) a n c then updEnd 0x0B c
  else
    let img := ldBytes (spHost h) a n c
    let code := imgCheck none img c
    if code ≠ 0 then updEnd code c
    else
      let k := if hdrBits img 4 23 16 = 1 then 2 else spareSlot c
      let c := wr Reg.BOOT_UPD_BUSY 1 { c with boot := { c.boot with job := some (k, img) } }
      if rd Reg.BOOT_BOOT_STATE c = 3 then wr Reg.BOOT_BOOT_STATE 4 c else c

/-- STAGE. -/
def execStage (p : Party) (readErr : Bool) : State → Host.Outcome State Fault Refusal := onChip (updCommand p (stageStart readErr))

/-- STAGE_DONE: programmed and read back, or a mismatch (R772, R784), which leaves the place with bytes that are not known. -/
def stageDone (flashErr : Bool) (c : Chip) : Chip :=
  match c.boot.job with
  | none => c
  | some (k, img) =>
    let p := imgFlash k
    let c := { c with boot := { c.boot with job := none } }
    let c := if rd Reg.BOOT_BOOT_STATE c = 4 then wr Reg.BOOT_BOOT_STATE 3 c else c
    if flashErr then
      let c := { put p.1 p.2 (freeBytes img.length c) c with free := c.free + img.length }
      updEnd 9 (raise 5 0x1503 2 (imgNote k false img c))
    else updEnd 0 (imgNote k true img (put p.1 p.2 img c))

def execStageDone (flashErr : Bool) : State → Host.Outcome State Fault Refusal := onChip (stageDone flashErr)

/-- ACTIVATE_RESET (R773); 0x0A when no image is staged. -/
def execActivateReset (p : Party) : State → Host.Outcome State Fault Refusal :=
  onChip (updCommand p fun _ c =>
    let k := spareSlot c
    if !rdb (Reg.BOOT_IMG_VALID k) c then updEnd 0x0A c
    else updEnd 0 (wr (Reg.BOOT_IMG_TRIAL k) 1 (dirWrite (dirActive c + 2 + 4 * k + 2 ^ 8) c)))

/-- CONFIRM (R774); 0x0A when no slot runs. -/
def execConfirm (p : Party) : State → Host.Outcome State Fault Refusal :=
  onChip (updCommand p fun _ c =>
    let s := rd Reg.BOOT_BOOT_SOURCE c
    if 2 ≤ s then updEnd 0x0A c
    else updEnd 0 (wr (Reg.BOOT_IMG_TRIAL 0) 0 (wr (Reg.BOOT_IMG_TRIAL 1) 0
      (dirWrite (setBits (setBits (dirFlags c) 0 1 s) 1 1 0) c))))

/-- The running slot is on trial. -/
def runsOnTrial (c : Chip) : Bool := let s := rd Reg.BOOT_BOOT_SOURCE c; decide (s < 2) && rdb (Reg.BOOT_IMG_TRIAL s) c

/-- COMMIT_SVN (R775). -/
def execCommitSvn (p : Party) : State → Host.Outcome State Fault Refusal :=
  onChip (updCommand p fun _ c =>
    let svn := rd Reg.BOOT_FW_SVN c
    if runsOnTrial c || decide (imgSvn (imgBytes 2 c) < svn) then updEnd 0x0A c
    else updEnd 0 (wr Reg.BOOT_ROLLBACK_COUNT (max (rd Reg.BOOT_ROLLBACK_COUNT c) (min 64 svn)) c))

/-- REVOKE_KEY (R776). -/
def execRevokeKey (p : Party) (slot : Fin 4) : State → Host.Outcome State Fault Refusal :=
  onChip (updCommand p fun _ c =>
    let n := slot.val
    let k := spareSlot c
    let live := (List.range 4).filter fun i => keySlotLive i c
    if rd Reg.BOOT_FW_KEY_SLOT c = n ∨ (rdb (Reg.BOOT_IMG_VALID k) c = true ∧ imgKey (imgBytes k c) = n) ∨
       imgKey (imgBytes 2 c) = n ∨ live = [n] then updEnd 0x0A c
    else updEnd 0 (wr Reg.BOOT_KEY_REVOKED (rd Reg.BOOT_KEY_REVOKED c ||| 2 ^ n) c))

/-! ### The live update (R778–R783) -/

/-- ACTIVATE_LIVE (R778 steps 1 to 3). -/
def activateLive (c : Chip) : Chip :=
  let k := spareSlot c
  let img := imgBytes k c
  let code := imgCheck (some 0) img c
  let c := imgNote k (code == 0) img c
  if code ≠ 0 then updEnd code c
  else
    let v := Config.handoverVersion (rd Reg.BOOT_FW_VERSION c)
    if v < hdrBits img 0x14 15 0 ∨ hdrBits img 0x14 31 16 < v then updEnd 7 c
    else
      let at0 := aonHalf (1 - c.boot.half)
      let c := put spAon at0 (imgBody img) c
      let c := setCore .steward { getCore .steward c with pc := at0 + imgEntry img } c
      wr Reg.BOOT_UPD_BUSY 1 (wr Reg.BOOT_BOOT_STATE 5 { c with boot := { c.boot with hold := true } })

def execActivateLive (p : Party) : State → Host.Outcome State Fault Refusal := onChip (updCommand p fun _ c => activateLive c)

/-- The hold ends: BOOT_STATE READY, its length, and the frames kept are taken (R783). -/
def holdEnd (cause code us : Nat) (c : Chip) : Chip :=
  let kept := c.boot.kept
  let c := { c with boot := { c.boot with hold := false, kept := [] } }
  let c := wr Reg.BOOT_HANDOVER_US us (wr Reg.BOOT_BOOT_CAUSE cause (wr Reg.BOOT_BOOT_STATE 3 c))
  kept.foldl frameTake (updEnd code c)

/-- HANDOVER_TAKEOVER (R778 step 4); the slot stays on trial until CONFIRM (R774). -/
def handoverTakeover (us : Nat) (c : Chip) : Chip :=
  if !c.boot.hold then c
  else
    let k := spareSlot c
    let img := imgBytes k c
    let c := { c with boot := { c.boot with half := 1 - c.boot.half, entry := imgEntry img } }
    holdEnd 3 0 us (wr (Reg.BOOT_IMG_TRIAL k) 1 (imgRunning k img c))

def execHandoverTakeover (us : Nat) : State → Host.Outcome State Fault Refusal := onChip (handoverTakeover us)

/-- HANDOVER_ROLLBACK (R780). -/
def handoverRollback (us : Nat) (c : Chip) : Chip :=
  if !c.boot.hold then c
  else holdEnd 4 8 us (raise 5 0x1502 0 (setCore .steward { CoreSt.reset with pc := aonHalf c.boot.half + c.boot.entry } c))

def execHandoverRollback (us : Nat) : State → Host.Outcome State Fault Refusal := onChip (handoverRollback us)

/-- STEWARD_WDOG (R770); in the hold it fails the handover (R780), whose length is then a free value of at most 50 ms. -/
def stewardWdog (c : Chip) : Chip :=
  let s := rd Reg.BOOT_BOOT_STATE c
  if c.boot.hold then handoverRollback ((freeVal c).toNat % 50001) (useFree c)
  else if s = 2 ∨ s = 3 ∨ s = 4 then romBoot 2 (raise 5 0x1505 2 c)
  else c

def execStewardWdog : State → Host.Outcome State Fault Refusal := onChip stewardWdog

end Sys2Proof.Machine
end

