-- ==== Sys2Proof/Machine/ControlFlow.lean ====
section
/-! DEFINITION. Branches, jumps and calls (R196, R198, R199, R206, majors 0x24–0x2E). -/

namespace Sys2Proof.Machine

/-- BEQ: branch when Vx rel Vy (R206). -/
def execBeq (i : CoreId) (x y : Fin 16) (off : BitVec 18) : State → Host.Outcome State Fault Refusal :=
  onChip (branchOp i 0x24 x y off (fun a b => a == b))

/-- BNE: branch when Vx rel Vy (R206). -/
def execBne (i : CoreId) (x y : Fin 16) (off : BitVec 18) : State → Host.Outcome State Fault Refusal :=
  onChip (branchOp i 0x25 x y off (fun a b => a != b))

/-- BLT: branch when Vx rel Vy (R206). -/
def execBlt (i : CoreId) (x y : Fin 16) (off : BitVec 18) : State → Host.Outcome State Fault Refusal :=
  onChip (branchOp i 0x26 x y off (fun a b => a.slt b))

/-- BGE: branch when Vx rel Vy (R206). -/
def execBge (i : CoreId) (x y : Fin 16) (off : BitVec 18) : State → Host.Outcome State Fault Refusal :=
  onChip (branchOp i 0x27 x y off (fun a b => !a.slt b))

/-- BLTU: branch when Vx rel Vy (R206). -/
def execBltu (i : CoreId) (x y : Fin 16) (off : BitVec 18) : State → Host.Outcome State Fault Refusal :=
  onChip (branchOp i 0x28 x y off (fun a b => a.ult b))

/-- BGEU: branch when Vx rel Vy (R206). -/
def execBgeu (i : CoreId) (x y : Fin 16) (off : BitVec 18) : State → Host.Outcome State Fault Refusal :=
  onChip (branchOp i 0x29 x y off (fun a b => !a.ult b))

/-- DBNZ: Vx = Vx − 1; branch when Vx ≠ 0; Y must be 0 (R206). -/
def execDbnz (i : CoreId) (x y : Fin 16) (off : BitVec 18) : State → Host.Outcome State Fault Refusal :=
  onChip (runInstr i (encI 0x2A x y off) fun k c =>
    if y ≠ 0 then illegal (encI 0x2A x y off)
    else
      let v := getV k x - 1
      if v = 0 then .ok (setV k x v) c none 1
      else .ok (setV k x v) c (some (branchTarget k off)) 2)

/-- J (R198, R206). -/
def execJ (i : CoreId) (off : BitVec 26) : State → Host.Outcome State Fault Refusal :=
  onChip (runInstr i (encJ 0x2C off) fun k c => .ok k c (some (jumpTarget k off)) 2)

/-- CALL: P14 = address + 4 (R196, R206). -/
def execCall (i : CoreId) (off : BitVec 26) : State → Host.Outcome State Fault Refusal :=
  onChip (runInstr i (encJ 0x2D off) fun k c =>
    .ok (setP k 14 (BitVec.ofNat 64 (k.pc + 4))) c (some (jumpTarget k off)) 2)

/-- JR: jump to Py (R206). -/
def execJr (i : CoreId) (x y z : Fin 16) : State → Host.Outcome State Fault Refusal :=
  onChip (runInstr i (encT 0x2E 0x01 x y z) fun k c => .ok k c (some (getP k y).toNat) 2)

/-- CALLR: jump to Py; P14 = address + 4 (R196, R206). -/
def execCallr (i : CoreId) (x y z : Fin 16) : State → Host.Outcome State Fault Refusal :=
  onChip (runInstr i (encT 0x2E 0x02 x y z) fun k c =>
    .ok (setP k 14 (BitVec.ofNat 64 (k.pc + 4))) c (some (getP k y).toNat) 2)

end Sys2Proof.Machine
end

