-- ==== Sys2Proof/Machine/Coprocessor.lean ====
section
/-! DEFINITION. Tile and digest operations (R152–R154, R227–R234, majors 0x38–0x3C). -/

namespace Sys2Proof.Machine

/-- GEMM_BLOCK (R155–R157, R228). -/
def execGemmBlock (i : CoreId) (sub : BitVec 6) (dn : Fin 16) (g : Bool) : State → Host.Outcome State Fault Refusal :=
  onChip (tileIssue i 0x38 sub dn g)

/-- ANCHOR (R228, R230). -/
def execAnchor (i : CoreId) (sub : BitVec 6) (dn : Fin 16) (g : Bool) : State → Host.Outcome State Fault Refusal :=
  onChip (tileIssue i 0x39 sub dn g)

/-- VREDUCE (R228, R231). -/
def execVreduce (i : CoreId) (sub : BitVec 6) (dn : Fin 16) (g : Bool) : State → Host.Outcome State Fault Refusal :=
  onChip (tileIssue i 0x3A sub dn g)

/-- CONVERT (R228). -/
def execConvert (i : CoreId) (sub : BitVec 6) (dn : Fin 16) (g : Bool) : State → Host.Outcome State Fault Refusal :=
  onChip (tileIssue i 0x3B sub dn g)

/-- DIGEST: on a Churn core as a tile operation; on a Wayside core through the MMU, before the next instruction (R228, R234). -/
def execDigest (i : CoreId) (sub : BitVec 6) (dn : Fin 16) (g : Bool) : State → Host.Outcome State Fault Refusal :=
  onChip (digestIssue i sub dn g)

end Sys2Proof.Machine
end

