-- ==== Sys2Proof/Machine/EventIsa.lean ====
section
/-! DEFINITION. Event instructions of the Churn cores (R162–R165, R178, major 0x31) and the atomics of the others (R224, major 0x32). -/

namespace Sys2Proof.Machine

/-- HALT: after the tile, HALTED with HALT_CODE = IMM16 (R153, R172); the PC stays on it (log entry 46). -/
def execHalt (i : CoreId) (x : Fin 16) (slot : BitVec 3) (imm : BitVec 16) : State → Host.Outcome State Fault Refusal :=
  onChip (fun c => eventOp i 0 x slot imm (fun n k c =>
    .ok k (wr (Reg.CC_HALT_CODE n.val) imm.toNat (wr (Reg.CC_RUN_STATE n.val) 3 c)) (some k.pc) 1) (afterTile i c))

/-- WAIT (R162, R164). -/
def execWait (i : CoreId) (x : Fin 16) (slot : BitVec 3) (imm : BitVec 16) : State → Host.Outcome State Fault Refusal :=
  onChip (eventOp i 1 x slot imm (fun n k c => waitIssue n k slot.toNat imm.toNat (getV k x).toNat false c))

/-- WAIT.M: resumes at the Milestone edge (R164). -/
def execWaitM (i : CoreId) (x : Fin 16) (slot : BitVec 3) (imm : BitVec 16) : State → Host.Outcome State Fault Refusal :=
  onChip (eventOp i 2 x slot imm (fun n k c => waitIssue n k slot.toNat imm.toNat (getV k x).toNat true c))

/-- SIGNAL: pulse producer line SLOT once the writes of a running tile operation are complete (R150, R165); slots 4–7 are illegal. -/
def execSignal (i : CoreId) (x : Fin 16) (slot : BitVec 3) (imm : BitVec 16) : State → Host.Outcome State Fault Refusal :=
  onChip (eventOp i 3 x slot imm (fun n k c =>
    if 4 ≤ slot.toNat then illegal (encE 3 x slot imm)
    else if !rdb (Reg.CC_OUT_BOUND n.val slot.toNat) c then .ok k c none 1
    else
      let line := rd (Reg.CC_OUT_LINE n.val slot.toNat) c
      if k.tile.isSome then .ok { k with sigs := k.sigs ++ [line] } c none 1
      else .pulsed line))

/-- MARK: after the tile, the core waits for the Milestone edge, which writes the record (R153, R178). -/
def execMark (i : CoreId) (x : Fin 16) (slot : BitVec 3) (imm : BitVec 16) : State → Host.Outcome State Fault Refusal :=
  onChip (fun c => eventOp i 4 x slot imm (fun _ k c => .hold { k with mark := true } c) (afterTile i c))

/-- AMOADD: Vx = old [Py]; [Py] = old op Vz (R206, R224). -/
def execAmoadd (i : CoreId) (x y z : Fin 16) : State → Host.Outcome State Fault Refusal :=
  onChip (atomicOp i 0x01 x y z fun k old => some (old + getV k z))

/-- AMOSWAP: Vx = old [Py]; [Py] = old op Vz (R206, R224). -/
def execAmoswap (i : CoreId) (x y z : Fin 16) : State → Host.Outcome State Fault Refusal :=
  onChip (atomicOp i 0x02 x y z fun k _ => some (getV k z))

/-- AMOAND: Vx = old [Py]; [Py] = old op Vz (R206, R224). -/
def execAmoand (i : CoreId) (x y z : Fin 16) : State → Host.Outcome State Fault Refusal :=
  onChip (atomicOp i 0x03 x y z fun k old => some (old &&& getV k z))

/-- AMOOR: Vx = old [Py]; [Py] = old op Vz (R206, R224). -/
def execAmoor (i : CoreId) (x y z : Fin 16) : State → Host.Outcome State Fault Refusal :=
  onChip (atomicOp i 0x04 x y z fun k old => some (old ||| getV k z))

/-- CAS: when old = Vx, [Py] = Vz; Vx = old (R206, R224). -/
def execCas (i : CoreId) (x y z : Fin 16) : State → Host.Outcome State Fault Refusal :=
  onChip (atomicOp i 0x05 x y z fun k old => if old = getV k x then some (getV k z) else none)

end Sys2Proof.Machine
end

