-- ==== Sys2Proof/Machine/Pcie.lean ====
section
/-! DEFINITION. The PCI Express ports (chapter 18): the device-memory aperture, requests of accelerators, function-level resets and resets of a host port, links, binding and power states. -/

namespace Sys2Proof.Machine

/-! ### Requests that arrive -/

/-- The sleeping page that a piece of a range needs (R29, R31, R793): a memory controller's or a core's. -/
def pieceAsleep (p : Piece) (c : Chip) : Option Nat :=
  let pages := match p.dest with
    | .mem sp a =>
      if sp = spDev then (match devChannel a with
        | some x => [0xA0 + x.1]
        | none => [])
      else if spSpad 0 ≤ sp ∧ sp < spImem 0 then [corePage (sp - spSpad 0)] else []
    | .imem n _ => [corePage n]
    | .imemAll q _ => (poolCores q c).map corePage
    | _ => []
  pages.find? fun x => pageState x c == 6

/-- The first sleeping page that a range needs. -/
def rangeAsleep (o a n : Nat) (c : Chip) : Option Nat := (route o a n c).findSome? (pieceAsleep · c)

/-- Bytes written with poison. -/
def poisonPieces : List Piece → List Nat → Chip → Chip
  | [], _, c => c
  | p :: t, bs, c =>
    poisonPieces t (bs.drop p.len) (writeTo p.dest (fun sp a c => poisonRange sp a p.len (stBytes sp a (bs.take p.len) c)) c)

/-- Bytes of a request written at a device address, poisoned when the request was. -/
def requestWrite (o a : Nat) (bs : List Nat) (poisoned : Bool) (c : Chip) : Chip :=
  if poisoned then poisonPieces (route o a bs.length c) bs c else writeRange o a bs c

/-- HEP `h` answers Unsupported Request, or drops a write (R696). -/
def hepUr (h : Nat) (read : Bool) (c : Chip) : Chip :=
  let c := raise (8 + h) 0x1105 0 (bump (Reg.HEP_CTR h 4) 1 c)
  if read then emit (.unsupported (8 + h)) c else c

/-- A host's access of the aperture served (R696, R718, R726). -/
def apertureServe (h off : Nat) (w : Option (List Nat)) (len : Nat) (poisoned : Bool) (c : Chip) : Chip :=
  let a := (rd (Reg.HEP_APERTURE_BASE h) c + off) % 2 ^ 64
  let busy := (rd (Reg.HEP_FLR_BUSY h) c).testBit 0
  match w with
  | none =>
    if busy || (route apertureCode a len c).any (fun p => p.dest == .outside) then hepUr h true c
    else let r := readRange apertureCode a len c; emit (.apertureData h r.1 r.2) c
  | some bs =>
    let c := if poisoned then raise (8 + h) 0x1104 2 (bump (Reg.HEP_CTR h 3) 1 c) else c
    if busy then c
    else
      let miss := (route apertureCode a bs.length c).any fun p => p.dest == .outside
      let c := requestWrite apertureCode a bs poisoned c
      if miss then hepUr h false c else c

/-- APERTURE_ACCESS: `len` bytes read, or bytes written, at offset `off` of PF0 BAR4; it waits for what sleeps. -/
def apertureAccess (h off : Nat) (w : Option (List Nat)) (len : Nat) (poisoned : Bool) (c : Chip) : Chip :=
  let n := match w with
    | some bs => bs.length
    | none => len
  match rangeAsleep apertureCode ((rd (Reg.HEP_APERTURE_BASE h) c + off) % 2 ^ 64) n c with
  | some p => requestWake (pageDomain p) (.aperture h off w len poisoned) c
  | none => apertureServe h off w len poisoned c

def execApertureAccess (h : Fin 2) (off : Nat) (wr : Option (List Nat)) (len : Nat) (poisoned : Bool) :
    State → Host.Outcome State Fault Refusal := onChip (apertureAccess h.val off wr len poisoned)

/-! ### Requests of an accelerator (R701–R705) -/

/-- The bytes of a request. -/
def opLen : AccOp → Nat
  | .read n => n
  | .write bs _ => bs.length
  | .fetchAdd n _ => n
  | .swap n _ => n
  | .cas n _ _ => n

/-- Unsupported Request to the accelerator on port `a`. -/
def accUr (a : Nat) (c : Chip) : Chip := emit (.unsupported (0x10 + a)) (bump (Reg.SPR_CTR a 4) 1 c)

/-- The new value of an AtomicOp of `n` bytes on an old value. -/
def atomicNew (op : AccOp) (n old : Nat) : Nat :=
  match op with
  | .fetchAdd _ v => (old + v) % 2 ^ (8 * n)
  | .swap _ v => v % 2 ^ (8 * n)
  | .cas _ x v => if old = x % 2 ^ (8 * n) then v % 2 ^ (8 * n) else old
  | _ => old

/-- A request carried out on a place that is read and written by `get` and `set`. An AtomicOp on poisoned data answers poison
and changes nothing. -/
def accRun (a : Nat) (op : AccOp) (get : Nat → Chip → List Nat × Bool) (set : List Nat → Bool → Chip → Chip) (c : Chip) : Chip :=
  match op with
  | .read n => let r := get n c; emit (.accData a r.1 r.2) c
  | .write bs bad => set bs bad c
  | op =>
    let n := opLen op
    if n ≠ 4 ∧ n ≠ 8 then accUr a c
    else
      let r := get n c
      let c := if r.2 then c else set (leBytes n (atomicNew op n (leNat r.1))) false c
      emit (.accData a r.1 r.2) c

/-- A place in the memory of a host or an accelerator. -/
def plainGet (sp addr n : Nat) (c : Chip) : List Nat × Bool := (ldBytes sp addr n c, anyPoison sp addr n c)
def plainSet (sp addr : Nat) (bs : List Nat) (bad : Bool) (c : Chip) : Chip :=
  if bad then poisonRange sp addr bs.length (stBytes sp addr bs c) else put sp addr bs c

/-- The lowest enabled inbound window that holds a bus address. -/
def accWindow (a addr : Nat) (c : Chip) : Option Nat :=
  (List.range 8).find? fun w =>
    let b := rd (Reg.SPR_IW_BASE a w) c
    decide (b ≤ addr) && decide (addr < b + rd (Reg.SPR_IW_SIZE a w) c)

/-- The window permits the request (R701, R705). -/
def windowPermits (a w : Nat) (op : AccOp) (c : Chip) : Bool :=
  let r := rdb (Reg.SPR_IW_READ a w) c
  let x := rdb (Reg.SPR_IW_WRITE a w) c
  match op with
  | .read _ => r
  | .write _ _ => x
  | _ => r && x

/-- The owner code under which a window reaches its target: HERD, KVP and LAYBY_NEAR channels (R727). -/
def windowCode (a w : Nat) (c : Chip) : Nat :=
  let act := activityOf (rd (Reg.SPR_IW_TARGET a w) c) c
  if act = 2 ∨ act = 3 ∨ act = 8 then 0x9000 + act else 0xFFFF

/-- The port to which a peer request goes (R701). -/
def accPeer (a addr : Nat) (c : Chip) : Option Nat :=
  (List.range 8).find? fun b =>
    let base := rd (Reg.SPR_ACC_BAR_ADDR b) c
    b != a && rd (Reg.SPR_BIND_HOST b) c == rd (Reg.SPR_BIND_HOST a) c && rdb (Reg.SPR_P2P_EN a) c && rdb (Reg.SPR_P2P_EN b) c &&
    decide (base ≤ addr) && decide (addr < base + rd (Reg.SPR_ACC_WIN_SIZE b) c)

/-- The device counts a request through an inbound window. -/
def windowCount (a : Nat) (op : AccOp) (c : Chip) : Chip :=
  match op with
  | .read _ => bump (Reg.SPR_CTR a 1) 1 c
  | .write _ _ => bump (Reg.SPR_CTR a 2) 1 c
  | _ => bump (Reg.SPR_CTR a 2) 1 (bump (Reg.SPR_CTR a 1) 1 c)

/-- A poisoned request received on port `a` (R728). -/
def accPoisonRx (a : Nat) (op : AccOp) (c : Chip) : Chip :=
  match op with
  | .write _ true => raise (0x10 + a) 0x1204 2 (bump (Reg.SPR_CTR a 5) 1 c)
  | _ => c

/-- The request may change what it reaches. -/
def opWriting : AccOp → Bool
  | .read _ => false
  | _ => true

/-- A request of the accelerator on port `a` routed (R701). -/
def accRoute (a : Nat) (op : AccOp) (addr : Nat) (c : Chip) : Chip :=
  let c := accPoisonRx a op c
  match accWindow a addr c with
  | some w =>
    if !windowPermits a w op c then raise (0x10 + a) 0x1203 0 (accUr a c)
    else
      let o := windowCode a w c
      let d := rd (Reg.SPR_IW_TARGET a w) c + (addr - rd (Reg.SPR_IW_BASE a w) c)
      match rangeAsleep o d (opLen op) c with
      | some p => requestWake (pageDomain p) (.accel a op addr) c
      | none => accRun a op (readRange o d) (requestWrite o d) (windowCount a op c)
  | none => match accPeer a addr c with
    | some b =>
      let c := bump (Reg.SPR_CTR a 3) 1 c
      if !portUp (0x10 + b) c then accUr a c
      else if opWriting op && rdb Reg.RST_SAFE_STATE c then c
      else accRun a op (plainGet (spAcc b) addr) (plainSet (spAcc b) addr) c
    | none =>
      let sp := spHost (rd (Reg.SPR_BIND_HOST a) c)
      accRun a op (plainGet sp addr) (plainSet sp addr) c

/-- ACCEL_REQUEST: it wakes a sleeping port and waits (R725); no request comes over a link that is down. -/
def accelRequest (a : Nat) (op : AccOp) (addr : Nat) (c : Chip) : Chip :=
  if pageState (0x10 + a) c = 6 then requestWake (pageDomain (0x10 + a)) (.accel a op addr) c
  else if portUp (0x10 + a) c then accRoute a op addr c
  else c

def execAccelRequest (a : Fin 8) (op : AccOp) (addr : Nat) : State → Host.Outcome State Fault Refusal :=
  onChip (accelRequest a.val op addr)

/-- COMPLETION_TIMEOUT on the port of a page (R691); a Mover's read aborts with code 0x03. -/
def completionTimeout (page : Nat) (chan : Option (Nat × Nat)) (written : Nat) (c : Chip) : Chip :=
  let c := match blockType page with
    | some 0x08 => raise page 0x1106 2 (bump (Reg.HEP_CTR (page - 8) 5) 1 c)
    | some 0x10 => raise page 0x1205 2 (bump (Reg.SPR_CTR (page - 0x10) 6) 1 c)
    | some 0x18 => raise page 0x1304 2 (bump (Reg.SSD_CTR (page - 0x18) 3) 1 c)
    | _ => c
  match chan with
  | some (e, ch) => if movStops e ch c then movVat e ch (movAbort e ch 0x03 written [] c) else c
  | none => c

def execCompletionTimeout (page : Nat) (chan : Option (Fin 12 × Fin 64)) (written : Nat) : State → Host.Outcome State Fault Refusal :=
  onChip (completionTimeout page (chan.map fun x => (x.1.val, x.2.val)) written)

/-! ### Function-level resets (R64, R87, R718–R721) -/

/-- `EN_HOSTn` of a host port becomes 0 on every page (R64). -/
def routesOff (h : Nat) (c : Chip) : Chip :=
  { c with regs := c.regs.filter fun (e : Nat × Nat) =>
      let p := e.1 % 2 ^ 48 / (128 * 0x1000)
      !(hasHeader p && (if h = 0 then e.1 == fldKey (Hdr.EN_HOST0 p) else e.1 == fldKey (Hdr.EN_HOST1 p))) }

/-- A semaphore released as abandoned; the grant that follows tells it, and whose it was (R87, R369). -/
def semAbandon (n : Nat) (c : Chip) : Chip :=
  let o := rd (Reg.CRS_OWNER n) c
  wr (Reg.CRS_OWNER n) 0 (wr (Reg.CRS_GRANTED n) 0
    { c with semAbandoned := setAdd (c.semAbandoned.filter fun x => x / 4 != n) (4 * n + o) })

/-- The publish rings of an owner disabled (R856). -/
def pubOff (o : Nat) (c : Chip) : Chip :=
  (List.range 32).foldl (fun c r => if rd (Reg.MST_PUB_OWNER r) c = o then wr (Reg.MST_PUB_EN r) 0 c else c) c

/-- Every queue pair of an owner to RESET with its records discarded (R369, R718). -/
def flrQps (o : Nat) (c : Chip) : Chip :=
  (List.range 4096).foldl (fun c n => if qpOwner n c = o ∧ qpState n c ≠ 0 then qpEnterReset n (qpFail n 0x0F 0 0 c) else c) c

/-- Every valid region of an owner invalidated. -/
def flrRegions (o : Nat) (c : Chip) : Chip :=
  (List.range 65536).foldl (fun c i => if regionF i 0x10 63 48 c = o ∧ regionF i 0x10 32 32 c = 1 then regionInvalidate i c else c) c

/-- Every receive queue of an owner to RESET with its write-backs discarded. -/
def flrRings (o : Nat) (c : Chip) : Chip :=
  (List.range 8192).foldl (fun c q => if rxActive q c && rxOwner q c == o then rxIdle q (rxStop q c) else c) c

/-- What a reset of function `f` does to what its port owns (R719). -/
def flrEffect (h f : Nat) (c : Chip) : Chip :=
  let o := 0x8000 + h
  match f with
  | 0 =>
    let c := (List.range 64).foldl (fun c n => if rd (Reg.CRS_OWNER n) c = 1 + h then semAbandon n c else c) (routesOff h c)
    let c := movResetOwner o (keyEraseOwner o c)
    let c := (List.range 16).foldl (fun c q => if rd (Reg.COL_OWNER q) c = o then colQueueOff q c else c) c
    pubOff o (wmkReleaseOwner o c)
  | 1 => txResetOwner o (flrRings o (flrRegions o (flrQps o c)))
  | 2 => palResetOwner o c
  | _ => intakeResetOwner o c

/-- Function `f` of host port `h` is reset; a reset that runs is joined (R721). -/
def flrRun (h f : Nat) (c : Chip) : Chip :=
  let b := rd (Reg.HEP_FLR_BUSY h) c
  if b.testBit f then c else flrEffect h f (wr (Reg.HEP_FLR_BUSY h) (b ||| 2 ^ f) c)

/-- FLR. -/
def execFlr (h : Fin 2) (f : Fin 4) : State → Host.Outcome State Fault Refusal :=
  onChip fun c => flrRun h.val f.val (raise (8 + h.val) 0x1103 0 (bump (Reg.HEP_CTR h.val 2) 1 c))

/-- FLR_COMPLETE: configuration space at its reset values; a function in D3cold stays there (R718, R724). -/
def flrComplete (h f : Nat) (c : Chip) : Chip :=
  let b := rd (Reg.HEP_FLR_BUSY h) c
  if b.testBit f then
    let c := wr (Reg.HEP_FLR_BUSY h) (setBits b f 1 0) { c with pmeStatus := setDel c.pmeStatus (4 * h + f) }
    if dState h f c = 2 then c else wr (Reg.HEP_DSTATE h) (setBits (rd (Reg.HEP_DSTATE h) c) (2 * f) 2 0) c
  else c

def execFlrComplete (h : Fin 2) (f : Fin 4) : State → Host.Outcome State Fault Refusal := onChip (flrComplete h.val f.val)

/-! ### Resets of a host port (R720, R724, R744, R826) -/

/-- HEP `LINK_UP` and its fields written. -/
def hepLink (h up speed width state : Nat) (c : Chip) : Chip :=
  wr (Reg.HEP_LINK_UP h) up (wr (Reg.HEP_SPEED h) speed (wr (Reg.HEP_WIDTH h) width (wr (Reg.HEP_LINK_STATE h) state c)))

/-- `LINK_UP` of a host port falls. -/
def hepFall (h : Nat) (c : Chip) : Chip :=
  let up := rdb (Reg.HEP_LINK_UP h) c
  let c := hepLink h 0 0 0 0 c
  if up then raise (8 + h) 0x1101 0 (bump (Reg.HEP_CTR h 0) 1 c) else c

/-- A reset of `HOME` acts on its stalls; commands of that port that wait end with 0x09 (R744, R755). -/
def homeReset (h : Nat) (c : Chip) : Chip :=
  let ws := c.stlWait.filter fun w => w.1 == h
  let c := ws.foldl (fun c _ => stlEnd h 9 0 c) { c with stlWait := c.stlWait.filter fun w => w.1 != h }
  (List.range 2048).foldl (fun c s => if stallState s c ≠ 0 ∧ stallHome s c = h then stallReset s c else c) c

/-- A hot reset sent to the Spur ports of a host port (R720). -/
def propagate (h : Nat) (c : Chip) : Chip :=
  (List.range 8).foldl (fun c a =>
    if rd (Reg.SPR_BIND_HOST a) c = h ∧ pageState (0x10 + a) c ≠ 0 then
      fencePage (0x10 + a) (linkFall (0x10 + a) (raise (0x10 + a) 0x1202 0 (emit (.hotReset a) c)))
    else c) c

/-- What the port itself shows of a reset (R726). Link-down of a link that is down, and PERST# while it is asserted, are no
event. -/
def hepReset (h : Nat) (k : HostResetKind) (c : Chip) : Option Chip :=
  match k with
  | .linkDown => if rdb (Reg.HEP_LINK_UP h) c then some (hepFall h c) else none
  | .hotReset => some (raise (8 + h) 0x1102 0 (bump (Reg.HEP_CTR h 1) 1 c))
  | .perst =>
    if (mapGet none c.perstAt h).isSome then none
    else
      let c := hepFall h (raise (8 + h) 0x1102 0 (bump (Reg.HEP_CTR h 7) 1 c))
      let c := wr Reg.SBI_PERST_IN (setBits (rd Reg.SBI_PERST_IN c) h 1 0) (wr (Reg.HEP_DSTATE h) 0xAA c)
      some { c with perstAt := mapPut none c.perstAt h (some (now c)) }

/-- HOST_RESET: link-down, hot reset or PERST# of host port `h`. PERST# of both ports at one time is a chip reset. -/
def hostReset (h : Nat) (k : HostResetKind) (c : Chip) : Chip :=
  match hepReset h k c with
  | none => c
  | some c =>
    if k = .perst ∧ mapGet none c.perstAt (1 - h) = some (now c) then chipReset c
    else
      let c := homeReset h ((List.range 4).foldl (fun c f => flrRun h f c) c)
      if rdb (Reg.HEP_PROPAGATE h) c then propagate h c else c

def execHostReset (h : Fin 2) (k : HostResetKind) : State → Host.Outcome State Fault Refusal := onChip (hostReset h.val k)

/-- HOST_LINK_UP: the link trains to L0 after PERST# is released (R690, R720, R724); the functions leave D3cold. -/
def hostLinkUp (h speed width : Nat) (c : Chip) : Chip :=
  let c := hepLink h 1 speed width 1 { c with perstAt := mapPut none c.perstAt h none, wakeN := setDel c.wakeN h }
  let c := (List.range 4).foldl (fun c f => if dState h f c = 2 then wr (Reg.HEP_DSTATE h) (setBits (rd (Reg.HEP_DSTATE h) c) (2 * f) 2 0) c
    else c) c
  wr Reg.SBI_PERST_IN (setBits (rd Reg.SBI_PERST_IN c) h 1 1) c

def execHostLinkUp (h : Fin 2) (speed width : Nat) : State → Host.Outcome State Fault Refusal := onChip (hostLinkUp h.val speed width)

/-! ### Spur and SSD links -/

/-- The page is a Spur or SSD page. -/
def isPort (p : Nat) : Bool := decide (0x10 ≤ p) && decide (p < 0x20)

/-- LINK_UP: the link of a Spur or SSD page that is not OFF or FENCED reaches L0 (R690, R714, R716). -/
def linkUp (p speed width : Nat) (c : Chip) : Chip :=
  let s := pageState p c
  if isPort p && s != 0 && s != 4 then wr (linkFld p) (1 + 2 * (speed % 8) + 16 * (width % 32) + 512) c else c

def execLinkUp (page : Nat) (speed width : Nat) : State → Host.Outcome State Fault Refusal := onChip (linkUp page speed width)

/-- SPUR_LINK_DOWN: `LINK_UP` of a Spur or SSD page falls; a RUNNING page is FENCED (R716, R729). -/
def spurLinkDown (p : Nat) (c : Chip) : Chip :=
  if !isPort p || !portUp p c then c
  else
    let was := running p c
    let c := linkFall p c
    if was then fencePage p (raise p (if p < 0x18 then 0x1201 else 0x1301) 2 c) else c

def execSpurLinkDown (page : Nat) : State → Host.Outcome State Fault Refusal := onChip (spurLinkDown page)

/-- A write of `BIND_HOST` (R713): it needs semaphore 0 and `EN` 0. -/
def bindHost (p : Party) (a value : Nat) (c : Chip) : Chip :=
  if !holdsSem p 0 c then refuse (0x10 + a) 0x07 0x100 c
  else if rdb (Hdr.EN (0x10 + a)) c then refuse (0x10 + a) 0x06 0x100 c
  else wr (Reg.SPR_BIND_HOST a) value c

/-- BIND_HOST_WRITE. -/
def execBindHostWrite (p : Party) (a : Fin 8) (value : Nat) : State → Host.Outcome State Fault Refusal :=
  onChip (regAccess p (0x10 + a.val) 0x100 value (bindHost p a.val value))

/-- D_STATE_CHANGE: function `f` enters power state `d` (R723); D3cold is PERST# of the port (R724). -/
def dStateChange (h f d : Nat) (c : Chip) : Chip :=
  if d = 2 then hostReset h .perst c else wr (Reg.HEP_DSTATE h) (setBits (rd (Reg.HEP_DSTATE h) c) (2 * f) 2 d) c

def execDStateChange (h : Fin 2) (f : Fin 4) (d : Fin 3) : State → Host.Outcome State Fault Refusal :=
  onChip (dStateChange h.val f.val d.val)

/-- LINK_WAKE: a request of the link partner wakes a sleeping page (R725). -/
def linkWake (p : Nat) (c : Chip) : Chip := if isPort p && pageState p c == 6 then requestWake (pageDomain p) .work c else c

def execLinkWake (page : Nat) : State → Host.Outcome State Fault Refusal := onChip (linkWake page)

end Sys2Proof.Machine
end

