-- ==== Sys2Proof/Machine/Thermal.lean ====
section
/-! DEFINITION. Throttle, sensors, the thermal trip and the firmware loops (R800–R809, R900), and what the supply does to them (R885, R888). -/

namespace Sys2Proof.Machine

/-! ### Regions (R800, R804) -/

/-- The greatest step of a region: 0 NORTH, 1 SOUTH, 2 WAYSIDE, 3 FABRIC. -/
def stepMax (r : Nat) : Nat := if r = 3 then 4 else 12

/-- The first sensor that serves a region, and their number. -/
def regionSensors (r : Nat) : Nat × Nat := if r = 0 then (0, 24) else if r = 1 then (24, 24) else (48, 10)

/-- The valid sensors that serve a region. -/
def validSensors (r : Nat) (c : Chip) : List Nat :=
  ((List.range (regionSensors r).2).map ((regionSensors r).1 + ·)).filter fun i => rdb (Reg.THM_VALID i) c

/-- The reading of a sensor in 1/16 °C. -/
def sensorTemp (i : Nat) (c : Chip) : Int := toSigned 16 (rd (Reg.THM_TEMP i) c)

/-- The effective step follows its two parts. -/
def stepFollow (r : Nat) (c : Chip) : Chip :=
  wr (Reg.THM_STEP r) (max (rd (Reg.THM_FW_STEP r) c) (rd (Reg.THM_HW_STEP r) c)) c

/-- A hardware step and a firmware step written. -/
def setHwStep (r v : Nat) (c : Chip) : Chip := stepFollow r (wr (Reg.THM_HW_STEP r) v c)
def setFwStep (r v : Nat) (c : Chip) : Chip := stepFollow r (wr (Reg.THM_FW_STEP r) v c)

/-- A rise of the hardware steps of some regions by `n`, each rise one error of `code` (R804). A forced step stays. -/
def stepsRise (rs : List Nat) (n code : Nat) (c : Chip) : Chip :=
  let up := rs.filter fun r => !stepForced r c && decide (rd (Reg.THM_HW_STEP r) c < stepMax r)
  raiseAll 3 (up.map fun _ => (code, 0))
    (up.foldl (fun c r => setHwStep r (min (stepMax r) (rd (Reg.THM_HW_STEP r) c + n)) c) c)

/-- THROTTLE_TEMP_CHECK: the rises of 105 °C, and the falls of every other region that R804 lets fall. -/
def tempCheck (c : Chip) : Chip :=
  let hot := fun r => (validSensors r c).any fun i => decide (1680 ≤ sensorTemp i c)
  let falls := fun r => !hot r && !stepForced r c && c.powerRise != some (now c) &&
    ((validSensors r c).all fun i => decide (sensorTemp i c < 1600)) &&
    (r == 3 || decide (rd Reg.THM_AVG10_W c < rd Reg.THM_POWER_CAP_W c))
  let rs := [0, 1, 2, 3]
  let down := rs.filter falls
  let up := rs.filter hot
  let c := down.foldl (fun c r => setHwStep r (rd (Reg.THM_HW_STEP r) c - 1) c) c
  stepsRise up 1 0x1701 c

def execThrottleTempCheck : State → Host.Outcome State Fault Refusal := onChip tempCheck

/-- THROTTLE_POWER_CHECK. -/
def powerCheck (avg50 : Nat) (c : Chip) : Chip :=
  if avg50 ≤ 1000 then c else stepsRise [0, 1, 2] 2 0x1702 { c with powerRise := some (now c) }

def execThrottlePowerCheck (avg50 : Nat) : State → Host.Outcome State Fault Refusal := onChip (powerCheck avg50)

/-- STEP_CHANGE: at a period with p mod 16 = 0 each region takes its effective step (R802). -/
def stepChange (c : Chip) : Chip :=
  if now c / 10 % 16 = 0 then
    { c with stepNow := (List.range 4).foldl (fun m r => mapPut 0 m r (rd (Reg.THM_STEP r) c)) c.stepNow }
  else c

def execStepChange : State → Host.Outcome State Fault Refusal := onChip stepChange

/-! ### Sensors (R806, R809, R900) -/

/-- A sensor fails its self-check; the fifth of a die forces the step of its region. -/
def sensorFail (i : Nat) (c : Chip) : Chip :=
  if c.sensorFailed.elem i then c
  else
    let c := wr (Reg.THM_VALID i) 0 { c with sensorFailed := setAdd c.sensorFailed i, hotSamples := mapPut 0 c.hotSamples i 0 }
    let c := (List.range 2).foldl (fun c r => if stepForced r c then setHwStep r 12 c else c) c
    raise 3 0x1703 2 c

def execSensorFail (i : Fin 76) : State → Host.Outcome State Fault Refusal := onChip (sensorFail i.val)

/-- One sensor sampled: `TEMP`, `VALID`, and the samples in a row at 115 °C or above. -/
def sampleOne (i : Nat) (t : Int) (ok : Bool) (c : Chip) : Chip :=
  if 76 ≤ i then c
  else
    let c := wr (Reg.THM_TEMP i) (ofSigned 16 t) c
    if !ok then sensorFail i c
    else if c.sensorFailed.elem i then c
    else
      let n := if 1840 ≤ t then mapGet 0 c.hotSamples i + 1 else 0
      wr (Reg.THM_VALID i) 1 { c with hotSamples := mapPut 0 c.hotSamples i n }

/-- The regions one of whose sensors reads 105 °C or above. -/
def hotRegions (c : Chip) : List Nat := [0, 1, 2, 3].filter fun r => (validSensors r c).any fun i => decide (1680 ≤ sensorTemp i c)

/-- SENSOR_SAMPLE: temperatures in 1/16 °C, the input in 10 mV and 10 mA, the 10 ms average in W. In the hold of a live update a
region that crosses the throttle threshold goes one step deeper at once (R779). -/
def sensorSample (temps : List (Nat × Int × Bool)) (volts amps avg10 : Nat) (c : Chip) : Chip :=
  let before := hotRegions c
  let c := temps.foldl (fun c x => sampleOne x.1 x.2.1 x.2.2 c) c
  let c := wr Reg.SBI_INPUT_V volts (wr Reg.SBI_INPUT_A amps c)
  let c := wr Reg.THM_AVG10_W avg10 (wr Reg.THM_INPUT_W (volts * amps / 10000) c)
  if c.boot.hold then stepsRise ((hotRegions c).filter fun r => !before.elem r) 1 0x1701 c else c

def execSensorSample (temps : List (Nat × Int × Bool)) (volts amps avg10 : Nat) : State → Host.Outcome State Fault Refusal :=
  onChip (sensorSample temps volts amps avg10)

/-- THERMAL_TRIP: two samples in a row at 115 °C or above on a valid die sensor latch the trip; domains and PLLs go off. -/
def thermalTrip (i : Nat) (c : Chip) : Chip :=
  if rdb Reg.THM_TRIPPED c || decide (mapGet 0 c.hotSamples i < 2) then c
  else
    let c := raiseFatal 3 0x1704 0 (wr Reg.THM_TRIP_SENSOR i (wr Reg.THM_TRIPPED 1 c))
    (List.range 14).foldl (fun c k => wr (Reg.PWR_DOM_AWAKE k) 0 c) (wr Reg.PWR_PLL_ON 0 { c with waking := [], pllTries := [] })

def execThermalTrip (i : Fin 64) : State → Host.Outcome State Fault Refusal := onChip (thermalTrip i.val)

/-! ### Firmware loops (R807, R808, R888) -/

/-- Firmware services its loops: it runs, and no live update holds them (R779, R808). -/
def loopsRun (c : Chip) : Bool := let s := rd Reg.BOOT_BOOT_STATE c; !c.boot.hold && (s == 3 || s == 4)

/-- `FW_STEP` of a region: what the loops ask for, or the maximum while COOLANT_OK is missed. -/
def fwFollow (r : Nat) (c : Chip) : Chip :=
  setFwStep r (if c.module.noFlow then stepMax r else min (stepMax r) (max (mapGet 0 c.loopStep r) (mapGet 0 c.loopStep (4 + r)))) c

/-- A loop's own demands, from region 0 up; `k` is 0 for the thermal loop and 4 for the power loop. -/
def loopOut (k : Nat) (vs : List Nat) (c : Chip) : Chip :=
  if !loopsRun c then c
  else
    let c := { c with loopStep := (vs.zip (List.range vs.length)).foldl (fun m x => mapPut 0 m (k + x.2) x.1) c.loopStep }
    (List.range 4).foldl (fun c r => fwFollow r c) c

/-- THERMAL_LOOP. -/
def execThermalLoop (n so w f : Nat) : State → Host.Outcome State Fault Refusal := onChip (loopOut 0 [n, so, w, f])

/-- POWER_LOOP. -/
def execPowerLoop (n so w : Nat) : State → Host.Outcome State Fault Refusal := onChip (loopOut 4 [n, so, w])

/-- VOLTAGE_LOOP. -/
def execVoltageLoop (setpoints : List Nat) : State → Host.Outcome State Fault Refusal :=
  onChip fun c => if loopsRun c then { c with setpoints := setpoints } else c

end Sys2Proof.Machine
end

