-- ==== Sys2Proof/Machine/Faults.lean ====
section
/-! DEFINITION. Fatal events, FAULT_N, resets by command, watchdogs and automatic recovery, sparing and retirement of memory (chapter 22). -/

namespace Sys2Proof.Machine

/-! ### Fatal events and FAULT_N (R818–R825) -/

/-- FABRIC_PARITY. -/
def execFabricParity : State → Host.Outcome State Fault Refusal := onChip (raiseFatal 4 0x1801 2)

/-- D2D_FAIL. -/
def execD2dFail : State → Host.Outcome State Fault Refusal := onChip (raiseFatal 4 0x1802 3)

/-- FAULT_PULSE_END: the pulse ends; a write of 0 to `FAULT_HOLD` that came within it takes effect. -/
def pulseEnd (c : Chip) : Chip :=
  if rdb Reg.RST_FAULT_PULSE c then
    let c := if c.holdClear then wr Reg.RST_FAULT_HOLD 0 c else c
    faultPin { wr Reg.RST_FAULT_PULSE 0 c with holdClear := false }
  else c

def execFaultPulseEnd : State → Host.Outcome State Fault Refusal := onChip pulseEnd

/-- A write of `FAULT_HOLD` by firmware or a holder of semaphore 0 (R823); firmware's takes the pin from the ROM (R825). -/
def faultHold (p : Party) (on : Bool) (c : Chip) : Chip :=
  if !holdsSem p 0 c then refuse 4 0x07 0x108 c
  else
    let c := if isSteward p then { c with boot := { c.boot with romFault := false } } else c
    if on then faultPin (wr Reg.RST_FAULT_HOLD 1 { c with holdClear := false })
    else if rdb Reg.RST_FAULT_PULSE c then faultPin { c with holdClear := true }
    else faultPin (wr Reg.RST_FAULT_HOLD 0 c)

/-- FAULT_HOLD_WRITE. -/
def execFaultHoldWrite (p : Party) (on : Bool) : State → Host.Outcome State Fault Refusal :=
  onChip (regAccess p 4 0x108 (2 * b2n on) (faultHold p on))

/-! ### Automatic recovery of engines (R831–R835) -/

/-- The engines that RST resets: MOV, SEP, TOL, AHN, COL, HRD, VAT, KVP, LBY, PAL, CPH (R826). -/
def isEngine (p : Nat) : Bool :=
  (decide (0x50 ≤ p) && decide (p < 0x5C)) || [0x28, 0x30, 0x40, 0x61, 0x70, 0x71, 0x72, 0x78, 0x80, 0x88].elem p

/-- The latest reset and its count. -/
def resetNote (kind target : Nat) (c : Chip) : Chip :=
  bump (Reg.RST_CTR kind) 1 (wr Reg.RST_LAST_TIME (now c) (wr Reg.RST_LAST_TARGET target (wr Reg.RST_LAST_KIND kind c)))

/-- An engine fault or watchdog: the page is FENCED; with `AUTO_RECOVER` it counts as RUNNING for its dependents until the
automatic reset ends. -/
def engineFault (p : Nat) (c : Chip) : Chip :=
  if !working p c then c
  else if rdb Reg.RST_AUTO_RECOVER c && !rdb Reg.RST_SAFE_STATE c then fenceOne p { c with recovering := setAdd c.recovering p }
  else fencePage p c

/-- AUTO_RECOVERY_END: `EN` 0, OFF, `EN` 1, and the check; on a refusal the dependents are lost. -/
def autoEnd (p : Nat) (c : Chip) : Chip :=
  if !c.recovering.elem p then c
  else if rdb Reg.RST_SAFE_STATE c then { c with recovering := setDel c.recovering p }
  else
    let c := pageOff true p (wr (Hdr.EN p) 0 c)
    let c := wr (Hdr.EN p) 1 c
    match pageCheck p c with
    | none =>
      let c := { onHook p (wr (Hdr.STATE p) 2 c) with recovering := setDel c.recovering p }
      bump (Reg.RST_CTR 7) 1 (resetNote 3 p c)
    | some (code, off) =>
      let c := refuse p code off (wr (Hdr.EN p) 0 (wr (Hdr.STATE p) 3 c))
      pageLost p (raise 4 0x1804 2 { c with recovering := setDel c.recovering p })

def execAutoRecoveryEnd (page : Nat) : State → Host.Outcome State Fault Refusal := onChip (autoEnd page)

/-- ENG_WDOG: on a page that holds work; one whose `EN` is 0 is only recorded (R835). -/
def engWdog (p : Nat) (c : Chip) : Chip :=
  if isEngine p && decide (p < 0x50 ∨ 0x5C ≤ p) && !pageIdle p c && (working p c || pageState p c == 5) then
    engineFault p (raise 4 0x1803 2 (wr Reg.RST_WDOG_BLOCK p c))
  else c

def execEngWdog (page : Nat) : State → Host.Outcome State Fault Refusal := onChip (engWdog page)

/-- STAGING_PARITY on engine `e`: the page is FENCED and its descriptors abort with 0x02; `progress` gives the bytes written of
some channels, the others' are free values (R249, R270, R831). -/
def stagingParity (e ch : Nat) (progress : List (Nat × Nat)) (c : Chip) : Chip :=
  let c := raise (movPage e) 0x0305 2 c
  if !working (movPage e) c || (movRunOf e ch c).isNone then c
  else engineFault (movPage e) (progress.foldl (fun c x => movVat e x.1 (movAbort e x.1 0x02 x.2 [] c)) c)

def execStagingParity (e : Fin 12) (c : Fin 64) (progress : List (Nat × Nat)) : State → Host.Outcome State Fault Refusal :=
  onChip (stagingParity e.val c.val progress)

/-! ### RST_CMD (R826–R830, R843) -/

/-- A write of `RST_GO` with a kind and a target: `run` answers a result code and the chip. Under way a reset of the same
domain is joined. In the safe state only a chip reset is accepted. -/
def rstCommand (p : Party) (kind target : Nat) (run : Chip → Nat × Chip) : Chip → Chip :=
  regAccess p 4 0x100 (kind + target * 2 ^ 8 + 2 ^ 31) fun c =>
    if !holdsSem p 0 c then refuse 4 0x07 0x100 c
    else
      let c := wr Reg.RST_RST_TARGET target (wr Reg.RST_RST_KIND kind c)
      if rdb Reg.RST_SAFE_STATE c && kind != 6 then wr Reg.RST_RST_RESULT 4 c
      else let r := run c; wr Reg.RST_RST_RESULT r.1 r.2

/-- RST_CHANNEL: a Mover channel by engine * 64 + channel; `written` bytes of a running descriptor were written. -/
def execRstChannel (p : Party) (target written : Nat) : State → Host.Outcome State Fault Refusal :=
  onChip (rstCommand p 0 target fun c =>
    let e := target / 64
    let ch := target % 64
    if 12 ≤ e then (1, c)
    else if c.recovering.elem (movPage e) then (3, c)
    else (0, movReset e ch written (movVat e ch (movAbort e ch 0x02 written [] (resetNote 0 target c)))))

/-- RST_STALL. -/
def execRstStall (p : Party) (target : Nat) : State → Host.Outcome State Fault Refusal :=
  onChip (rstCommand p 1 target fun c =>
    if 2048 ≤ target ∨ stallState target c = 0 then (1, c) else (0, stallReset target (resetNote 1 target c)))

/-- A core has a member to reissue. -/
def coreRuns (n : Nat) (c : Chip) : Bool := decide (n < 336) && c.numbered.elem n && working (corePage n) c && !isFailedCore n c

/-- RST_CORE. -/
def execRstCore (p : Party) (target : Nat) : State → Host.Outcome State Fault Refusal :=
  onChip (rstCommand p 2 target fun c => if coreRuns target c then (0, coreReissue (coreFin target) 0 c) else (1, c))

/-- A page fenced, then taken OFF for its owner (R829). -/
def pageReset (q : Nat) (c : Chip) : Chip := let c := fencePage q c; pageOff false q (wr (Hdr.EN q) 0 c)

/-- RST_ENGINE. -/
def execRstEngine (p : Party) (target : Nat) : State → Host.Outcome State Fault Refusal :=
  onChip (rstCommand p 3 target fun c =>
    if !isEngine target then (1, c)
    else if c.recovering.elem target then (3, c)
    else (0, pageReset target (resetNote 3 target c)))

/-- Every member of a cluster's cores reissued. -/
def clusterReissue (k : Nat) (c : Chip) : Chip :=
  (List.range 16).foldl (fun c i => if coreRuns (16 * k + i) c then coreReissue (coreFin (16 * k + i)) 0 c else c) c

/-- RST_CLUSTER. -/
def execRstCluster (p : Party) (target : Nat) : State → Host.Outcome State Fault Refusal :=
  onChip (rstCommand p 4 target fun c => if 21 ≤ target then (1, c) else (0, clusterReissue target (resetNote 4 target c)))

/-- RST_PORT: a host port's link goes down (R720); a Spur, SSD or Ethernet page goes to OFF. -/
def execRstPort (p : Party) (target : Nat) : State → Host.Outcome State Fault Refusal :=
  onChip (rstCommand p 5 target fun c =>
    if target = 8 ∨ target = 9 then (0, hostReset (target - 8) .linkDown (resetNote 5 target c))
    else if (0x10 ≤ target ∧ target < 0x24) then (0, pageReset target (resetNote 5 target c))
    else (1, c))

/-- A valid die sensor reads 95 °C or above (R810). -/
def tooHot (c : Chip) : Bool := (List.range 64).any fun i => rdb (Reg.THM_VALID i) c && decide (1520 ≤ sensorTemp i c)

/-- RST_CHIP. -/
def execRstChip (p : Party) : State → Host.Outcome State Fault Refusal :=
  onChip (rstCommand p 6 0 fun c => if tooHot c then (2, refuse 4 0x20 0x100 c) else (0, chipReset c))

/-- CLUSTER_PARITY: the error of a cluster port reissues its members. -/
def execClusterParity (c : Fin 21) : State → Host.Outcome State Fault Refusal :=
  onChip fun s => clusterReissue c.val (resetNote 4 c.val s)

/-! ### Memory errors (R838–R842, R898) -/

/-- The row that holds an address. -/
def rowOf (m addr : Nat) : Nat := alignDown addr (if m = 6 then 2048 else 1024)

/-- The record of a repair (R850): the address, and the activity of the channel. -/
def repairRecord (page addr act : Nat) (c : Chip) : Chip := telemetry 5 page 0 (leBytes 8 addr ++ leBytes 8 act) c

/-- The spares of channel `n` of memory page `m`. -/
def sparesLeft (m n : Nat) (c : Chip) : Nat := rd (Reg.MEM_SPARES_LEFT m n) c

/-- The first free entry of `RETIRED`. -/
def retireSlot (m : Nat) (c : Chip) : Option Nat := (List.range 128).find? fun e => !rdb (Reg.MEM_RETIRED_VALID m e) c

/-- A row spared, its block retired, or neither (R838–R840): the errors, and the chip. -/
def rowRepairGo (m n row : Nat) (c : Chip) : List (Nat × Nat) × Chip :=
  let act := rd (Reg.MEM_ACTIVITY m n) c
  let c := { c with rowCorr := c.rowCorr.filter fun e => e.1 != row }
  if sparesLeft m n c ≠ 0 then
    ([(0x1903, 1)], repairRecord (0xA0 + m) row act (wr (Reg.MEM_SPARES_LEFT m n) (sparesLeft m n c - 1) c))
  else match retireSlot m c with
    | some e =>
      let b := alignDown row 0x10000
      ([(0x1904, 2)], repairRecord (0xA0 + m) b act
        (wr (Reg.MEM_RETIRED_VALID m e) 1 (wr (Reg.MEM_RETIRED_ACTIVITY m e) act (wr (Reg.MEM_RETIRED_ADDR m e) b c))))
    | none => ([(0x1905, 2)], c)

/-- Corrected reads of a row within the last hour. -/
def rowCount (row : Nat) (c : Chip) : Nat :=
  (c.rowCorr.filter fun e => e.1 == row && decide (now c ≤ e.2 + 3600000000000)).length

/-- MEMORY_READ_ERROR: a read of device memory at `addr` meets an error (R898). -/
def memReadError (addr : Nat) (k : MemErr) (c : Chip) : Chip :=
  match devChannel addr with
  | none => c
  | some (m, n) =>
    if retiredHit addr 1 c then c
    else
      let row := rowOf m addr
      let page := 0xA0 + m
      match k with
      | .corrected =>
        let c := { c with rowCorr := c.rowCorr ++ [(row, now c)] }
        let th := rd (Reg.MEM_CORR_THRESHOLD m) c
        if th ≠ 0 ∧ th ≤ rowCount row c then
          let r := rowRepairGo m n row c
          raiseAll page ((0x1901, 1) :: r.1) r.2
        else raise page 0x1901 1 c
      | .uncorrectable =>
        let r := rowRepairGo m n row (poisonRange spDev (alignDown addr 64) 64 c)
        raiseAll page ((0x1902, 2) :: r.1) r.2

def execMemoryReadError (addr : Nat) (k : MemErr) : State → Host.Outcome State Fault Refusal := onChip (memReadError addr k)

end Sys2Proof.Machine
end

