-- ==== Sys2Proof/Machine/LoadStore.lean ====
section
/-! DEFINITION. Loads and stores (R201–R206, majors 0x14–0x20). -/

namespace Sys2Proof.Machine

/-- LB (R206). -/
def execLb (i : CoreId) (x y : Fin 16) (mode : BitVec 2) (disp : BitVec 16) : State → Host.Outcome State Fault Refusal :=
  onChip (loadV i 0x14 1 true x y mode disp)

/-- LBU (R206). -/
def execLbu (i : CoreId) (x y : Fin 16) (mode : BitVec 2) (disp : BitVec 16) : State → Host.Outcome State Fault Refusal :=
  onChip (loadV i 0x15 1 false x y mode disp)

/-- LH (R206). -/
def execLh (i : CoreId) (x y : Fin 16) (mode : BitVec 2) (disp : BitVec 16) : State → Host.Outcome State Fault Refusal :=
  onChip (loadV i 0x16 2 true x y mode disp)

/-- LHU (R206). -/
def execLhu (i : CoreId) (x y : Fin 16) (mode : BitVec 2) (disp : BitVec 16) : State → Host.Outcome State Fault Refusal :=
  onChip (loadV i 0x17 2 false x y mode disp)

/-- LW (R206). -/
def execLw (i : CoreId) (x y : Fin 16) (mode : BitVec 2) (disp : BitVec 16) : State → Host.Outcome State Fault Refusal :=
  onChip (loadV i 0x18 4 true x y mode disp)

/-- LWU (R206). -/
def execLwu (i : CoreId) (x y : Fin 16) (mode : BitVec 2) (disp : BitVec 16) : State → Host.Outcome State Fault Refusal :=
  onChip (loadV i 0x19 4 false x y mode disp)

/-- LD (R206). -/
def execLd (i : CoreId) (x y : Fin 16) (mode : BitVec 2) (disp : BitVec 16) : State → Host.Outcome State Fault Refusal :=
  onChip (loadV i 0x1A 8 false x y mode disp)

/-- LDP: Px = 64 bits; a loaded base keeps the loaded value (R204, R206). -/
def execLdp (i : CoreId) (x y : Fin 16) (mode : BitVec 2) (disp : BitVec 16) : State → Host.Outcome State Fault Refusal :=
  onChip (loadOp i 0x1B 8 x y mode disp (fun k v => setP k x (BitVec.ofNat 64 v)))

/-- SB (R206). -/
def execSb (i : CoreId) (x y : Fin 16) (mode : BitVec 2) (disp : BitVec 16) : State → Host.Outcome State Fault Refusal :=
  onChip (storeOp i 0x1C 1 x y mode disp (fun k => getV k x))

/-- SH (R206). -/
def execSh (i : CoreId) (x y : Fin 16) (mode : BitVec 2) (disp : BitVec 16) : State → Host.Outcome State Fault Refusal :=
  onChip (storeOp i 0x1D 2 x y mode disp (fun k => getV k x))

/-- SW (R206). -/
def execSw (i : CoreId) (x y : Fin 16) (mode : BitVec 2) (disp : BitVec 16) : State → Host.Outcome State Fault Refusal :=
  onChip (storeOp i 0x1E 4 x y mode disp (fun k => getV k x))

/-- SD (R206). -/
def execSd (i : CoreId) (x y : Fin 16) (mode : BitVec 2) (disp : BitVec 16) : State → Host.Outcome State Fault Refusal :=
  onChip (storeOp i 0x1F 8 x y mode disp (fun k => getV k x))

/-- STP: store Px, before the update of the base (R204, R206). -/
def execStp (i : CoreId) (x y : Fin 16) (mode : BitVec 2) (disp : BitVec 16) : State → Host.Outcome State Fault Refusal :=
  onChip (storeOp i 0x20 8 x y mode disp (fun k => getP k x))

end Sys2Proof.Machine
end

