-- ==== Sys2Proof/Machine/Mgmt.lean ====
section
/-! DEFINITION. Time, telemetry export, publish rings, MCTP and PLDM, the UART and JTAG (chapter 23). -/

namespace Sys2Proof.Machine

/-! ### The time base (R845–R849) -/

/-- The offset of a page's dword as its fields show it, each field at its bits. -/
def dwordAt (view : Fld → Nat) (page off : Nat) : Nat :=
  ((pageFields page off).map fun f => view f * 2 ^ f.lo / 2 ^ (8 * (off - f.off)) % 2 ^ 32).sum

/-- A page's dword, without what a read does beside (R9). -/
def dwordRaw (page off : Nat) (c : Chip) : Nat := dwordAt (rd · c) page off

/-- Milestone time may not run backwards: HRD, COL or LBY is not OFF (R848). -/
def timeHeld (c : Chip) : Bool := pageState 0x70 c != 0 || pageState 0x61 c != 0 || pageState 0x78 c != 0

/-- A write of `STEP_NS` (R848, and the writers of the MST page). -/
def stepNs (p : Party) (value : Nat) (c : Chip) : Chip :=
  let x := toSigned 64 value
  if isHost p then refuse 6 0x03 0x110 c
  else if x = 0 ∨ x % 160 ≠ 0 then refuse 6 0x20 0x110 c
  else if x < 0 ∧ timeHeld c = true then refuse 6 0x21 0x110 c
  else { c with timeStep := some (value % 2 ^ 64) }

/-- STEP_NS_WRITE. -/
def execStepNsWrite (p : Party) (value : Nat) : State → Host.Outcome State Fault Refusal :=
  onChip (regAccess p 6 0x110 value (stepNs p value))

/-- TIME_STEP_APPLY (R848): the edge's period count is a multiple of 16. -/
def timeStepApply (c : Chip) : Chip :=
  match c.timeStep with
  | none => c
  | some x =>
    if now c / 10 % 16 ≠ 0 then c
    else timeRecord x (wr Reg.MST_MS_TIME (now c + x) { c with timeStep := none })

def execTimeStepApply : State → Host.Outcome State Fault Refusal := onChip timeStepApply

/-- PPS_EDGE (R847). -/
def ppsEdge (time trim : Nat) (locked : Bool) (c : Chip) : Chip :=
  discipline 2 trim locked (wr Reg.SBI_PPS_SEEN 1 (wr Reg.MST_PPS_CAPTURE time c))

def execPpsEdge (time : Nat) (trim : Nat) (locked : Bool) : State → Host.Outcome State Fault Refusal := onChip (ppsEdge time trim locked)

/-- TIME_SOURCE_LOST (R847). -/
def timeSourceLost (c : Chip) : Chip :=
  let s := rd Reg.MST_TIME_STATE c
  if rd Reg.MST_DISC_SRC c ≠ 0 ∧ (s = 1 ∨ s = 2) then raise 6 0x1A01 0 (timeState 3 c) else c

def execTimeSourceLost : State → Host.Outcome State Fault Refusal := onChip timeSourceLost

/-! ### Telemetry (R850–R852) -/

/-- The bytes of a record (R850). -/
def recordBytes (serial : Nat) (r : TelRec) : List Nat :=
  let n := telBytes r
  leBytes 2 r.kind ++ leBytes 2 n ++ leBytes 4 r.seq ++ leBytes 8 r.time ++ leBytes 8 serial ++
  leBytes 4 (r.source % 2 ^ 16 + r.sev * 2 ^ 16) ++ leBytes 4 0 ++ r.body ++ List.replicate (n - 32 - r.body.length) 0

/-- The whole records, oldest first, that fit in the bytes left of a datagram, and the rest. -/
def takeRecords : Nat → List TelRec → List TelRec × List TelRec
  | _, [] => ([], [])
  | room, r :: t =>
    if telBytes r ≤ room then
      let x := takeRecords (room - telBytes r) t
      (r :: x.1, x.2)
    else ([], r :: t)

/-- EXPORT_DATAGRAM (R852): at most 1,452 B of payload, a 16 B header first. The export pauses in the hold (R779). -/
def exportDatagram (c : Chip) : Chip :=
  if !rdb Reg.MST_EXPORT_EN c || !loopsRun c then c
  else match takeRecords 1436 c.tel with
    | ([], _) => c
    | (r :: t, rest) =>
      let body := (r :: t).flatMap (recordBytes (ownSerial c))
      let head := leBytes 2 1 ++ leBytes 2 (t.length + 1) ++ leBytes 4 c.dgramSeq ++ leBytes 4 r.seq ++ leBytes 4 c.telLostSince
      emit (.telemetry (head ++ body))
        (bump (Reg.MST_CTR 1) 1 { c with tel := rest, dgramSeq := (c.dgramSeq + 1) % 2 ^ 32, telLostSince := 0 })

def execExportDatagram : State → Host.Outcome State Fault Refusal := onChip exportDatagram

/-- SENSORS_SAMPLE: THM words 0x100–0x314 (R850). -/
def sensorsSample (c : Chip) : Chip :=
  if rd Reg.MST_SENSOR_PERIOD_MS c = 0 then c
  else telemetry 3 3 0 ((List.range 134).flatMap fun i => leBytes 4 (dwordRaw 3 (0x100 + 4 * i) c)) c

def execSensorsSample : State → Host.Outcome State Fault Refusal := onChip sensorsSample

/-- The pages that have a counter block, in page order, with its offset, its stride and its number of 8-byte counters; the four
ports of an ETH page hold one each. -/
def counterPages : List (Nat × List Nat × Nat) :=
  [(2, [0x180], 4), (4, [0x180], 8), (6, [0x180], 6), (8, [0x180], 8), (9, [0x180], 8)] ++
  (List.range 8).map (fun i => (0x10 + i, [0x180], 8)) ++ (List.range 8).map (fun i => (0x18 + i, [0x180], 4)) ++
  (List.range 4).map (fun i => (0x20 + i, [0x240, 0x2C0, 0x340, 0x3C0], 8)) ++
  [(0x28, [0x540], 8), (0x30, [0x138], 3), (0x40, [0x280], 8), (0x61, [0x200], 6), (0x70, [0x180], 8), (0x71, [0x180], 4),
   (0x72, [0x1C0], 8), (0x78, [0x280], 8), (0x80, [0x180], 8), (0x88, [0x180], 6), (0x90, [0x180], 4)]

/-- COUNTERS_SAMPLE: the counters of the next page in turn (R850). -/
def countersSample (c : Chip) : Chip :=
  if rd Reg.MST_COUNTER_PERIOD_S c = 0 then c
  else match counterPages[c.ctrPage % counterPages.length]? with
    | none => c
    | some (p, bases, n) =>
      telemetry 4 p 0 (bases.flatMap fun b => (List.range n).flatMap fun k => leBytes 8 (rd ⟨p, b + 8 * k, 0, 64, 0, .ro⟩ c))
        { c with ctrPage := (c.ctrPage + 1) % counterPages.length }

def execCountersSample : State → Host.Outcome State Fault Refusal := onChip countersSample

/-! ### Publish rings (R853–R855) -/

/-- The owner under which the device reaches ring `r`, and a device address of the ring's memory (R853). -/
def pubReach (r : Nat) (c : Chip) : Nat × Nat :=
  let l := rd (Reg.MST_PUB_LOC r) c
  let b := rd (Reg.MST_PUB_BASE r) c
  if l < 2 then (0x8000 + l, 2 ^ 62 * (l + 1) + b % 2 ^ 62) else (0x9003, b)

/-- The device polls ring `r`: it is enabled, and a ring in host memory has its PF0 in D0 and not in FLR (R718, R723). -/
def pubPolled (r : Nat) (c : Chip) : Bool :=
  rdb (Reg.MST_PUB_EN r) c && (let l := rd (Reg.MST_PUB_LOC r) c; decide (2 ≤ l) || funcLive l 0 c)

/-- The slots of ring `r` in order, at most `fuel` of them: the first whose `PHASE` is not the expected one stops the poll; one
read with poison or an error is counted and skipped. -/
def pubTake (r : Nat) (bad : List Nat) : Nat → Chip → Chip
  | 0, c => c
  | fuel + 1, c =>
    let n := rd (Reg.MST_PUB_CONSUMED r) c
    let size := 2 ^ rd (Reg.MST_PUB_LOG2 r) c
    let at0 := pubReach r c
    let slot := readRange at0.1 (at0.2 + 64 + 64 * (n % size)) 64 c
    if slot.2 || bad.elem (r * 4096 + n % size) then
      pubTake r bad fuel (raise 6 0x1A03 0 (bump (Reg.MST_PUB_CONSUMED r) 1 c))
    else if leNat ((slot.1.drop 60).take 1) % 2 ≠ (n / size + 1) % 2 then c
    else pubTake r bad fuel (telemetry 7 r 0 (slot.1.take 60) (bump (Reg.MST_PUB_CONSUMED r) 1 c))

/-- One ring: its records, then the count of records consumed at its header. -/
def pubRing (bad : List Nat) (c : Chip) (r : Nat) : Chip :=
  if !pubPolled r c then c
  else
    let n := rd (Reg.MST_PUB_CONSUMED r) c
    let c := pubTake r bad 64 c
    let n' := rd (Reg.MST_PUB_CONSUMED r) c
    if n' = n then c else writeRange (pubReach r c).1 (pubReach r c).2 (leBytes 8 n') c

/-- PUB_POLL; `bad` names the slots read with an error, as ring * 4096 + slot. -/
def execPubPoll (bad : List Nat) : State → Host.Outcome State Fault Refusal := onChip fun c => (List.range 32).foldl (pubRing bad) c

/-! ### MCTP and PLDM (R857–R859) -/

/-- The endpoint takes requests: the SMBus one always, a PCIe VDM one with its PF0 in D0 and not in FLR. -/
def epLive (ep : Nat) (c : Chip) : Bool := ep == 0 || funcLive (ep - 1) 0 c

/-- A PLDM request: dropped, answered ERROR_NOT_READY in the hold (R779), or served by `f`, which gives the completion code, the
data and the chip. -/
def pldmServe (ep : Nat) (f : Chip → Nat × List Nat × Chip) (c : Chip) : Chip :=
  if !epLive ep c then c
  else
    let c := bump (Reg.MST_CTR 2) 1 c
    if c.boot.hold then emit (.pldm ep 4 []) (bump (Reg.MST_CTR 3) 1 c)
    else
      let r := f c
      emit (.pldm ep r.1 r.2.1) r.2.2

/-- A request that changes nothing. -/
def pldmRead (ep : Nat) (f : Chip → Nat × List Nat) : State → Host.Outcome State Fault Refusal :=
  onChip (pldmServe ep fun c => ((f c).1, (f c).2, c))

/-- SET_ENDPOINT_ID: an EID of 8 to 254; any other is refused with the MCTP code for invalid data (log entry 42). -/
def setEndpointId (ep eid : Nat) (c : Chip) : Chip :=
  if !epLive ep c then c
  else if c.boot.hold then emit (.pldm ep 4 []) c
  else if 8 ≤ eid ∧ eid ≤ 254 then emit (.pldm ep 0 [eid]) { c with eids := mapPut 0 c.eids ep eid }
  else emit (.pldm ep 2 []) c

def execSetEndpointId (ep : Fin 3) (eid : Nat) : State → Host.Outcome State Fault Refusal := onChip (setEndpointId ep.val eid)

/-- GET_TID. -/
def execGetTid (ep : Fin 3) : State → Host.Outcome State Fault Refusal := pldmRead ep.val fun c => (0, [mapGet 0 c.tids ep.val])

/-- SET_TID: 0 and 0xFF are no terminus ID. -/
def execSetTid (ep : Fin 3) (tid : Nat) : State → Host.Outcome State Fault Refusal :=
  onChip (pldmServe ep.val fun c =>
    if 0 < tid ∧ tid < 255 then (0, [], { c with tids := mapPut 0 c.tids ep.val tid }) else (2, [], c))

/-- The PLDM types of R858: base, platform monitoring and control, FRU. -/
def pldmType (t : Nat) : Bool := t == 0 || t == 2 || t == 4

/-- GET_PLDM_VERSION. -/
def execGetPldmVersion (ep : Fin 3) (typ : Nat) : State → Host.Outcome State Fault Refusal :=
  pldmRead ep.val fun _ => if pldmType typ then (0, leBytes 4 (Config.pldmVersion typ)) else (0x83, [])

/-- GET_PLDM_TYPES. -/
def execGetPldmTypes (ep : Fin 3) : State → Host.Outcome State Fault Refusal := pldmRead ep.val fun _ => (0, leBytes 8 0x15)

/-- The commands of a PLDM type as a bit field. -/
def pldmCommands (t : Nat) : Nat :=
  (match t with
   | 0 => [1, 2, 3, 4, 5]
   | 2 => [4, 0x0A, 0x11, 0x21, 0x51]
   | _ => [1, 2]).foldl (fun a b => a + 2 ^ b) 0

/-- GET_PLDM_COMMANDS. -/
def execGetPldmCommands (ep : Fin 3) (typ : Nat) : State → Host.Outcome State Fault Refusal :=
  pldmRead ep.val fun _ => if pldmType typ then (0, leBytes 32 (pldmCommands typ)) else (0x83, [])

/-- GET_PDR. -/
def execGetPdr (ep : Fin 3) (handle : Nat) : State → Host.Outcome State Fault Refusal := pldmRead ep.val fun _ => (0, Config.pdr handle)

/-- The numeric sensors: the 76 temperatures (1/16 °C, signed), `INPUT_W`, `AVG10_W`; a sensor whose reading is not valid has
failed. -/
def numericSensor (n : Nat) (c : Chip) : Nat × List Nat :=
  let ok := fun (st v : Nat) => (0, [3, st, 0, 0, 0, 0] ++ leBytes 2 v)
  if n < 76 then ok (if rdb (Reg.THM_VALID n) c then 0 else 4) (rd (Reg.THM_TEMP n) c)
  else if n = 76 then ok 0 (rd Reg.THM_INPUT_W c)
  else if n = 77 then ok 0 (rd Reg.THM_AVG10_W c)
  else (0x80, [])

/-- GET_SENSOR_READING. -/
def execGetSensorReading (ep : Fin 3) (sensor : Nat) : State → Host.Outcome State Fault Refusal := pldmRead ep.val (numericSensor sensor)

/-- GET_STATE_SENSOR_READINGS: the effective throttle step of a region. -/
def execGetStateSensorReadings (ep : Fin 3) (sensor : Nat) : State → Host.Outcome State Fault Refusal :=
  pldmRead ep.val fun c => if sensor < 4 then (0, [1, 0, rd (Reg.THM_STEP sensor) c, 0, 0]) else (0x80, [])

/-- SET_EVENT_RECEIVER; EID 0 is no receiver. -/
def execSetEventReceiver (ep : Fin 3) (eid : Nat) : State → Host.Outcome State Fault Refusal :=
  onChip (pldmServe ep.val fun c => (0, [], { c with evtReceiver := mapPut 0 c.evtReceiver ep.val (eid % 256) }))

/-! ### The UART (R863–R866) -/

/-- `UART_RX` and `RX_LEVEL` show the FIFO. -/
def uartShow (c : Chip) : Chip :=
  let v := c.uartRx.headD 0
  wr Reg.SBI_RX_LEVEL c.uartRx.length (wr Reg.SBI_DATA v (wr Reg.SBI_FE (v / 2 ^ 8) (wr Reg.SBI_BREAK (v / 2 ^ 9)
    (wr Reg.SBI_PE (v / 2 ^ 10) (wr Reg.SBI_RX_VALID (v / 2 ^ 31) c)))))

/-- UART_RX_CHAR: a character with its framing (R865), lost when the FIFO of 64 is full (R866). -/
def uartRxChar (data : Nat) (stopLow lineLow parityBad : Bool) (c : Chip) : Chip :=
  let d := data % (if rdb Reg.SBI_DATA7 c then 0x80 else 0x100)
  let pe := parityBad && rd Reg.SBI_PARITY c != 0
  let e := d + 2 ^ 8 * b2n stopLow + 2 ^ 9 * b2n (stopLow && lineLow) + 2 ^ 10 * b2n pe + 2 ^ 31
  let full := decide (64 ≤ c.uartRx.length)
  let c := if full then c else uartShow { c with uartRx := c.uartRx ++ [e] }
  raiseAll 0xB0 ((if full then [(0x1B01, 0)] else []) ++ (if stopLow then [(0x1B02, 0)] else [])) c

def execUartRxChar (data : Nat) (stopLow lineLow parityBad : Bool) : State → Host.Outcome State Fault Refusal :=
  onChip (uartRxChar data stopLow lineLow parityBad)

/-- UART_RX_POP: a read takes the oldest entry; an empty FIFO reads 0. -/
def execUartRxPop (p : Party) : State → Host.Outcome State Fault Refusal :=
  onChip fun c => uartShow { emit (.readData p (c.uartRx.headD 0)) c with uartRx := c.uartRx.tail }

/-- A write of `UART_TX` (R863, R866); the transmit FIFO drains at once (log entry 7). -/
def uartTx (p : Party) (value : Nat) (c : Chip) : Chip :=
  if isSteward p then emit (.uart (value % 256)) c else refuse 0xB0 0x03 0x104 c

def execUartTx (p : Party) (value : Nat) : State → Host.Outcome State Fault Refusal :=
  onChip (regAccess p 0xB0 0x104 value (uartTx p value))

/-! ### JTAG (R868–R870) -/

/-- UNLOCK_CHALLENGE: the nonce, drawn when none stands since the chip reset or the latest failed attempt. -/
def unlockChallenge (c : Chip) : Chip :=
  match c.nonce with
  | some n => emit (.jtag n.toNat) c
  | none => emit (.jtag (freeVal c).toNat) { useFree c with nonce := some (freeVal c) }

def execUnlockChallenge : State → Host.Outcome State Fault Refusal := onChip unlockChallenge

/-- The token is valid (R869, R762 steps 2 and 3). -/
def tokenOk (t : Token) (c : Chip) : Bool :=
  t.serial == ownSerial c && c.nonce == some (BitVec.ofNat 64 t.nonce) && decide (t.nonce < 2 ^ 64) && decide (t.scope < 16) &&
  decide (t.slot < 4) && keySlotLive t.slot c && sha384 t.pubkey == Config.keyHash t.slot &&
  ecdsaVerify (beNat t.pubkey) (beNat t.signature) (sha384 (Config.tokenBytes t.serial t.nonce t.scope t.slot))

/-- UNLOCK_RESPONSE (R870). -/
def unlockResponse (t : Token) (c : Chip) : Chip :=
  if 3 ≤ rd Reg.SBI_JTAG_FAILS c then c
  else if tokenOk t c then
    let c := lbyCipherLost (cipherAlarm 4 c)
    nodeRecord 5 (raise 0xB0 0x1B04 0 (wr Reg.SBI_JTAG_STATE 1 (wr Reg.SBI_JTAG_SCOPE t.scope c)))
  else raise 0xB0 0x1B05 0 { wr Reg.SBI_JTAG_FAILS (rd Reg.SBI_JTAG_FAILS c + 1) c with nonce := none }

def execUnlockResponse (tok : Token) : State → Host.Outcome State Fault Refusal := onChip (unlockResponse tok)

/-- EXTEST acts in the ROM states with both PERST# asserted, else as BYPASS (R868). -/
def extestActs (c : Chip) : Bool :=
  let s := rd Reg.BOOT_BOOT_STATE c
  (s == 0 || s == 6) && rd Reg.SBI_PERST_IN c == 0

def execExtest : State → Host.Outcome State Fault Refusal :=
  onChip fun c => if extestActs c then emit (.jtag (freeVal c).toNat) (useFree c) else emit (.jtag 0) c

/-- BYPASS: the one-bit bypass register, which holds 0. -/
def execBypass : State → Host.Outcome State Fault Refusal := onChip (emit (.jtag 0))

/-- IDCODE. -/
def execIdcode : State → Host.Outcome State Fault Refusal := onChip (emit (.jtag Config.idcode))

/-- SAMPLE_PRELOAD: the levels of the pins. -/
def execSamplePreload : State → Host.Outcome State Fault Refusal := onChip fun c => emit (.jtag (freeVal c).toNat) (useFree c)

/-! ### The management port -/

/-- MGMT_LINK_DOWN (R872). -/
def execMgmtLinkDown : State → Host.Outcome State Fault Refusal := onChip fun c => raise 0xB0 0x1B03 0 (wr Reg.SBI_MGMT_LINK 0 c)

end Sys2Proof.Machine
end

