-- ==== Sys2Proof/Machine/Module.lean ====
section
/-! DEFINITION. The module's supply, its power sequence and the coolant permissive (R875, R881–R888). -/

namespace Sys2Proof.Machine

/-- The rails come up: PWR_GOOD, when COOLANT_OK is high and P1 is in range while PWR_EN is high (R881, R882). -/
def railsUp (c : Chip) : Chip :=
  if rdb Reg.SBI_PWR_EN_IN c && rdb Reg.SBI_COOLANT_OK_IN c && c.module.input && !c.module.low then
    { c with module := { c.module with good := true } }
  else c

/-- PWR_EN_RISE: held while PWR_EN has been low for less than 100 ms (R882). -/
def pwrEnRise (c : Chip) : Chip :=
  if rdb Reg.SBI_PWR_EN_IN c then c
  else
    let c := wr Reg.SBI_PWR_EN_IN 1 c
    if c.module.low then { c with module := { c.module with held := true } } else railsUp c

def execPwrEnRise : State → Host.Outcome State Fault Refusal := onChip pwrEnRise

/-- PWR_EN_HOLD_END: the 100 ms are over, and a rise that was held starts the sequence. -/
def pwrEnHoldEnd (c : Chip) : Chip :=
  let held := c.module.held
  let c := { c with module := { c.module with low := false, held := false } }
  if held then railsUp c else c

def execPwrEnHoldEnd : State → Host.Outcome State Fault Refusal := onChip pwrEnHoldEnd

/-- COOLANT_OK_RISE. -/
def execCoolantOkRise : State → Host.Outcome State Fault Refusal := onChip fun c =>
  let c := wr Reg.SBI_COOLANT_OK_IN 1 c
  if c.module.good then c else railsUp c

/-- A key of the register file that outlives power: OTP, the records of the EEPROM, and the levels of input pins. -/
def outlives (k : Nat) : Bool :=
  let p := (k % 2 ^ 48) / (128 * 0x1000)
  (decide (0xA0 ≤ p) && decide (p ≤ 0xA6) && decide (0x304 ≤ k / 128 % 0x1000)) ||
  [Reg.BOOT_KEY_REVOKED, Reg.BOOT_KEY_PROGRAMMED, Reg.BOOT_ROLLBACK_COUNT, Reg.SBI_COOLANT_OK_IN, Reg.SBI_PERST_IN,
    Reg.SBI_SSD_PRSNT, Reg.SBI_MGMT_VSEL].any (fun f => k == fldKey f)

/-- Memory that outlives power: hosts, accelerators, flash, SSDs. -/
def memOutlives (k : Nat) : Bool := memOutside k && k / 2 ^ 64 != spAon

/-- The module without its rails (R883): HBM, Cellar, the key store and every register are lost. -/
def powerLost (c : Chip) : Chip :=
  { Chip.reset with
    regs := c.regs.filter fun e => outlives e.1
    mem := c.mem.filter fun e => memOutlives e.1
    poison := c.poison.filter fun l => memOutlives (64 * l)
    palJournal := c.palJournal
    module := c.module
    out := c.out
    free := c.free }

/-- POWER_OFF: PWR_EN falls, or P1 fails (R883); in STANDBY with PWR_EN low it is P1 that goes, to OFF (R875). -/
def powerOff (c : Chip) : Chip :=
  if c.module.good then
    wr Reg.SBI_PWR_EN_IN 0 { powerLost c with module := ⟨c.module.input, false, true, false, false⟩ }
  else if rdb Reg.SBI_PWR_EN_IN c then
    wr Reg.SBI_PWR_EN_IN 0 { c with module := { c.module with low := true, held := false } }
  else { c with module := { c.module with input := false } }

def execPowerOff : State → Host.Outcome State Fault Refusal := onChip powerOff

/-- INPUT_POWER_UP: from OFF to STANDBY (R875, R880). -/
def execInputPowerUp : State → Host.Outcome State Fault Refusal := onChip fun c =>
  { c with module := { c.module with input := true } }

/-- INPUT_V_LOW: P1 at or above 36 V and below 40 V (R885). -/
def inputVLow (mv : Nat) (c : Chip) : Chip :=
  if mv < 36000 ∨ 40000 ≤ mv then c
  else
    raise 0xB0 0x1B08 0 (wr Reg.THM_INPUT_W (mv / 10 * rd Reg.SBI_INPUT_A c / 10000) (wr Reg.SBI_INPUT_V (mv / 10) c))

def execInputVLow (mv : Nat) : State → Host.Outcome State Fault Refusal := onChip (inputVLow mv)

/-- COOLANT_LOST: COOLANT_OK falls; during BOOTING or RUNNING every firmware step goes to its maximum (R888). -/
def coolantLost (c : Chip) : Chip :=
  let c := wr Reg.SBI_COOLANT_OK_IN 0 c
  if !c.module.good then c
  else
    let c := raise 0xB0 0x1B07 0 { c with module := { c.module with noFlow := true } }
    if loopsRun c then (List.range 4).foldl (fun c r => fwFollow r c) c else c

def execCoolantLost : State → Host.Outcome State Fault Refusal := onChip coolantLost

/-- COOLANT_RESTORE: COOLANT_OK has been high for 10 s (R888). -/
def coolantRestore (c : Chip) : Chip :=
  if !c.module.noFlow then c
  else
    let c := wr Reg.SBI_COOLANT_OK_IN 1 { c with module := { c.module with noFlow := false } }
    if loopsRun c then (List.range 4).foldl (fun c r => fwFollow r c) c else c

def execCoolantRestore : State → Host.Outcome State Fault Refusal := onChip coolantRestore

end Sys2Proof.Machine
end

