-- ==== Sys2Proof/Machine/RegWrite.lean ====
section
/-! DEFINITION. Register accesses (R9–R17, R48–R67, R82–R91): access codes, reserved bits, pending words and latches, banked registers, the writers and ranges of each page, Crossing semaphores, channel owners; and the rows that read or write a register. -/

namespace Sys2Proof.Machine

/-! ### Shape of the registers -/

/-- The dword at `off` is the low word of a 64-bit register. -/
def isLow (page off : Nat) : Bool := (pageFields page (off + 4)).any fun f => decide (f.off ≤ off) && (off - f.off) % 8 == 0

/-- The dword at `off` is the high word of a 64-bit register. -/
def isHigh (page off : Nat) : Bool := decide (4 ≤ off) && isLow page (off - 4)

/-- A field that a write can change or that a write triggers. -/
def writable (f : Fld) : Bool := !decide (f.acc = .ro)

/-- The low word is written at once: the high word holds only read-only or reserved bits (R15). -/
def lowAlone (page off : Nat) : Bool :=
  (blockType page == some 1) || !(pageFields page (off + 4)).any fun f => decide (f.off ≤ off) && writable f

/-- The part of a field that a write of `n` bytes at `off` replaces. -/
def fldMerge (f : Fld) (off n old v : Nat) : Nat :=
  let a := 8 * f.off + f.lo
  let w := 8 * off
  if w ≤ a then setBits old 0 (min f.width (8 * n - (a - w))) (v / 2 ^ (a - w))
  else setBits old (w - a) (min (f.width - (w - a)) (8 * n)) v

/-- The bits of a dword that its fields cover. -/
def coverMask (page off : Nat) : Nat :=
  (pageFields page off).foldl (fun m f => m ||| fldMerge ⟨page, off, 0, 32, 0, .rw⟩ f.off 16 0 ((2 ^ f.width - 1) * 2 ^ f.lo)) 0

/-- The reserved bits of a dword whose last written value the page holds (R11). -/
def heldMask (page off : Nat) : Nat :=
  if off < 0x100 ∨ pageFields page off = [] then 0
  else (2 ^ 32 - 1) - (coverMask page off ||| roReservedMask page off)

/-! ### Reading -/

/-- The context that a reader of the WMK page selects, and the queue and shaper of a reader of the TOL page (R50). -/
def selWmk (b : Nat) (c : Chip) : WmkCtx := wmkGet (rdB b Reg.WMK_CTX_SEL c) c
def selTol (b : Nat) (c : Chip) : TolQ := tolGet (rdB b Reg.TOL_Q_PORT c) (rdB b Reg.TOL_Q_INDEX c) c

/-- A field of WMK or TOL that belongs to what the reader selects. -/
def selectedView (b : Nat) (c : Chip) (f : Fld) : Option Nat :=
  if f.page = 0x79 then
    let x := selWmk b c
    match f.off with
    | 0x108 => if f.lo = 0 then some x.owner else if f.lo = 16 then some (b2n x.spoiled) else none
    | 0x110 => some x.seed0
    | 0x118 => some x.seed1
    | 0x120 => some x.sum0
    | 0x128 => some x.sum1
    | 0x130 => some x.adds
    | _ => none
  else if f.page = 0x30 then
    let x := selTol b c
    match f.off with
    | 0x128 => some (ofSigned 64 x.cTok)
    | 0x130 => some (ofSigned 64 x.pTok)
    | 0x138 => some x.green
    | 0x140 => some x.yellow
    | 0x148 => some x.red
    | 0x1A0 => some (ofSigned 64 (shpGet (rdB b Reg.TOL_SHP_SEL c) c).tok)
    | _ => none
  else none

/-- What a party reads in a field (R9, R10, R50, R59). -/
def fldView (p : Party) (c : Chip) (f : Fld) : Nat :=
  let b := (bankOf p c).getD 0
  if f.acc = .wo then 0
  else if f = Hdr.IDLE f.page then b2n (pageIdle f.page c)
  else match selectedView b c f with
    | some v => v
    | none => if bankedFld f then rdB b f c else rd f c

/-- A dword as a party reads it; an unmapped page reads 0 (R55). -/
def dwordFor (p : Party) (page off : Nat) (c : Chip) : Nat :=
  if inRuleWindow page then
    let a := (page - 0x400) * 0x1000 + off
    if a < 0x200000 then ruleWindowRead (a / 256) (a % 256) 4 c
    else if a < 0x280000 then mapGet 0 c.sepTables (tabKey ((a - 0x200000) / 2048) ((a - 0x200000) % 2048 / 4)) else 0
  else dwordAt (fldView p c) page off

/-- The latch of a party (R17). -/
def setLatch (p : Party) (x : Option Half) (c : Chip) : Chip := { c with latch := mapPut none c.latch (partyIx p) x }
def setPend (p : Party) (x : Option Half) (c : Chip) : Chip := { c with pendLow := mapPut none c.pendLow (partyIx p) x }

/-! ### Crossing semaphores (R83–R90) -/

/-- The holder code of a party that can hold a semaphore. -/
def semCode : Party → Option Nat
  | .host h => some (1 + h.val)
  | .steward => some 3
  | _ => none

/-- The value of a semaphore as a reader sees it. -/
def semValue (p : Party) (n : Nat) (told : Bool) (c : Chip) : Nat :=
  let o := rd (Reg.CRS_OWNER n) c
  let mine := o != 0 && semCode p == some o
  b2n mine + 2 * b2n (mine && told) + 4 * o + 2 ^ 16 * rd (Reg.CRS_SEQUENCE n) c

/-- Who is granted a free semaphore among readers of one fabric cycle (R89): the Steward, else the one host, else the host that
lost the previous tie. -/
def semWinner (rs : List Party) (c : Chip) : Option Nat :=
  let has := fun k => rs.any fun p => semCode p == some k
  if has 3 then some 3
  else if has 1 && has 2 then some (1 + c.hostTie)
  else if has 1 then some 1 else if has 2 then some 2 else none

/-- What an abandoned grant does to blocks guarded by the semaphore (R369, R650): the queues of the holder that lost it. -/
def semReset (n lost : Nat) (c : Chip) : Chip :=
  if lost = 1 ∨ lost = 2 then
    let guards := fun (p : Nat) (c : Chip) => rdb (Hdr.GUARDED p) c && rd (Hdr.SEM p) c == n
    let c := if guards 0x40 c then qpResetOwner (0x7FFF + lost) c else c
    if guards 0x80 c then palResetOwner (0x7FFF + lost) c else c
  else c

/-- A free semaphore granted to a holder code; answers whether the grant tells an abandonment. -/
def semGrant (n k : Nat) (c : Chip) : Bool × Chip :=
  let lost := c.semAbandoned.find? fun x => x / 4 == n
  let c := wr (Reg.CRS_OWNER n) k (bump (Reg.CRS_SEQUENCE n) 1 { c with semAbandoned := c.semAbandoned.filter fun x => x / 4 != n })
  match lost with
  | some x => (true, semReset n (x % 4) c)
  | none => (false, c)

/-- Reads of one semaphore in one fabric cycle (R84, R85, R89); a 32-bit read loads the reader's latch with the high word, 0. -/
def semRead (n : Nat) (rs : List Party) (wide : Bool) (c : Chip) : Chip :=
  let r := if rd (Reg.CRS_OWNER n) c = 0 then
      match semWinner rs c with
      | some k =>
        let tie := k != 3 && (rs.any fun p => semCode p == some 1) && rs.any fun p => semCode p == some 2
        let g := semGrant n k c
        (g.1, if tie then { g.2 with hostTie := 2 - k } else g.2)
      | none => (false, c)
    else (false, c)
  rs.foldl (fun c p =>
    let c := if wide then c else setLatch p (some ⟨1, 0x100 + 8 * n, 0⟩) c
    emit (.readData p (semValue p n r.1 c)) c) r.2

/-- SEMAPHORE_READ. -/
def execSemaphoreRead (n : Fin 64) (readers : List Party) (wide : Bool) : State → Host.Outcome State Fault Refusal :=
  onChip (semRead n.val readers wide)

/-- A write of a semaphore's low word, or of all 64 bits (R86). -/
def semWrite (p : Party) (n value : Nat) (wide : Bool) (c : Chip) : Chip :=
  let v := if wide then value % 2 ^ 64 else value % 2 ^ 32
  if rd (Reg.CRS_OWNER n) c ≠ 0 ∧ semCode p = some (rd (Reg.CRS_OWNER n) c) ∧ v = 0 then wr (Reg.CRS_OWNER n) 0 c
  else refuse 1 0x03 (0x100 + 8 * n) c

/-- SEMAPHORE_RELEASE. -/
def execSemaphoreRelease (p : Party) (n : Fin 64) (value : Nat) (wide : Bool) : State → Host.Outcome State Fault Refusal :=
  onChip (semWrite p n.val value wide)

/-- A write of CRS_BREAK (R88). -/
def crsBreak (p : Party) (value : Nat) (c : Chip) : Chip :=
  if !isSteward p then refuse 1 0x03 0x300 c
  else if value % 2 ^ 32 / 64 ≠ 0 then refuse 1 0x04 0x300 c
  else if rd (Reg.CRS_OWNER (value % 64)) c = 0 then c
  else semAbandon (value % 64) c

def execCrsBreak (p : Party) (value : Nat) : State → Host.Outcome State Fault Refusal := onChip (crsBreak p value)

/-! ### Channel owners (R34–R40) -/

/-- The pages of an activity whose `QUIESCE` or OFF a change of owner needs (R38). -/
def actPages (a : Nat) : List Nat :=
  match a with
  | 1 => [0x71] | 2 => [0x72] | 3 => [0x70] | 4 => [0x70] | 5 => [0x28, 0x30, 0x40, 0x5A] | 6 => [0x80] | 7 => [0x61]
  | 8 => [0x78] | 9 => [0x78] | 10 => [0x90] | _ => []

/-- An activity lets a channel go or takes it (R38). -/
def actQuiet (a m n : Nat) (c : Chip) : Bool :=
  ((actPages a).all fun p => rdb (Hdr.QUIESCE p) c || pageState p c == 0) &&
  (a != 10 || !c.images.any fun e => e.2 != 0 &&
    overlaps (imagePlace e.1 c) 0x4000000 (channelRange m n).1 (channelRange m n).2) &&
  (a != 11 || !(List.range 336).any fun i => pageState (corePage i) c == 4)

/-- Pseudo-channels of HBM that VAT holds. -/
def vatChannels (c : Chip) : Nat := ((List.range 192).filter fun g => rd (Reg.MEM_ACTIVITY (g / 32) (g % 32)) c == 1).length

/-- A write of CH_OWNER_n of MEM page `m`, past its guard (R37–R40). -/
def chOwner (m n value : Nat) (c : Chip) : Chip :=
  let off := 0x100 + 4 * n
  let a := value % 16
  let old := rd (Reg.MEM_ACTIVITY m n) c
  if m < 6 ∧ 32 ≤ n then c
  else if a = old then c
  else if a = 1 ∧ m < 6 ∧ 142 ≤ vatChannels c then refuse (0xA0 + m) 0x04 off c
  else if 12 ≤ a then refuse (0xA0 + m) 0x20 off c
  else if !actQuiet old m n c || !actQuiet a m n c then refuse (0xA0 + m) 0x21 off c
  else wr (Reg.MEM_SCRUBBING m n) 1 (wr (Reg.MEM_ACTIVITY m n) a c)

/-- CH_OWNER_WRITE. -/
def execChOwnerWrite (p : Party) (m : Fin 7) (n : Fin 64) (value : Nat) : State → Host.Outcome State Fault Refusal :=
  onChip (regAccess p (0xA0 + m.val) (0x100 + 4 * n.val) value (chOwner m.val n.val value))

/-- SCRUB_COMPLETE: the channel is zero (R39); the end of the last scrub of a handback frees the node (R528 step 7). -/
def scrubComplete (m n : Nat) (c : Chip) : Chip :=
  if !rdb (Reg.MEM_SCRUBBING m n) c then c
  else
    let r := channelRange m n
    handbackFree (wr (Reg.MEM_SCRUBBING m n) 0 (zero spDev r.1 r.2 c))

def execScrubComplete (m : Fin 7) (n : Fin 64) : State → Host.Outcome State Fault Refusal := onChip (scrubComplete m.val n.val)

/-! ### Registers with a row of their own -/

/-- The block after a meaning that leaves the queue alone. -/
def via (f : State → Host.Outcome State Fault Refusal) (c : Chip) : Chip :=
  match f ⟨c, []⟩ with
  | .next s => s.chip
  | _ => c

/-- The command that a code selects; a code that none answers to does nothing. -/
def pick (fs : List (Chip → Chip)) (k : Nat) (c : Chip) : Chip := match fs[k]? with
  | some f => f c
  | none => c

/-- A write of RST_CMD with `RST_GO`. A channel reset takes the bytes written so far from the channel. -/
def rstWrite (p : Party) (v : Nat) (c : Chip) : Chip :=
  let t := bits v 27 8
  match bits v 3 0 with
  | 0 => match movRunOf (t / 64) (t % 64) c with
    | some r => via (execRstChannel p t (movProgress r c)) (useFree c)
    | none => via (execRstChannel p t 0) c
  | 1 => via (execRstStall p t) c
  | 2 => via (execRstCore p t) c
  | 3 => via (execRstEngine p t) c
  | 4 => via (execRstCluster p t) c
  | 5 => via (execRstPort p t) c
  | 6 => via (execRstChip p) c
  | k => rstCommand p k t (fun c => (1, c)) c

/-- A write of a Mover channel's enable and command bits: `CH_EN` and `PRIO_CAP`, then `ABORT`, then `RESUME`. -/
def movCtrl (p : Party) (e ch v : Nat) (c : Chip) : Chip :=
  let i := Fin.ofNat 12 e
  let k := Fin.ofNat 64 ch
  if !movOwns p e ch c then refuse (movPage e) 0x03 (movOff ch 8) c
  else
    let c := via (execChEnWrite p i k v) c
    let c := if bit v 1 then (match movRunOf e ch c with
        | some r => via (execMoverAbort p i k (movProgress r c)) (useFree c)
        | none => via (execMoverAbort p i k 0) c) else c
    if bit v 2 then via (execMoverResume p i k) c else c

/-- A register of a Mover channel's block (R244, R246, R247). -/
def movReg (p : Party) (e ch sub v : Nat) (fields : Chip → Chip) (c : Chip) : Chip :=
  match sub with
  | 0x08 => movCtrl p e ch v c
  | 0x0C => movWriteOwner p e ch v c
  | 0x10 => movTail p e ch (v % 2 ^ 15) c
  | 0x00 => movWriteConfig p e ch sub fields c
  | 0x04 => movWriteConfig p e ch sub fields c
  | 0x1C => movWriteConfig p e ch sub fields c
  | _ => c

/-- The check of `Q_EN` 1 of a COL queue (R27, R377, R378). -/
def colEnableCode (q : Nat) (c : Chip) : Nat :=
  let o := rd (Reg.COL_OWNER q) c
  let l := rd (Reg.COL_LOG2_N q) c
  if rdb (Reg.COL_BOUND q) c && lineTaken (rd (Reg.COL_LINE q) c) c then 0x0B
  else if l < 4 ∨ 12 < l ∨ ownerValid o = false then 0x23 else 0

/-- `Q_EN` and `GEN` of a COL queue written by its owner (R246, R377). A write that carries the `GEN` the queue has is no write of
that field (log entry 20). -/
def colCtrl (q v : Nat) (c : Chip) : Chip :=
  let off := 0x408 + 0x20 * q
  let on := rdb (Reg.COL_Q_EN q) c
  let g := bits v 31 16
  let c := if g = rd (Reg.COL_GEN q) c then c else if on then refuse 0x61 0x23 off c else wr (Reg.COL_GEN q) g c
  if on && !bit v 0 then colQueueOff q c
  else if !on && bit v 0 then
    let code := colEnableCode q c
    if code ≠ 0 then refuse 0x61 code off c
    else
      let c := if rdb (Reg.COL_BOUND q) c then bindProducer (rd (Reg.COL_LINE q) c) 0x61 q c else c
      colRest q (wr (Reg.COL_Q_EN q) 1 c)
  else c

/-- A register of a COL queue's block (R246, R247, R377). -/
def colReg (p : Party) (q sub v : Nat) (fields : Chip → Chip) (c : Chip) : Chip :=
  let off := 0x400 + 0x20 * q + sub
  let mine := rd (Reg.COL_OWNER q) c == ownerCode p c
  let on := rdb (Reg.COL_Q_EN q) c
  match sub with
  | 0x0C => if !isHost p then refuse 0x61 0x03 off c else if on then refuse 0x61 0x23 off c else fields c
  | 0x10 => colTailWrite p q (v % 2 ^ 13) c
  | 0x08 => if mine then colCtrl q v c else refuse 0x61 0x03 off c
  | _ => if !mine then refuse 0x61 0x03 off c else if on then refuse 0x61 0x23 off c else fields c

/-- STOP_ARM, STOP_NOW and RESUME of COL in one write. -/
def colStopReg (p : Party) (v : Nat) (c : Chip) : Chip :=
  let c := if bit v 0 == rdb Reg.COL_STOP_ARM c then c else via (execStopArm p (bit v 0)) c
  let c := if bit v 1 then via (execStopNow p) c else c
  if bit v 2 then via (execColResume p) c else c

/-- A register of an accelerator's block on the HRD page (R454): `ACC_EN`, `ACC_CMD` and the line fields, and the fields that stand
only while `ACC_EN` is 0. -/
def accWrite (p : Party) (a sub v : Nat) (fields : Chip → Chip) (c : Chip) : Chip :=
  let off := 0x800 + 0x80 * a + sub
  let i := Fin.ofNat 8 a
  let on := rdb (Reg.HRD_ACC_EN a) c
  if sub < 0x20 then (if on then refuse 0x70 0x24 off c else fields c)
  else if sub = 0x20 then
    let same := bits v 27 16 == rd (Reg.HRD_DB_LINE a) c && bits v 28 28 == rd (Reg.HRD_DB_BOUND a) c
    if on && !same then refuse 0x70 0x24 off c
    else
      let c := if on then c else wr (Reg.HRD_DB_BOUND a) (bits v 28 28) (wr (Reg.HRD_DB_LINE a) (bits v 27 16) c)
      let c := if bit v 0 == on then c else via (execAccEn p i (bit v 0)) c
      pick [id, via (execDrainFinish p i), via (execDrainMove p i), via (execAccResume p i)] (bits v 3 1) c
  else fields c

/-- A register of a volume on the PAL page (R664). -/
def volReg (p : Party) (v sub x : Nat) (fields : Chip → Chip) (c : Chip) : Chip :=
  let off := 0x800 + 0x20 * v + sub
  let on := rdb (Reg.PAL_VALID v) c
  if !isHost p then refuse 0x80 0x03 off c
  else if sub = 0x10 then
    if on then (if bit x 31 then c else wr (Reg.PAL_VALID v) 0 c)
    else
      let c := wr (Reg.PAL_GRANT v) (bits x 27 16) (wr (Reg.PAL_OWNER v) (bits x 15 0) c)
      if bit x 31 then volValidate v c else c
  else if on then c else fields c

/-- A write that changes what members a pool has (R166): the cores it affects, and whether one of them is disabled. -/
def poolWrite (off : Nat) (v : Nat) (fields : Chip → Chip) (c : Chip) : Chip :=
  let moved := (List.range 4).filterMap fun i =>
    let n := off - 0x200 + i
    if rd (Reg.CHN_POOL_OF n) c = v / 2 ^ (8 * i) % 256 then none else some n
  if moved.any (isDisabled · c) then refuse 0x60 0x21 off c
  else if moved.any fun n => pageState (corePage n) c != 0 then refuse 0x60 0x24 off c
  else
    let c := fields { c with numbered := c.numbered.filter fun n => !moved.elem n }
    (List.range 32).foldl (fun c p => recountPool p c) c

/-- `KIND`, `STALL`, `IMAGE` or `RESTART` of pool `p` written (R166); a write that leaves `KIND` and `STALL` as they are affects no
core. -/
def poolReg (p sub v : Nat) (fields : Chip → Chip) (c : Chip) : Chip :=
  let same := sub == 0 && bits v 1 0 == rd (Reg.CHN_KIND p) c && bits v 14 4 == rd (Reg.CHN_STALL p) c
  if !same && (poolCores p c).any fun n => pageState (corePage n) c != 0 then refuse 0x60 0x24 (0x400 + 0x20 * p + sub) c
  else fields c

/-- A publish ring's fields written (R853, and the writers of the MST page): the other port's ring is refused, `PUB_BASE` stands
while `PUB_EN` is 1, and a ring in device memory lies in HERD channels. -/
def pubReg (p : Party) (r sub v : Nat) (fields : Chip → Chip) (c : Chip) : Chip :=
  let off := 0x400 + 0x20 * r + sub
  let o := rd (Reg.MST_PUB_OWNER r) c
  let on := rdb (Reg.MST_PUB_EN r) c
  if isHost p && (o == 0x8000 || o == 0x8001) && o != ownerCode p c then refuse 6 0x03 off c
  else if sub < 8 then (if on then c else fields c)
  else if sub = 8 then
    let c' := fields c
    if bit v 6 && decide (bits v 5 4 = 2) && !inActivity 3 (rd (Reg.MST_PUB_BASE r) c) (64 + 64 * 2 ^ bits v 3 0) c then refuse 6 0x22 off c
    else if bit v 6 then
      wr (Reg.MST_PUB_OWNER r) (ownerCode p c) (if on then c' else wr (Reg.MST_PUB_CONSUMED r) 0 c')
    else c'
  else fields c

/-- What a register with a row of its own, or with rules of its own, does with a write of `n` bytes: none where only the access codes
decide. `fields` writes the fields of the register. -/
def ownRegister (p : Party) (page off n v : Nat) (fields : Chip → Chip) (c : Chip) : Option Chip :=
  let go := bit v 31
  let cmd := fun (b : Bool) (f : Chip → Chip) => if b then some (f c) else none
  match blockType page with
  | some 0x04 =>
    if off = 0x100 then cmd go (rstWrite p v)
    else if off = 0x108 then some (faultHold p (bit v 1) c)
    else if off = 0x110 ∧ (v % 2 ^ 16 < 100) then some (refuse 4 0x04 off c)
    else if off = 0x128 ∧ (v % 32 < 4 ∨ 20 < v % 32) then some (refuse 4 0x04 off c)
    else if (off = 0x120 ∨ off = 0x124 ∨ off = 0x128) ∧ (List.range 336).any (fun i => pageState (corePage i) c == 4) then
      some (refuse 4 0x21 off c)
    else none
  | some 0x02 => if off = 0x100 ∧ (v % 2 ^ 16 = 0 ∨ bits v 23 16 = 0) then some (refuse 2 0x04 off c) else none
  | some 0x03 =>
    if off = 0x304 then
      let step := fun r => bits v (4 * r + 3) (4 * r)
      some (if !isSteward p then refuse 3 0x03 off c
        else if (List.range 4).any fun r => decide (stepMax r < step r) then refuse 3 0x04 off c
        else (List.range 4).foldl (fun c r => setFwStep r (step r) c) c)
    else if off = 0x30C ∧ (v % 2 ^ 16 < 100 ∨ 850 < v % 2 ^ 16 ∨ bits v 31 16 < 60 ∨ 105 < bits v 31 16) then some (refuse 3 0x04 off c)
    else none
  | some 0x05 =>
    if off = 0x14C then cmd go (pick [via (execStage p false), via (execActivateLive p), via (execActivateReset p), via (execConfirm p),
      via (execCommitSvn p), via (execRevokeKey p (Fin.ofNat 4 (bits v 9 8)))] (bits v 3 0))
    else none
  | some 0x06 =>
    if 0x400 ≤ off ∧ off < 0x800 then some (pubReg p ((off - 0x400) / 0x20) ((off - 0x400) % 0x20) v fields c)
    else if isHost p then some (refuse 6 0x03 off c)
    else if off = 0x110 then some (stepNs p v c)
    else if off = 0x114 then some (stepNs p (v * 2 ^ 32) c)
    else if off = 0x108 then
      let c' := fields c
      let s := rd Reg.MST_DISC_SRC c'
      some (if s = rd Reg.MST_DISC_SRC c then c' else timeState (if s = 0 then 0 else 1) c')
    else none
  | some 0xB0 => if !isSteward p then some (refuse 0xB0 0x03 off c) else if off = 0x104 then some (uartTx p v c) else none
  | some 0x08 => match p with
    | .host h => if 8 + h.val = page then none else some (refuse page 0x03 off c)
    | _ => some (refuse page 0x03 off c)
  | some 0x10 =>
    if off = 0x100 then
      some (if !holdsSem p 0 c || rdb (Hdr.EN page) c then bindHost p (page - 0x10) v c else fields (bindHost p (page - 0x10) v c))
    else none
  | some 0x28 =>
    if off = 0x104 then some ((fun c => if bit v 1 then via (execCopy p) c else c) (if bit v 0 then via (execSwap p) c else c))
    else if off = 0x160 then cmd go (pick [via (execRxqReset p (Fin.ofNat 8192 v)), via (execRxqActive p (Fin.ofNat 8192 v))] (bits v 13 13))
    else if off = 0x294 then cmd go (pick [via (execStgCommit p v), via (execStgInvalidate p v)] (bits v 16 16))
    else none
  | some 0x30 =>
    if !tolMay p c then some (refuse 0x30 0x03 off c)
    else if off = 0x104 then cmd go (pick [via (execQLoad p), via (execQCommit p)] (bits v 0 0))
    else if off = 0x184 then cmd go (pick [via (execShpLoad p), via (execShpCommit p)] (bits v 0 0))
    else if off = 0x298 then cmd go (pick [via (execTxqReset p (Fin.ofNat 8192 v)), via (execTxqActive p (Fin.ofNat 8192 v))] (bits v 13 13))
    else none
  | some 0x40 =>
    let q := Fin.ofNat 4096 v
    if off = 0x108 then some (let c := fields c; if go then via (execDomainStart p) c else c)
    else if off = 0x310 then cmd go (pick [via (execQpReset p q), via (execQpReady p q), via (execQpActive p q), via (execQpError p q)] (bits v 13 12))
    else if off = 0x314 then cmd go (pick [via (execRegionValidate p (v % 2 ^ 16)), via (execRegionInvalidate p (v % 2 ^ 16))] (bits v 17 16))
    else none
  | some 0x50 =>
    let e := page - 0x50
    if off = 0x11C then cmd go (via (execChannelReset p (Fin.ofNat 12 e) (Fin.ofNat 64 v)))
    else if 0x400 ≤ off ∧ off < 0xC00 then some (movReg p e ((off - 0x400) / 0x20) ((off - 0x400) % 0x20) v fields c)
    else none
  | some 0x60 =>
    if off = 0x10C then some (memberRelease v c)
    else if 0x200 ≤ off ∧ off < 0x350 then some (poolWrite off v fields c)
    else if 0x400 ≤ off ∧ off < 0x800 then some (poolReg ((off - 0x400) / 0x20) ((off - 0x400) % 0x20) v fields c)
    else none
  | some 0x61 =>
    if off = 0x124 then cmd go (pick [via (execGroupValidate p (Fin.ofNat 4096 v)), via (execGroupInvalidate p (Fin.ofNat 4096 v))] (bits v 13 12))
    else if off = 0x12C then some (colStopReg p v c)
    else if 0x400 ≤ off ∧ off < 0x600 then some (colReg p ((off - 0x400) / 0x20) ((off - 0x400) % 0x20) v fields c)
    else none
  | some 0x70 =>
    let q := Fin.ofNat 4096 v
    if off = 0x160 then cmd go (pick [via (execIntakeReset p q), via (execIntakeActive p q), via (execIntakeDrain p q)] (bits v 13 12))
    else if off = 0x164 then cmd go (pick [via (execPolicyValidate p q), via (execPolicyInvalidate p q)] (bits v 13 12))
    else if 0x800 ≤ off ∧ off < 0xC00 then some (accWrite p ((off - 0x800) / 0x80) ((off - 0x800) % 0x80) v fields c)
    else none
  | some 0x71 =>
    let i := Fin.ofNat 4096 v
    if off = 0x114 then cmd go (pick [via (execImageValidate p i), via (execImageInvalidate p i), via (execFill p i), via (execImageRelease p i)] (bits v 14 12))
    else none
  | some 0x72 =>
    if off = 0x170 then cmd go (pick [via (execSeqCreate p (v % 4096)), via (execSeqFree p)] (bits v 13 12)) else none
  | some 0x78 =>
    if off = 0x230 then cmd go (via (execReclaimGo p))
    else if off = 0x234 then cmd go (pick [via (execLbyStart p), via (execLbyRestore p), via (execEndJob p)] (bits v 2 0))
    else none
  | some 0x79 =>
    if off = 0x104 then cmd go (pick [via (execClaim p), via (execClear p), via (execRelease p), via (execCtxCmdReserved p)] (bits v 1 0))
    else if 0x110 ≤ off ∧ off < 0x120 then
      some (match bankOf p c with
        | none => refuse 0x79 0x03 off c
        | some b =>
          let i := rdB b Reg.WMK_CTX_SEL c
          let x := wmkGet i c
          if x.owner ≠ ownerCode p c then refuse 0x79 0x03 off c
          else if off < 0x118 then wmkSet i { x with seed0 := fldMerge Reg.WMK_SEED0 off n x.seed0 v } c
          else wmkSet i { x with seed1 := fldMerge Reg.WMK_SEED1 off n x.seed1 v } c)
    else none
  | some 0x80 =>
    if off = 0x124 then some (let c := fields c; if go then via (execRebuildGo p (Fin.ofNat 8 v)) c else c)
    else if off = 0x150 then cmd go (pick [via (execPqReset p (Fin.ofNat 4096 v)), via (execPqActive p (Fin.ofNat 4096 v))] (bits v 12 12))
    else if 0x800 ≤ off then some (volReg p ((off - 0x800) / 0x20) ((off - 0x800) % 0x20) v fields c)
    else none
  | some 0x88 =>
    if off = 0x104 then
      let quiet := (freeVal c).getLsbD 0
      let c := if bit v 0 then via (execAlarmClear p quiet) (useFree c) else c
      some (if bit v 1 then via (execEraseAll p) c else c)
    else none
  | some 0x90 =>
    let s := Fin.ofNat 2048 (bits v 14 4)
    if off = 0x200 then cmd go (pick [via (execStallCreate p s), via (execStallRemove p s), via (execStallReset p s), via (execLogStart p s),
      via (execLogStop p s), via (execFreeze p s), via (execSave p s), via (execStallRestore p s), via (execThaw p s), via (execSetLimits p s),
      via (execLoadService p (bits v 14 4)), via (execStopService p (bits v 14 4))] (bits v 3 0))
    else none
  | some 0xA0 => if 0x100 ≤ off ∧ off < 0x200 then some (chOwner (page - 0xA0) ((off - 0x100) / 4) v c) else none
  | some 0x1000 =>
    let k := page - 0x1000
    if off = 0x100 then some (via (execKeyOwnerWrite p (Fin.ofNat 256 k) (v % 2 ^ 16)) c)
    else if !keyOwns p k c then some (refuse page 0x03 off c)
    else if off = 0x110 then some (keyLoadWrite p k v c)
    else none
  | some 0x2000 => if off = 0x104 then some (churnRun (Fin.ofNat 336 (page - 0x2000)) v c) else none
  | _ => none

/-! ### Writing -/

/-- One field written by a party, as its access code says (R9, R12, R50). -/
def fldWrite (b off n v : Nat) (c : Chip) (f : Fld) : Chip :=
  let put := fun (c : Chip) => if bankedFld f then wrB b f (fldMerge f off n (rdB b f c) v) c else wr f (fldMerge f off n (rd f c) v) c
  match f.acc with
  | .ro => c
  | .wo => if bankedFld f then put c else c
  | .rw => put c
  | .rwg => put c
  | .rwe => if rdb (Hdr.EN f.page) c then c else put c
  | .w1c => wr f (rd f c - Nat.land (rd f c) (fldMerge f off n 0 v)) c

/-- The reserved bits of a dword held as written (R11). -/
def heldWrite (page off v : Nat) (c : Chip) : Chip :=
  { c with held := mapPut 0 c.held (page * 0x1000 + off) (Nat.land (v % 2 ^ 32) (heldMask page off)) }

/-- The fields of the dwords that a write of `n` bytes covers, each once. -/
def fieldsOf (page off n : Nat) : List Fld :=
  if n = 8 then (pageFields page off ++ pageFields page (off + 4)).eraseDups else pageFields page off

/-- The fields and reserved bits of a register written. A party without a copy of a banked register is refused (log entry 18). -/
def fieldsWrite (p : Party) (page off n v : Nat) (c : Chip) : Chip :=
  let fs := fieldsOf page off n
  match bankOf p c, fs.any fun f => bankedFld f && writable f with
  | none, true => refuse page 0x03 off c
  | b, _ =>
    let c := heldWrite page off v (fs.foldl (fldWrite (b.getD 0) off n v) c)
    if n = 8 then heldWrite page (off + 4) (v / 2 ^ 32) c else c

/-- BLK_IRQ_ROUTE written (R63): each host port its own half. -/
def irqRouteWrite (p : Party) (page v : Nat) (c : Chip) : Chip :=
  let h0 := fun (c : Chip) => wr (Hdr.EN_HOST0 page) (bits v 15 15) (wr (Hdr.VEC_HOST0 page) (bits v 10 0) c)
  let h1 := fun (c : Chip) => wr (Hdr.EN_HOST1 page) (bits v 31 31) (wr (Hdr.VEC_HOST1 page) (bits v 26 16) c)
  match p with
  | .host h => if h.val = 0 then h0 c else h1 c
  | .steward => h1 (h0 c)
  | _ => refuse page 0x03 0x2C c

/-- BLK_GUARD written (R66). -/
def guardWrite (p : Party) (page v : Nat) (c : Chip) : Chip :=
  if fixedGuard page || page == 1 then c
  else if !holdsSem p 0 c then refuse page 0x07 0x30 c
  else if rdb (Hdr.EN page) c then refuse page 0x06 0x30 c
  else wr (Hdr.GUARDED page) (bits v 31 31) (wr (Hdr.SEM page) (bits v 5 0) c)

/-- A dword of the common header written (R59–R66). -/
def headerWrite (p : Party) (page off v : Nat) (c : Chip) : Chip :=
  match off with
  | 0x08 => ctrlWrite p page v c
  | 0x28 => errCountWrite p page v c
  | 0x2C => irqRouteWrite p page v c
  | 0x30 => guardWrite p page v c
  | _ =>
    if (pageFields page off).all fun f => !writable f then c
    else if !guardOk p page c then refuse page 0x07 off c
    else (pageFields page off).foldl (fldWrite 0 off 4 v) c

/-- A register, or the dword of one, written at 0x100 or above. -/
def blockWrite (p : Party) (page off n v : Nat) (c : Chip) : Chip :=
  if blockType page = some 1 then
    if 0x100 ≤ off ∧ off < 0x300 then
      (if off % 8 = 0 then semWrite p ((off - 0x100) / 8) v (n == 8) c else c)
    else if off = 0x300 then crsBreak p v c else c
  else if !guardOk p page c then refuse page 0x07 off c
  else match ownRegister p page off n v (fieldsWrite p page off n v) c with
    | some c => c
    | none => fieldsWrite p page off n v c

/-- A write of `n` bytes to the rule window (R57, R588, R598): entries of a table are 4 bytes each. -/
def windowWrite (p : Party) (a n v : Nat) (c : Chip) : Chip :=
  if a < 0x200000 then
    (if !guardOk p 0x28 c then refuse 0x28 0x07 (a % 0x1000) c else ruleWindowWrite p (a / 256) (a % 256) v n c)
  else if a < 0x280000 then
    let e := fun (a v : Nat) => windowTable p ((a - 0x200000) / 2048) ((a - 0x200000) % 2048 / 4) v
    let c := e a (v % 2 ^ 32) c
    if n = 8 then e (a + 4) (v / 2 ^ 32) c else c
  else c

/-- A register or a dword written at once. -/
def regPut (p : Party) (page off n v : Nat) (c : Chip) : Chip :=
  if inRuleWindow page then windowWrite p ((page - 0x400) * 0x1000 + off) n v c
  else if !hasHeader page then c
  else if off < 0x100 then headerWrite p page off v c
  else blockWrite p page off n v c

/-- The access waits for the page to wake (R78). -/
def sleeps (page off : Nat) (c : Chip) : Bool :=
  decide (0x100 ≤ off) && pageState page c == 6 || (inRuleWindow page && pageState 0x28 c == 6)

/-- A 32-bit write (R15). -/
def write32 (p : Party) (page off v : Nat) (c : Chip) : Chip :=
  let v := v % 2 ^ 32
  if sleeps page off c then holdAccess p page off 32 (some v) c
  else if isLow page off && !lowAlone page off then setPend p (some ⟨page, off, v⟩) c
  else if isHigh page off then
    match mapGet none c.pendLow (partyIx p) with
    | some h =>
      if h.page = page ∧ h.off + 4 = off then regPut p page (off - 4) 8 (h.value + 2 ^ 32 * v) (setPend p none c)
      else regPut p page off 4 v c
    | none => regPut p page off 4 v c
  else regPut p page off 4 v c

/-- A 64-bit write: a 64-bit register at once, two 32-bit registers in ascending order (R15, R52). -/
def write64 (p : Party) (page off v : Nat) (c : Chip) : Chip :=
  if sleeps page off c then holdAccess p page off 64 (some v) c
  else if isLow page off || inRuleWindow page then regPut p page off 8 (v % 2 ^ 64) c
  else regPut p page (off + 4) 4 (v / 2 ^ 32 % 2 ^ 32) (regPut p page off 4 (v % 2 ^ 32) c)

/-- A longer write as consecutive 32-bit writes in ascending order (R53). -/
def writeRun (p : Party) : Nat → Nat → Nat → Nat → Chip → Chip
  | 0, _, _, _, c => c
  | k + 1, page, off, v, c => writeRun p k (page + (off + 4) / 0x1000) ((off + 4) % 0x1000) (v / 2 ^ 32) (write32 p page off v c)

/-- A register write of a width (R52, R53). -/
def regWrite (p : Party) (page off width v : Nat) (c : Chip) : Chip :=
  if width = 32 ∧ off % 4 = 0 then write32 p page off v c
  else if width = 64 ∧ off % 8 = 0 then write64 p page off v c
  else if 64 < width ∧ width % 32 = 0 ∧ off % 4 = 0 then writeRun p (width / 32) page off v c
  else refuse page 0x02 off c

/-- REGISTER_WRITE. -/
def execRegisterWrite (p : Party) (page off bits value : Nat) : State → Host.Outcome State Fault Refusal :=
  onChip (regWrite p page (off % 0x1000) bits value)

/-- LOW_WORD_WRITE. -/
def execLowWordWrite (p : Party) (page off value : Nat) : State → Host.Outcome State Fault Refusal :=
  onChip (regWrite p page (off % 0x1000) 32 value)

/-- A 32-bit read (R16, R17, R78, R84). -/
def read32 (p : Party) (page off : Nat) (c : Chip) : Chip :=
  if sleeps page off c then holdAccess p page off 32 none c
  else if blockType page = some 1 ∧ 0x100 ≤ off ∧ off < 0x300 ∧ off % 8 = 0 then semRead ((off - 0x100) / 8) [p] false c
  else if page = 0xB0 ∧ off = 0x108 then via (execUartRxPop p) c
  else if isLow page off then
    emit (.readData p (dwordFor p page off c)) (setLatch p (some ⟨page, off, dwordFor p page (off + 4) c⟩) c)
  else match mapGet none c.latch (partyIx p) with
    | some h =>
      if isHigh page off && decide (h.page = page ∧ h.off + 4 = off) then emit (.readData p h.value) (setLatch p none c)
      else emit (.readData p (dwordFor p page off c)) c
    | none => emit (.readData p (dwordFor p page off c)) c

/-- LOW_WORD_READ. -/
def execLowWordRead (p : Party) (page off : Nat) : State → Host.Outcome State Fault Refusal := onChip (read32 p page (off % 0x1000))

/-- An access as an ASLEEP page meets it (R78), and as it completes once the page runs. -/
def regTouch (p : Party) (page off width : Nat) (w : Option Nat) (c : Chip) : Chip :=
  match w with
  | some v => regWrite p page off width v c
  | none => read32 p page off c

/-- ASLEEP_PAGE_ACCESS: a 32-bit access. -/
def execAsleepPageAccess (p : Party) (page off : Nat) (wr : Option Nat) : State → Host.Outcome State Fault Refusal :=
  onChip (regTouch p page (off % 0x1000) 32 wr)

end Sys2Proof.Machine
end

