-- ==== Sys2Proof/Machine/Power.lean ====
section
/-! DEFINITION. Power domains, sleep and wake, PLLs and the Milestone edge (chapter 21, R29–R31, R551–R553, R845). -/

namespace Sys2Proof.Machine

/-! ### PLLs (R551, R785–R789) -/

/-- PLL `i` runs. -/
def pllOn (i : Nat) (c : Chip) : Bool := (rd Reg.PWR_PLL_ON c).testBit i

/-- The `PLL_ON` bit of a PLL written. -/
def setPll (i : Nat) (on : Bool) (c : Chip) : Chip := wr Reg.PWR_PLL_ON (setBits (rd Reg.PWR_PLL_ON c) i 1 (b2n on)) c

/-- A stopped PLL is started, its first attempt (R787). -/
def pllStart (i : Nat) (c : Chip) : Chip :=
  if pllOn i c || mapGet 0 c.pllTries i != 0 then c else { c with pllTries := mapPut 0 c.pllTries i 1 }

/-- PLL_LOCK. -/
def pllLock (i : Nat) (c : Chip) : Chip :=
  if mapGet 0 c.pllTries i = 0 then c else setPll i true { c with pllTries := mapPut 0 c.pllTries i 0 }

def execPllLock (i : Fin 4) : State → Host.Outcome State Fault Refusal := onChip (pllLock i.val)

/-- PLL_LOCK_TIMEOUT: a second attempt, then `PLL_LOCK_FAIL`; the domains granted that need it wait again (R789). -/
def pllTimeout (i : Nat) (c : Chip) : Chip :=
  match mapGet 0 c.pllTries i with
  | 0 => c
  | 1 => { c with pllTries := mapPut 0 c.pllTries i 2 }
  | _ => raise 2 0x1603 2 { c with pllTries := mapPut 0 c.pllTries i 0, pllFailed := setAdd c.pllFailed i
                                   waking := c.waking.filter fun d => !(domainPlls d).elem i }

def execPllLockTimeout (i : Fin 4) : State → Host.Outcome State Fault Refusal := onChip (pllTimeout i.val)

/-- Some domain that needs PLL `i` is awake or waking (R785, R787). -/
def pllNeeded (i : Nat) (c : Chip) : Bool :=
  (List.range 431).any fun d => (domainPlls d).elem i && (domAwake d c || c.waking.elem d)

/-- PLL_STOP. The fabric PLL runs on, since the base domain never sleeps (R797). -/
def pllStop (i : Nat) (c : Chip) : Chip := if pllNeeded i c then c else setPll i false c

def execPllStop (i : Fin 4) : State → Host.Outcome State Fault Refusal := onChip (pllStop i.val)

/-! ### Wakes (R29–R31, R787, R792, R798, R799) -/

/-- A wake request that the power manager refuses for SPARE, TRIP or PLL: recorded once per cause; a register access ends there
(R78), any other item stays held (R30). -/
def wakeJudge (c : Chip) (r : WakeReq) : Chip :=
  let cause := wakeRefusal r.dom r.item c
  match r.item with
  | .access p page off _ w =>
    if cause = 0 then { c with wakes := c.wakes ++ [r] }
    else
      let c := refuse page 0x0A off (recordWakeRefusal r.dom cause c)
      match w with
      | none => emit (.readData p 0) c
      | some _ => c
  | _ =>
    if cause = 0 ∨ r.refused.testBit cause = true then { c with wakes := c.wakes ++ [r] }
    else
      let c := recordWakeRefusal r.dom cause c
      { c with wakes := c.wakes ++ [{ r with refused := r.refused ||| 2 ^ cause }] }

/-- Every waiting request judged anew. -/
def wakesJudge (c : Chip) : Chip := c.wakes.foldl wakeJudge { c with wakes := [] }

/-- The cluster domain of a core domain sleeps. -/
def clusterAsleep (d : Nat) (c : Chip) : Bool := decide (d < 336) && !domAwake (336 + d / 16) c

/-- The domain that a request is granted: for a core whose cluster sleeps the cluster's (R792). -/
def grantDomain (r : WakeReq) (c : Chip) : Nat := if clusterAsleep r.dom c then 336 + r.dom / 16 else r.dom

/-- The domains that can be granted. -/
def grantable (c : Chip) : List Nat :=
  ((c.wakes.filter fun r => wakeRefusal r.dom r.item c == 0).map fun r => grantDomain r c).filter fun d =>
    !domAwake d c && !c.waking.elem d

/-- WAKE_GRANT: the lowest of them, which starts the PLLs that it needs. -/
def wakeGrant (c : Chip) : Chip :=
  let c := wakesJudge c
  match (grantable c).min? with
  | none => c
  | some d => (domainPlls d).foldl (fun c i => pllStart i c) { c with waking := c.waking ++ [d] }

def execWakeGrant : State → Host.Outcome State Fault Refusal := onChip wakeGrant

/-- What a wake held goes on, now that its domain is awake (R29, R78, R725, R793, R796). -/
def deliverItem (d : Nat) (item : HeldItem) (c : Chip) : Chip :=
  match item with
  | .pulse k => deliverPulse k c
  | .access p page off w x => regTouch p page off w x c
  | .irq w line => interruptLine (.wayside (Fin.ofNat 24 w)) line c
  | .aperture h off w len bad => apertureAccess h off w len bad c
  | .accel a op addr => if d = 393 + a then accelRequest a op addr c else accRoute a op addr c
  | .reissue _ => c
  | .work => c

/-- The page of a domain that has woken: an ASLEEP page is RUNNING (R68), and the link of an SPR or SSD page leaves L1.2 (R725). -/
def pageWakes (d : Nat) (c : Chip) : Chip :=
  match domainPage d with
  | some p =>
    if pageState p c = 6 then
      let c := if isPort p && rd (linkFld p) c / 2 ^ 9 == 4 then wr (linkFld p) (setBits (rd (linkFld p) c) 9 3 1) c else c
      pageArrives p c
    else c
  | none => c

/-- WAKE_COMPLETE: the domain is awake; its page runs, and what waited goes on in the order in which it came. -/
def wakeComplete (d : Nat) (c : Chip) : Chip :=
  if !c.waking.elem d || clusterAsleep d c || (domainPlls d).any (fun i => !pllOn i c) then c
  else
    let items := (c.wakes.filter fun r => r.dom == d && wakeRefusal d r.item c == 0).map (·.item)
    let c := { c with waking := setDel c.waking d, wakes := c.wakes.filter fun r => !(r.dom == d && wakeRefusal d r.item c == 0) }
    let c := pageWakes d (bump (Reg.PWR_CTR 0) 1 (setAwake d true c))
    items.foldl (fun c i => deliverItem d i c) c

def execWakeComplete (d : Fin 431) : State → Host.Outcome State Fault Refusal := onChip (wakeComplete d.val)

/-- TIMEOUT of one request: recorded once for a held item that is no register access. -/
def wakeLate (d : Nat) (c : Chip) (r : WakeReq) : Chip :=
  let access := match r.item with
    | .access .. => true
    | _ => false
  if r.dom ≠ d ∨ access = true ∨ r.refused.testBit 1 = true then { c with wakes := c.wakes ++ [r] }
  else
    let c := recordWakeRefusal d 1 c
    { c with wakes := c.wakes ++ [{ r with refused := r.refused ||| 2 }] }

/-- WAKE_TIMEOUT: of the domain's items, while it has no grant. -/
def wakeTimeout (d : Nat) (c : Chip) : Chip :=
  if c.waking.elem d || domAwake d c then c else c.wakes.foldl (wakeLate d) { c with wakes := [] }

def execWakeTimeout (d : Fin 431) : State → Host.Outcome State Fault Refusal := onChip (wakeTimeout d.val)

/-! ### Sleep (R793–R797) -/

/-- A request waits for the domain, and prevails over its sleep (R795). -/
def wakeWaits (d : Nat) (c : Chip) : Bool := c.wakes.any fun r => grantDomain r c == d || r.dom == d

/-- The blocks of every activity that owns a channel of MEM page `m` are ASLEEP or OFF (R793). -/
def memMaySleep (m : Nat) (c : Chip) : Bool :=
  (List.range (if m = 6 then 64 else 32)).all fun n =>
    (actPages (rd (Reg.MEM_ACTIVITY m n) c)).all fun p => pageState p c == 6 || pageState p c == 0

/-- A domain enters sleep. -/
def domainSleeps (d : Nat) (c : Chip) : Chip := bump (Reg.PWR_CTR 1) 1 (setAwake d false c)

/-- SLEEP_ENTRY: the page, idle for `IDLE_US`, is ASLEEP; a Spur or SSD link goes to L1.2 first (R725). -/
def sleepEntry (p : Nat) (c : Chip) : Chip :=
  let d := pageDomain p
  if !running p c || !rdb (Hdr.SLEEP_OK p) c || rd (Hdr.IDLE_US p) c == 0 || !pageIdle p c || wakeWaits d c || decide (430 ≤ d) ||
     ((blockType p == some 0xA0) && !memMaySleep (p - 0xA0) c) then c
  else
    let c := if isPort p && portUp p c then wr (linkFld p) (setBits (rd (linkFld p) c) 9 3 4) c else c
    domainSleeps d (wr (Hdr.STATE p) 6 c)

def execSleepEntry (page : Nat) : State → Host.Outcome State Fault Refusal := onChip (sleepEntry page)

/-- CLUSTER_SLEEP: a cluster whose cores are all ASLEEP or OFF sleeps, and their domains with it (R792). -/
def clusterSleep (k : Nat) (c : Chip) : Chip :=
  let cores := (List.range 16).map (16 * k + ·)
  if rd Reg.PWR_CLUSTER_IDLE_US c == 0 || !domAwake (336 + k) c || wakeWaits (336 + k) c ||
     cores.any (fun n => (pageState (corePage n) c != 6 && pageState (corePage n) c != 0) || c.waking.elem n || wakeWaits n c) then c
  else cores.foldl (fun c n => setAwake n false c) (domainSleeps (336 + k) c)

def execClusterSleep (c : Fin 21) : State → Host.Outcome State Fault Refusal := onChip (clusterSleep c.val)

/-- WAYSIDE_SLEEP: a core in WFI without a pending enabled interrupt (R796). -/
def waysideSleep (w : Fin 24) (c : Chip) : Chip :=
  let k := getCore (.wayside w) c
  if rd Reg.PWR_WAYSIDE_IDLE_US c == 0 || !domAwake (357 + w.val) c || wakeWaits (357 + w.val) c || !k.wfi ||
     (k.irqPending &&& k.irqEnable) != 0 then c
  else domainSleeps (357 + w.val) c

def execWaysideSleep (w : Fin 24) : State → Host.Outcome State Fault Refusal := onChip (waysideSleep w)

/-! ### Edge faults (R553) -/

/-- The pages of the fabric's domains. -/
def fabricPages : List Nat :=
  [0, 1, 8, 9] ++ (List.range 20).map (0x10 + ·) ++ [0x28, 0x30, 0x40] ++ (List.range 12).map (0x50 + ·) ++
  [0x60, 0x61, 0x70, 0x71, 0x72, 0x78, 0x79, 0x80, 0x88, 0x90] ++ (List.range 7).map (0xA0 + ·)

/-- EDGE_FAULT of the fast domain of PLL `i`: its blocks are fenced, members on its cores reissued, and its PLL aligned anew. -/
def edgeFault (i : Nat) (c : Chip) : Chip :=
  if !pllOn i c then c
  else
    let c := bump (Reg.PWR_CTR 3) 1 (raise 2 0x1601 2 c)
    let c := if i = 0 then fabricPages.foldl (fun c p => fencePage p c) c
      else ((List.range 336).filter fun n => (domainPlls n).elem i).foldl (fun c n =>
        if coreRuns n c then coreReissue (coreFin n) 0 c else fencePage (corePage n) c) c
    pllStart i (setPll i false c)

def execEdgeFault (i : Fin 4) : State → Host.Outcome State Fault Refusal := onChip (edgeFault i.val)

/-! ### The Milestone edge -/

/-- The 4-bit reversal. -/
def reverse4 (n : Nat) : Nat := 8 * (n % 2) + 4 * (n / 2 % 2) + 2 * (n / 4 % 2) + n / 8 % 2

/-- Milestone period `p` is gated at step `k` (R801). -/
def gated (k p : Nat) : Bool := decide (reverse4 (p % 16) < k)

/-- The step that gates the clocks of Churn core `n` (R800). -/
def coreStep (n : Nat) (c : Chip) : Nat :=
  let north := mapGet 0 c.stepNow 0
  let south := mapGet 0 c.stepNow 1
  if n / 16 < 10 then north else if n / 16 < 20 then south else max north south

/-- The Mover and Pail buckets of each stall gain their rates (R607, R741). -/
def stallEdge (c : Chip) : Chip :=
  if (rd Reg.STL_STALLS_USED c == 0) then c
  else (liveStalls c).foldl (fun c s =>
    { c with stallMov := mapPut (0 : Int) c.stallMov s (bucketGain (stallF s 0xC0 31 0 c) (stallF s 0xC4 23 0 c) (mapGet (0 : Int) c.stallMov s))
             stallPail := mapPut (0 : Int) c.stallPail s (bucketGain (stallF s 0xC8 31 0 c) (stallF s 0xCC 25 0 c) (mapGet (0 : Int) c.stallPail s)) }) c

/-- MILESTONE_EDGE: Milestone time advances by 10, buckets gain, cores whose period is not gated go on (R164, R178, R552), refused
wakes are requested again. -/
def milestoneEdge (c : Chip) : Chip :=
  let c := wr Reg.MST_MS_TIME (now c + 10) c
  let c := stallEdge (tolEdge c)
  let c := (List.range 336).foldl (fun c n => if gated (coreStep n c) (now c / 10) then c else edgeCore (coreFin n) c) c
  wakesJudge c

def execMilestoneEdge : State → Host.Outcome State Fault Refusal := onChip milestoneEdge

end Sys2Proof.Machine
end

