-- ==== Sys2Proof/Machine/StallCtl.lean ====
section
/-! DEFINITION. The control rings of the stalls (R754): requests that image 0 carries out on a stall's own resources, and their completions. -/

namespace Sys2Proof.Machine

/-- How a request ends: `STATUS`, `DETAIL`, and the chip. -/
abbrev CtlEnd := Nat × Nat × Chip

/-- The fields of a request entry. -/
structure CtlReq where
  op : Nat
  kind : Nat
  gen : Nat
  ix : Nat
  addr : Nat
  len : Nat
  arg : Nat
  id : Nat
  clean : Bool
deriving DecidableEq, Repr

/-- A request read from its 64 bytes; `clean` tells that every unlisted bit is 0. -/
def ctlParse (b : List Nat) : CtlReq :=
  let q := leNat b
  let f := fun off hi lo => bits q (8 * off + hi) (8 * off + lo)
  { op := f 0 7 0, kind := f 0 15 8, gen := f 0 31 16, ix := f 4 15 0, addr := f 8 63 0, len := f 0x10 12 0, arg := f 0x14 31 0,
    id := f 0x18 31 0, clean := f 4 31 16 == 0 && f 0x10 31 13 == 0 && f 0x1C 31 0 == 0 && leNat (b.drop 0x20) == 0 }

/-- The size of a control ring, and its places. -/
def ctlSize (s : Nat) (c : Chip) : Nat := 2 ^ stallF s 0xE0 3 0 c
def ctlBase (s : Nat) (c : Chip) : Nat := stallF s 0xE0 63 12 c * 4096
def ctlCqBase (s : Nat) (c : Chip) : Nat := stallF s 0xE8 63 12 c * 4096

/-- The lowest Wayside core of image 0, as the party that acts (R753). -/
def controlParty (c : Chip) : Party :=
  .wayside (Fin.ofNat 24 (((List.range 24).find? fun w => (mapGet 0 c.images 0).testBit w).getD 0))

/-- The refusal code that an operation on a page records, 0 when it records none; the page's latest refusal stands then. -/
def refusalOf (page : Nat) (f : Chip → Chip) (c : Chip) : Nat × Chip :=
  let old := rd (Hdr.REFUSAL_CODE page) c
  let c := f (wr (Hdr.REFUSAL_CODE page) 0 c)
  let code := rd (Hdr.REFUSAL_CODE page) c
  if code = 0 then (0, wr (Hdr.REFUSAL_CODE page) old c) else (code, c)

/-- SUCCESS, or CHECK_FAILED with the code. -/
def ctlCheck (r : Nat × Chip) : CtlEnd := if r.1 = 0 then (0, 0, r.2) else (3, r.1, r.2)

/-- The result of a queue pair's latest command: code 0x01 is a state that does not take it. -/
def qpEnded (n : Nat) (c : Chip) : CtlEnd :=
  match qpF n 0x54 7 0 c with
  | 0 => (0, 0, c)
  | 1 => (4, 0, c)
  | k => (3, k, c)

/-- The result that a queue command left in a register of its page. -/
def regEnded (f : Fld) (c : Chip) : CtlEnd := ctlCheck (rd f c, c)

/-- The member of a stall's pool with a number. -/
def stallMember (s m : Nat) (c : Chip) : Option Nat :=
  let p := stallFirst s 12 c
  (stallRes s 12 c).find? fun n => memberOf p n c == m

/-- The global index of a request's target; none beyond the stall's count (NOT_OWNED). -/
def ctlTarget (s k ix : Nat) (c : Chip) : Option Nat :=
  if k = 11 then
    (if stallCount s 11 c = 0 ∨ ((wmkGet ix c).owner ≠ s ∧ stallCount s 11 c ≤ (stallRes s 11 c).length) then none else some ix)
  else if stallCount s k c ≤ ix then none
  else if k = 12 then stallMember s ix c
  else (stallRes s k c)[ix]?

/-- The page that a target belongs to. -/
def ctlPage (k i : Nat) : Nat :=
  match k with
  | 0 => 0x40 | 1 => 0x28 | 2 => 0x30 | 3 => movPage (i / 64) | 4 => 0x61 | 5 => 0x80 | 6 => 0x70 | 7 => 0x40 | 8 => 0x28 | 9 => 0x28
  | 10 => keyPage i | 11 => 0x79 | _ => corePage i

/-! ### WRITE_CONTEXT -/

/-- The bytes of a context that its owner writes. -/
def ctlLen (k : Nat) : Nat := if k = 0 ∨ k = 6 then 64 else 32

/-- The context takes the write: it is in RESET, or not enabled. -/
def ctlResting (k i : Nat) (c : Chip) : Bool :=
  match k with
  | 0 => qpState i c == 0
  | 1 => !rxActive i c
  | 2 => !txActive i c
  | 3 => !rdb (Reg.MOV_CH_EN (i / 64) (i % 64)) c
  | 4 => !rdb (Reg.COL_Q_EN i) c
  | 5 => !palActive i c
  | _ => (getInk i c).state == 0

/-- The owner-written fields of a context from a block in the context's layout. -/
def ctlFill (k i : Nat) (b : List Nat) (c : Chip) : Chip :=
  let f := fun off hi lo => bits (leNat b) (8 * off + hi) (8 * off + lo)
  match k with
  | 0 => put spDev (qpBase i c) b c
  | 1 => put spDev (rxBase i c) b c
  | 2 => put spDev (txBase i c) b c
  | 3 =>
    let e := i / 64
    let ch := i % 64
    let c := wr (Reg.MOV_PRIO_CAP e ch) (f 8 4 3) (wr (Reg.MOV_BASE e ch) (f 0 63 12) (wr (Reg.MOV_LOG2_N e ch) (f 0 3 0) c))
    wr (Reg.MOV_BOUND1 e ch) (f 0x1C 28 28) (wr (Reg.MOV_LINE1 e ch) (f 0x1C 27 16)
      (wr (Reg.MOV_BOUND0 e ch) (f 0x1C 12 12) (wr (Reg.MOV_LINE0 e ch) (f 0x1C 11 0) c)))
  | 4 => wr (Reg.COL_BOUND i) (f 0x1C 12 12) (wr (Reg.COL_LINE i) (f 0x1C 11 0)
      (wr (Reg.COL_BASE i) (f 0 63 12) (wr (Reg.COL_LOG2_N i) (f 0 3 0) c)))
  | 5 => put spDev (palBase i c) b c
  | _ => put spDev (inkBase i c) b c

/-- WRITE_CONTEXT of context `i`. -/
def ctlContext (s : Nat) (r : CtlReq) (b : List Nat) (i : Nat) (c : Chip) : CtlEnd :=
  if !ctlResting r.kind i c then (4, 0, c)
  else (0, 0, resGen r.kind i s (stallGen s c) (ctlFill r.kind i b c))

/-! ### QUEUE_CMD -/

/-- A command with code 0 RESET or 1 ACTIVE on a queue whose result stands in a register; RESET of one in RESET leaves it there. -/
def ctlQueue (res : Fld) (active : Bool) (reset activate : Chip → Chip) (arg : Nat) (c : Chip) : CtlEnd :=
  match arg with
  | 0 => regEnded res (wr res 0 (reset c))
  | 1 => if active then (4, 0, c) else regEnded res (activate c)
  | _ => (1, 0, c)

/-- QUEUE_CMD: `ARG` is the code that the target's own command register takes (log entry 43). -/
def ctlCommand (r : CtlReq) (i : Nat) (c : Chip) : CtlEnd :=
  match r.kind with
  | 0 => match r.arg with
    | 0 => qpEnded i (qpReset i c)
    | 1 => qpEnded i (qpReady i c)
    | 2 => qpEnded i (qpActive i c)
    | 3 => qpEnded i (qpError i c)
    | _ => (1, 0, c)
  | 1 => ctlQueue Reg.SEP_RXQ_RESULT (rxActive i c) (rxReset i) (rxActivate i) r.arg c
  | 2 => ctlQueue Reg.TOL_TXQ_RESULT (txActive i c) (txReset i) (txActivate i) r.arg c
  | 3 =>
    let e := i / 64
    let ch := i % 64
    if 8 ≤ r.arg then (1, 0, c)
    else
      let progress := match movRunOf e ch c with
        | some x => movProgress x c
        | none => 0
      let v := bits r.arg 0 0 + 8 * rd (Reg.MOV_PRIO_CAP e ch) c
      ctlCheck (refusalOf (movPage e) (fun c =>
        let c := movWriteEn e ch v progress c
        let c := if bit r.arg 1 && movStops e ch c then movVat e ch (movWriteAbort e ch progress c) else c
        if bit r.arg 2 then movWriteResume e ch c else c) (useFree c))
  | 4 =>
    if 2 ≤ r.arg then (1, 0, c)
    else ctlCheck (refusalOf 0x61 (colCtrl i (bits r.arg 0 0 + rd (Reg.COL_GEN i) c * 2 ^ 16)) c)
  | 5 => ctlQueue Reg.PAL_PQ_RESULT (palActive i c) (palResetQueue i) (palActivate i) r.arg c
  | _ => match r.arg with
    | 2 =>
      if (getInk i c).state = 0 then (4, 0, c)
      else (0, 0, wr Reg.HRD_INTAKE_RESULT 0 (setInk i { getInk i c with state := 2 } c))
    | a => ctlQueue Reg.HRD_INTAKE_RESULT ((getInk i c).state == 1) (intakeReset i) (intakeActivate i) a c

/-! ### The other operations -/

/-- REGION: the entry but for `VALID` and the device's own word, `OWNER` forced, then VALIDATE or INVALIDATE. -/
def ctlRegionRun (s : Nat) (r : CtlReq) (b : List Nat) (i : Nat) (c : Chip) : CtlEnd :=
  let valid := regionF i 0x10 32 32 c
  if r.arg = 0 ∧ valid = 1 then (4, 0, c)
  else
    let c := regionPut i 0x10 63 48 s (regionPut i 0x10 32 32 valid (put spDev (regionBase i c) (b.take 56) c))
    let c := if r.arg = 0 then regionValidate i c else regionInvalidate i c
    ctlCheck (regionF i 0x38 7 0 c, c)

/-- RULE: the rule of an argument staged in the control service's own registers and committed (R599), or INVALIDATE. -/
def ctlRuleRun (s : Nat) (r : CtlReq) (b : List Nat) (i : Nat) (c : Chip) : CtlEnd :=
  let p := controlParty c
  let x := if r.arg = 0 then
      let c := (List.range 64).foldl (fun c k => wrB 3 (Reg.SEP_STG_MASK k) (b.getD (64 + k) 0) (wrB 3 (Reg.SEP_STG_VALUE k) (b.getD k 0) c)) c
      let c := (List.range 16).foldl (fun c k => wrB 3 (Reg.SEP_STG_ACTION k) (b.getD (128 + k) 0) c) (wrB 3 Reg.SEP_STG_OWNER s c)
      ruleCommit (fun o => stageMay p o c) i (stagedRule 3 c) c
    else ruleInvalidate (fun o => stageMay p o c) i c
  ctlCheck (x.1, wrB 3 Reg.SEP_STG_RESULT x.1 x.2)

/-- TABLE: entries from `ARG` on, up to the first that is refused (R588). -/
def ctlTableRun (s t : Nat) : Nat → List Nat → Chip → CtlEnd
  | _, [], c => (0, 0, c)
  | j, v :: vs, c =>
    match refusalOf 0x28 (tableWrite s t j v ((2048 * t + 4 * j) % 0x1000)) c with
    | (0, c) => ctlTableRun s t (j + 1) vs c
    | (k, c) => (3, k, c)

/-- The 4-byte words of a block. -/
def words4 (b : List Nat) : List Nat := (List.range (b.length / 4)).map fun k => leNat ((b.drop (4 * k)).take 4)

/-- KEY: a load through the control service's own `KEY_DATA`, or the slots of the page in the layout of its register 0x104 (R669,
R673; log entry 43). -/
def ctlKeyRun (r : CtlReq) (b : List Nat) (i : Nat) (c : Chip) : CtlEnd :=
  let p := controlParty c
  if bit r.arg 31 then (0, 0, fieldsWrite p (keyPage i) 0x104 4 (leNat b) c)
  else
    let c := if r.len = 0 then c else (List.range 64).foldl (fun c k => wrB 3 (Reg.KEY_KEY_DATA i k) (b.getD k 0) c) c
    let c := keyLoadGo p i (r.arg + 2 ^ 31) c
    ctlCheck (rd (Reg.KEY_LD_RESULT i) c, c)

/-- WMK: a context command with the control service's own `CTX_SEL`, for the stall; or the seeds of a context that it owns. -/
def ctlWmkRun (s : Nat) (r : CtlReq) (b : List Nat) (i : Nat) (c : Chip) : CtlEnd :=
  if r.arg < 3 then
    let x := wmkDo r.arg i s (wrB 3 Reg.WMK_CTX_SEL i c)
    ctlCheck (x.1, wrB 3 Reg.WMK_CTX_RESULT x.1 x.2)
  else if (wmkGet i c).owner ≠ s then (3, 1, c)
  else (0, 0, wmkSet i { wmkGet i c with seed0 := leNat (b.take 8), seed1 := leNat (b.drop 8) } c)

/-- POOL: `ENTRY`, `WDOG_LIMIT` and the lines from a block in the layout of the page's offsets 0x108–0x16F (log entry 43), then `EN`
1 and its check; or START or STOP. -/
def ctlPoolRun (r : CtlReq) (b : List Nat) (n : Nat) (c : Chip) : CtlEnd :=
  let page := corePage n
  if r.arg = 1 then ctlCheck (refusalOf page (churnRun (coreFin n) 0x100) c)
  else if r.arg = 2 then ctlCheck (refusalOf page (churnRun (coreFin n) 0x200) c)
  else if pageState page c ≠ 0 ∧ pageState page c ≠ 3 then (4, 0, c)
  else
    let w := fun off => leNat ((b.drop (off - 0x108)).take 4)
    let c := wr (Reg.CC_WDOG_LIMIT n) (w 0x110) (wr (Reg.CC_ENTRY n) (bits (w 0x108) 15 2) c)
    let c := (List.range 8).foldl (fun c k =>
      wr (Reg.CC_IN_BOUND n k) (bits (w (0x140 + 4 * k)) 15 15) (wr (Reg.CC_IN_LINE n k) (bits (w (0x140 + 4 * k)) 11 0) c)) c
    let c := (List.range 4).foldl (fun c k =>
      wr (Reg.CC_OUT_BOUND n k) (bits (w (0x160 + 4 * k)) 15 15) (wr (Reg.CC_OUT_LINE n k) (bits (w (0x160 + 4 * k)) 11 0) c)) c
    let c := checkEnd page (enableStart page c)
    if pageState page c = 3 then (3, rd (Hdr.REFUSAL_CODE page) c, c) else (0, 0, c)

/-! ### Taking a request -/

/-- `OP`, `KIND`, `ARG_LEN` and `ARG` go together (BAD_REQUEST otherwise). -/
def ctlFormOk (r : CtlReq) : Bool :=
  r.clean && decide (r.len ≤ 4096) &&
  match r.op with
  | 0 => decide (r.kind ≤ 6) && r.len == ctlLen r.kind
  | 1 => decide (r.kind ≤ 6) && r.len == 0
  | 2 => r.kind == 7 && r.len == 64 && decide (r.arg ≤ 1)
  | 3 => r.kind == 8 && (r.arg == 0 && r.len == 144 || r.arg == 1 && r.len == 0)
  | 4 => r.kind == 9 && r.len % 4 == 0 && decide (r.arg + r.len / 4 ≤ 512)
  | 5 => r.kind == 10 && (if bit r.arg 31 then r.len == 4 else if bits r.arg 5 4 = 0 then r.len == 0 else r.len == keyLen (bits r.arg 5 4))
  | 6 => r.kind == 11 && (decide (r.arg < 3) && r.len == 0 || r.arg == 3 && r.len == 16)
  | 7 => r.kind == 12 && (r.arg == 0 && r.len == 0x68 || (r.arg == 1 || r.arg == 2) && r.len == 0)
  | _ => false

/-- What a request does on its target. -/
def ctlRun (s : Nat) (r : CtlReq) (b : List Nat) (i : Nat) (c : Chip) : CtlEnd :=
  match r.op with
  | 0 => ctlContext s r b i c
  | 1 => ctlCommand r i c
  | 2 => ctlRegionRun s r b i c
  | 3 => ctlRuleRun s r b i c
  | 4 => ctlTableRun s i r.arg (words4 b) c
  | 5 => ctlKeyRun r b i c
  | 6 => ctlWmkRun s r b i c
  | _ => ctlPoolRun r b i c

/-- The head of the request ring moves on. -/
def ctlHead (s : Nat) (c : Chip) : Chip :=
  let x := mapGet StallCtl.idle c.stallCtl s
  { c with stallCtl := mapPut StallCtl.idle c.stallCtl s { x with head := (x.head + 1) % 2 ^ 15 } }

/-- A completion written, `PHASE` last, after the request's head has moved. -/
def ctlComplete (s id : Nat) (e : CtlEnd) : Chip :=
  let c := ctlHead s e.2.2
  let x := mapGet StallCtl.idle c.stallCtl s
  let n := ctlSize s c
  let phase := 1 - x.cqTail / n % 2
  let bytes := leBytes 4 id ++ leBytes 4 (e.1 + e.2.1 % 256 * 2 ^ 8 + stallGen s c * 2 ^ 16) ++ leBytes 4 0 ++ leBytes 4 (x.head + phase * 2 ^ 31)
  ownWrite s (ctlCqBase s c + 16 * (x.cqTail % n)) bytes
    { c with stallCtl := mapPut StallCtl.idle c.stallCtl s { x with cqTail := (x.cqTail + 1) % 2 ^ 15 } }

/-- The control service can take a request of stall `s`: image 0 runs, the stall is ACTIVE and not freezing, the request ring holds an
entry, and the completion ring has room. -/
def ctlReady (s : Nat) (c : Chip) : Bool :=
  let x := mapGet StallCtl.idle c.stallCtl s
  controlRuns c && working 0x90 c && stallState s c == 1 && !c.freezing.elem s && x.head != x.tail &&
  decide ((x.cqTail + 2 ^ 15 - x.cqHead) % 2 ^ 15 < ctlSize s c - 1)

/-- The request at the head of stall `s`'s ring, when its `OP` is one of the row; a stale one is consumed with nothing said (R350). A
target whose page or core domain sleeps is woken first, and the request waits. -/
def ctlTake (ops : Nat → Bool) (s : Nat) (c : Chip) : Chip :=
  if !ctlReady s c then c
  else
    let x := mapGet StallCtl.idle c.stallCtl s
    let e := ownRead s (ctlBase s c + 64 * (x.head % ctlSize s c)) 64 c
    let r := ctlParse e.1
    let done := fun (st d : Nat) (c : Chip) => ctlComplete s r.id (st, d, c)
    if r.gen ≠ stallGen s c ∧ e.2 = false then ctlHead s c
    else if !ops r.op then c
    else if e.2 || !ctlFormOk r then done 1 0 c
    else match ctlTarget s r.kind r.ix c with
      | none => done 2 0 c
      | some i =>
        let page := ctlPage r.kind i
        let d := pageDomain page
        if pageState page c = 6 ∨ (r.kind = 12 ∧ domAwake d c = false) then
          if c.wakes.any fun w => w.dom == d then c else requestWake d .work c
        else
          let b := ownRead s r.addr r.len c
          if b.2 then done 5 0 (ownReach s r.addr r.len c) else ctlComplete s r.id (ctlRun s r b.1 i c)

/-- WRITE_CONTEXT, and a request whose `OP` is none of the table. -/
def execWriteContext (s : Fin 2048) : State → Host.Outcome State Fault Refusal := onChip (ctlTake (fun o => o == 0 || decide (7 < o)) s.val)
/-- QUEUE_CMD. -/
def execQueueCmd (s : Fin 2048) : State → Host.Outcome State Fault Refusal := onChip (ctlTake (· == 1) s.val)
/-- CTL_REGION. -/
def execCtlRegion (s : Fin 2048) : State → Host.Outcome State Fault Refusal := onChip (ctlTake (· == 2) s.val)
/-- CTL_RULE. -/
def execCtlRule (s : Fin 2048) : State → Host.Outcome State Fault Refusal := onChip (ctlTake (· == 3) s.val)
/-- CTL_TABLE. -/
def execCtlTable (s : Fin 2048) : State → Host.Outcome State Fault Refusal := onChip (ctlTake (· == 4) s.val)
/-- CTL_KEY. -/
def execCtlKey (s : Fin 2048) : State → Host.Outcome State Fault Refusal := onChip (ctlTake (· == 5) s.val)
/-- CTL_WMK. -/
def execCtlWmk (s : Fin 2048) : State → Host.Outcome State Fault Refusal := onChip (ctlTake (· == 6) s.val)
/-- CTL_POOL. -/
def execCtlPool (s : Fin 2048) : State → Host.Outcome State Fault Refusal := onChip (ctlTake (· == 7) s.val)

end Sys2Proof.Machine
end

