-- ==== Sys2Proof/Machine/System.lean ====
section
/-! DEFINITION. Control-register, ordering, trap and interrupt instructions (R206, R210, R216–R218, R223, R226, major 0x30). -/

namespace Sys2Proof.Machine

/-- NOP (R206). -/
def execNop (i : CoreId) (x : Fin 16) (ct : BitVec 6) (imm : BitVec 10) : State → Host.Outcome State Fault Refusal :=
  onChip (runInstr i (encK 0x00 x ct imm) fun k c => .ok k c none 1)

/-- CTRD: Vx = CTn (R206, R210). -/
def execCtrd (i : CoreId) (x : Fin 16) (ct : BitVec 6) (imm : BitVec 10) : State → Host.Outcome State Fault Refusal :=
  onChip (ctOp i 0x01 x ct imm fun k c => setV k x (ctRead i k ct.toNat c))

/-- CTWR: CTn = Vx (R206, R210). -/
def execCtwr (i : CoreId) (x : Fin 16) (ct : BitVec 6) (imm : BitVec 10) : State → Host.Outcome State Fault Refusal :=
  onChip (ctOp i 0x02 x ct imm fun k _ => ctWrite k ct.toNat (getV k x))

/-- CTSET: CTn = CTn | Vx (R206, R210). -/
def execCtset (i : CoreId) (x : Fin 16) (ct : BitVec 6) (imm : BitVec 10) : State → Host.Outcome State Fault Refusal :=
  onChip (ctOp i 0x03 x ct imm fun k c => ctWrite k ct.toNat (ctRead i k ct.toNat c ||| getV k x))

/-- CTCLR: CTn = CTn & ~Vx (R206, R210). -/
def execCtclr (i : CoreId) (x : Fin 16) (ct : BitVec 6) (imm : BitVec 10) : State → Host.Outcome State Fault Refusal :=
  onChip (ctOp i 0x04 x ct imm fun k c => ctWrite k ct.toNat (ctRead i k ct.toNat c &&& ~~~getV k x))

/-- FENCE: accesses are in order in this model; a Churn core waits for its tile (R223, R226). -/
def execFence (i : CoreId) (x : Fin 16) (ct : BitVec 6) (imm : BitVec 10) : State → Host.Outcome State Fault Refusal :=
  onChip (fun c => runInstr i (encK 0x08 x ct imm) (fun k c => .ok k c none 1) (afterTile i c))

/-- FENCE.I: as FENCE; stores are visible to the fetch at once (R226). -/
def execFenceI (i : CoreId) (x : Fin 16) (ct : BitVec 6) (imm : BitVec 10) : State → Host.Outcome State Fault Refusal :=
  onChip (fun c => runInstr i (encK 0x09 x ct imm) (fun k c => .ok k c none 1) (afterTile i c))

/-- TRAPI: trap with cause 0x10 and TRAP_VAL IMM10 (R206, R212); illegal on Churn, which lacks the cause (log entry 22). -/
def execTrapi (i : CoreId) (x : Fin 16) (ct : BitVec 6) (imm : BitVec 10) : State → Host.Outcome State Fault Refusal :=
  onChip (runInstr i (encK 0x10 x ct imm) fun _ _ =>
    if isChurn i then illegal (encK 0x10 x ct imm) else .trap 0x10 imm.toNat)

/-- BREAK: trap with cause 0x11 and TRAP_VAL IMM10 (R206, R212); illegal on Churn (log entry 22). -/
def execBrk (i : CoreId) (x : Fin 16) (ct : BitVec 6) (imm : BitVec 10) : State → Host.Outcome State Fault Refusal :=
  onChip (runInstr i (encK 0x11 x ct imm) fun _ _ =>
    if isChurn i then illegal (encK 0x11 x ct imm) else .trap 0x11 imm.toNat)

/-- ERET: supervisor only; `PRIV` from `PPRIV`, `IE` 1, P15 and SUP_SP exchanged on a return to user mode, execution at TRAP_PC (R217); illegal on Churn (log entry 22). -/
def execEret (i : CoreId) (x : Fin 16) (ct : BitVec 6) (imm : BitVec 10) : State → Host.Outcome State Fault Refusal :=
  onChip (runInstr i (encK 0x18 x ct imm) fun k c =>
    if isChurn i then illegal (encK 0x18 x ct imm)
    else if !statusBit k 4 then .trap 0x0B (encK 0x18 x ct imm)
    else .ok (eretRegs k) c (some k.trapPc.toNat) 1)

/-- WFI: supervisor only; the core waits until an enabled interrupt is pending (R206); illegal on Churn (log entry 22). -/
def execWfi (i : CoreId) (x : Fin 16) (ct : BitVec 6) (imm : BitVec 10) : State → Host.Outcome State Fault Refusal :=
  onChip (runInstr i (encK 0x19 x ct imm) fun k c =>
    if isChurn i then illegal (encK 0x19 x ct imm)
    else if !statusBit k 4 then .trap 0x0B (encK 0x19 x ct imm)
    else .ok { k with wfi := (k.irqPending &&& k.irqEnable) == 0 } c none 1)

/-- INTERRUPT: a line rises (R218, R796): held with a wake request for a sleeping Wayside core, else pending, and taken when enabled. -/
def execInterrupt (i : CoreId) (line : Nat) : State → Host.Outcome State Fault Refusal :=
  onChip (interruptLine i line)

end Sys2Proof.Machine
end

