-- ==== Sys2Proof/Machine/Dispatch.lean ====
section
/-! DEFINITION. The meaning of every command: one arm per row of the opcode table. -/

namespace Sys2Proof.Machine

def exec (i : Instr) (s : State) : Host.Outcome State Fault Refusal :=
  match i with
  -- Registers and guards
  | .registerWrite p page off bits value => Sys2Proof.Machine.execRegisterWrite p page off bits value s
  | .lowWordWrite p page off value => Sys2Proof.Machine.execLowWordWrite p page off value s
  | .lowWordRead p page off => Sys2Proof.Machine.execLowWordRead p page off s
  | .enWritten1 p page value => Sys2Proof.Machine.execEnWritten1 p page value s
  | .consistencyCheckEnd page => Sys2Proof.Machine.execConsistencyCheckEnd page s
  | .enWritten0 p page value => Sys2Proof.Machine.execEnWritten0 p page value s
  | .drainToOff page => Sys2Proof.Machine.execDrainToOff page s
  | .quiesceWrite p page on => Sys2Proof.Machine.execQuiesceWrite p page on s
  | .fenceWrite p page on => Sys2Proof.Machine.execFenceWrite p page on s
  | .errCountClear p page => Sys2Proof.Machine.execErrCountClear p page s
  | .asleepPageAccess p page off wr => Sys2Proof.Machine.execAsleepPageAccess p page off wr s
  | .semaphoreRead n readers wide => Sys2Proof.Machine.execSemaphoreRead n readers wide s
  | .semaphoreRelease p n value wide => Sys2Proof.Machine.execSemaphoreRelease p n value wide s
  | .crsBreak p value => Sys2Proof.Machine.execCrsBreak p value s
  | .chOwnerWrite p m n value => Sys2Proof.Machine.execChOwnerWrite p m n value s
  | .scrubComplete m n => Sys2Proof.Machine.execScrubComplete m n s
  -- Churn cores
  | .start p core value => Sys2Proof.Machine.execStart p core value s
  | .stop p core value => Sys2Proof.Machine.execStop p core value s
  | .imemWrite pool member off data => Sys2Proof.Machine.execImemWrite pool member off data s
  | .memberRestartCmd p value => Sys2Proof.Machine.execMemberRestartCmd p value s
  | .coreFault core k addr => Sys2Proof.Machine.execCoreFault core k addr s
  | .coreWatchdog core => Sys2Proof.Machine.execCoreWatchdog core s
  | .replacementReady core => Sys2Proof.Machine.execReplacementReady core s
  | .memberRestart core => Sys2Proof.Machine.execMemberRestart core s
  | .tileOpEnd core => Sys2Proof.Machine.execTileOpEnd core s
  | .poisonTrap core addr => Sys2Proof.Machine.execPoisonTrap core addr s
  | .waitEnd core => Sys2Proof.Machine.execWaitEnd core s
  | .waitTimeout core => Sys2Proof.Machine.execWaitTimeout core s
  -- Sterok ALU
  | .add c x y z => Sys2Proof.Machine.execAdd c x y z s
  | .sub c x y z => Sys2Proof.Machine.execSub c x y z s
  | .and c x y z => Sys2Proof.Machine.execAnd c x y z s
  | .or c x y z => Sys2Proof.Machine.execOr c x y z s
  | .xor c x y z => Sys2Proof.Machine.execXor c x y z s
  | .andn c x y z => Sys2Proof.Machine.execAndn c x y z s
  | .sll c x y z => Sys2Proof.Machine.execSll c x y z s
  | .srl c x y z => Sys2Proof.Machine.execSrl c x y z s
  | .sra c x y z => Sys2Proof.Machine.execSra c x y z s
  | .mul c x y z => Sys2Proof.Machine.execMul c x y z s
  | .mulhs c x y z => Sys2Proof.Machine.execMulhs c x y z s
  | .mulhu c x y z => Sys2Proof.Machine.execMulhu c x y z s
  | .divs c x y z => Sys2Proof.Machine.execDivs c x y z s
  | .divu c x y z => Sys2Proof.Machine.execDivu c x y z s
  | .rems c x y z => Sys2Proof.Machine.execRems c x y z s
  | .remu c x y z => Sys2Proof.Machine.execRemu c x y z s
  | .min c x y z => Sys2Proof.Machine.execMin c x y z s
  | .max c x y z => Sys2Proof.Machine.execMax c x y z s
  | .minu c x y z => Sys2Proof.Machine.execMinu c x y z s
  | .maxu c x y z => Sys2Proof.Machine.execMaxu c x y z s
  | .cmpeq c x y z => Sys2Proof.Machine.execCmpeq c x y z s
  | .cmpne c x y z => Sys2Proof.Machine.execCmpne c x y z s
  | .cmplt c x y z => Sys2Proof.Machine.execCmplt c x y z s
  | .cmpltu c x y z => Sys2Proof.Machine.execCmpltu c x y z s
  | .clz c x y z => Sys2Proof.Machine.execClz c x y z s
  | .popc c x y z => Sys2Proof.Machine.execPopc c x y z s
  | .addi c x y imm => Sys2Proof.Machine.execAddi c x y imm s
  | .andi c x y imm => Sys2Proof.Machine.execAndi c x y imm s
  | .ori c x y imm => Sys2Proof.Machine.execOri c x y imm s
  | .xori c x y imm => Sys2Proof.Machine.execXori c x y imm s
  | .shifti c x y imm => Sys2Proof.Machine.execShifti c x y imm s
  | .li c x y imm => Sys2Proof.Machine.execLi c x y imm s
  | .shi c x y imm => Sys2Proof.Machine.execShi c x y imm s
  | .cmplti c x y imm => Sys2Proof.Machine.execCmplti c x y imm s
  | .cmpeqi c x y imm => Sys2Proof.Machine.execCmpeqi c x y imm s
  | .addp c x y z => Sys2Proof.Machine.execAddp c x y z s
  | .subp c x y z => Sys2Proof.Machine.execSubp c x y z s
  | .addpv c s0 x y z => Sys2Proof.Machine.execAddpv c s0 x y z s
  | .movpv c x y z => Sys2Proof.Machine.execMovpv c x y z s
  | .movvp c x y z => Sys2Proof.Machine.execMovvp c x y z s
  | .addpi c x y imm => Sys2Proof.Machine.execAddpi c x y imm s
  | .lep c x y imm => Sys2Proof.Machine.execLep c x y imm s
  -- Sterok memory
  | .lb c x y mode disp => Sys2Proof.Machine.execLb c x y mode disp s
  | .lbu c x y mode disp => Sys2Proof.Machine.execLbu c x y mode disp s
  | .lh c x y mode disp => Sys2Proof.Machine.execLh c x y mode disp s
  | .lhu c x y mode disp => Sys2Proof.Machine.execLhu c x y mode disp s
  | .lw c x y mode disp => Sys2Proof.Machine.execLw c x y mode disp s
  | .lwu c x y mode disp => Sys2Proof.Machine.execLwu c x y mode disp s
  | .ld c x y mode disp => Sys2Proof.Machine.execLd c x y mode disp s
  | .ldp c x y mode disp => Sys2Proof.Machine.execLdp c x y mode disp s
  | .sb c x y mode disp => Sys2Proof.Machine.execSb c x y mode disp s
  | .sh c x y mode disp => Sys2Proof.Machine.execSh c x y mode disp s
  | .sw c x y mode disp => Sys2Proof.Machine.execSw c x y mode disp s
  | .sd c x y mode disp => Sys2Proof.Machine.execSd c x y mode disp s
  | .stp c x y mode disp => Sys2Proof.Machine.execStp c x y mode disp s
  -- Sterok control flow
  | .beq c x y off => Sys2Proof.Machine.execBeq c x y off s
  | .bne c x y off => Sys2Proof.Machine.execBne c x y off s
  | .blt c x y off => Sys2Proof.Machine.execBlt c x y off s
  | .bge c x y off => Sys2Proof.Machine.execBge c x y off s
  | .bltu c x y off => Sys2Proof.Machine.execBltu c x y off s
  | .bgeu c x y off => Sys2Proof.Machine.execBgeu c x y off s
  | .dbnz c x y off => Sys2Proof.Machine.execDbnz c x y off s
  | .j c off => Sys2Proof.Machine.execJ c off s
  | .call c off => Sys2Proof.Machine.execCall c off s
  | .jr c x y z => Sys2Proof.Machine.execJr c x y z s
  | .callr c x y z => Sys2Proof.Machine.execCallr c x y z s
  -- Sterok system
  | .nop c x ct imm => Sys2Proof.Machine.execNop c x ct imm s
  | .ctrd c x ct imm => Sys2Proof.Machine.execCtrd c x ct imm s
  | .ctwr c x ct imm => Sys2Proof.Machine.execCtwr c x ct imm s
  | .ctset c x ct imm => Sys2Proof.Machine.execCtset c x ct imm s
  | .ctclr c x ct imm => Sys2Proof.Machine.execCtclr c x ct imm s
  | .fence c x ct imm => Sys2Proof.Machine.execFence c x ct imm s
  | .fenceI c x ct imm => Sys2Proof.Machine.execFenceI c x ct imm s
  | .trapi c x ct imm => Sys2Proof.Machine.execTrapi c x ct imm s
  | .brk c x ct imm => Sys2Proof.Machine.execBrk c x ct imm s
  | .eret c x ct imm => Sys2Proof.Machine.execEret c x ct imm s
  | .wfi c x ct imm => Sys2Proof.Machine.execWfi c x ct imm s
  | .interrupt c line => Sys2Proof.Machine.execInterrupt c line s
  -- Sterok events and atomics
  | .halt c x slot imm => Sys2Proof.Machine.execHalt c x slot imm s
  | .wait c x slot imm => Sys2Proof.Machine.execWait c x slot imm s
  | .waitM c x slot imm => Sys2Proof.Machine.execWaitM c x slot imm s
  | .signal c x slot imm => Sys2Proof.Machine.execSignal c x slot imm s
  | .mark c x slot imm => Sys2Proof.Machine.execMark c x slot imm s
  | .amoadd c x y z => Sys2Proof.Machine.execAmoadd c x y z s
  | .amoswap c x y z => Sys2Proof.Machine.execAmoswap c x y z s
  | .amoand c x y z => Sys2Proof.Machine.execAmoand c x y z s
  | .amoor c x y z => Sys2Proof.Machine.execAmoor c x y z s
  | .cas c x y z => Sys2Proof.Machine.execCas c x y z s
  -- Sterok accumulators
  | .mac c x y z sh => Sys2Proof.Machine.execMac c x y z sh s
  | .macu c x y z sh => Sys2Proof.Machine.execMacu c x y z sh s
  | .msb c x y z sh => Sys2Proof.Machine.execMsb c x y z sh s
  | .accadds c x y z sh => Sys2Proof.Machine.execAccadds c x y z sh s
  | .accaddu c x y z sh => Sys2Proof.Machine.execAccaddu c x y z sh s
  | .accsubs c x y z sh => Sys2Proof.Machine.execAccsubs c x y z sh s
  | .accclr c x y z sh => Sys2Proof.Machine.execAccclr c x y z sh s
  | .accadd c x y z sh => Sys2Proof.Machine.execAccadd c x y z sh s
  | .rnds c x y z sh => Sys2Proof.Machine.execRnds c x y z sh s
  | .rndu c x y z sh => Sys2Proof.Machine.execRndu c x y z sh s
  | .flrs c x y z sh => Sys2Proof.Machine.execFlrs c x y z sh s
  | .flru c x y z sh => Sys2Proof.Machine.execFlru c x y z sh s
  -- Coprocessor
  | .gemmBlock c sub dn g => Sys2Proof.Machine.execGemmBlock c sub dn g s
  | .anchor c sub dn g => Sys2Proof.Machine.execAnchor c sub dn g s
  | .vreduce c sub dn g => Sys2Proof.Machine.execVreduce c sub dn g s
  | .convert c sub dn g => Sys2Proof.Machine.execConvert c sub dn g s
  | .digest c sub dn g => Sys2Proof.Machine.execDigest c sub dn g s
  | .cipherSubmit c sub dn g => Sys2Proof.Machine.execCipherSubmit c sub dn g s
  -- Movers
  | .moverTail p e c tail => Sys2Proof.Machine.execMoverTail p e c tail s
  | .chEnWrite p e c value => Sys2Proof.Machine.execChEnWrite p e c value s
  | .channelReset p e c => Sys2Proof.Machine.execChannelReset p e c s
  | .moverAbort p e c written => Sys2Proof.Machine.execMoverAbort p e c written s
  | .moverResume p e c => Sys2Proof.Machine.execMoverResume p e c s
  | .descriptorStart e c fetchBad => Sys2Proof.Machine.execDescriptorStart e c fetchBad s
  | .descriptorFinish e c => Sys2Proof.Machine.execDescriptorFinish e c s
  | .moverReadError e c written => Sys2Proof.Machine.execMoverReadError e c written s
  | .moverWatchdog e c written => Sys2Proof.Machine.execMoverWatchdog e c written s
  | .stagingParity e c progress => Sys2Proof.Machine.execStagingParity e c progress s
  -- Ahnam delivery
  | .packetSend msgId => Sys2Proof.Machine.execPacketSend msgId s
  | .packetReceive pkt => Sys2Proof.Machine.execPacketReceive pkt s
  | .ackSend dev => Sys2Proof.Machine.execAckSend dev s
  | .ackReceive dev entries => Sys2Proof.Machine.execAckReceive dev entries s
  | .retransmitTimeout tsn => Sys2Proof.Machine.execRetransmitTimeout tsn s
  | .busyResend msgId offset => Sys2Proof.Machine.execBusyResend msgId offset s
  | .reassemblyExpiry dev msgId => Sys2Proof.Machine.execReassemblyExpiry dev msgId s
  | .recentExpiry dev msgId => Sys2Proof.Machine.execRecentExpiry dev msgId s
  | .streamContextRelease key => Sys2Proof.Machine.execStreamContextRelease key s
  | .msgIdQuietEnd => Sys2Proof.Machine.execMsgIdQuietEnd s
  | .messageDeliver dev msgId => Sys2Proof.Machine.execMessageDeliver dev msgId s
  | .flagWrite dev msgId => Sys2Proof.Machine.execFlagWrite dev msgId s
  | .hello dev verMin verMax serial => Sys2Proof.Machine.execHello dev verMin verMax serial s
  | .helloReply dev verMin verMax serial => Sys2Proof.Machine.execHelloReply dev verMin verMax serial s
  | .domainStart p => Sys2Proof.Machine.execDomainStart p s
  | .proposeSend => Sys2Proof.Machine.execProposeSend s
  | .propose tag serial ip => Sys2Proof.Machine.execPropose tag serial ip s
  | .withdraw tag serial => Sys2Proof.Machine.execWithdraw tag serial s
  | .join tag serial ip => Sys2Proof.Machine.execJoin tag serial ip s
  | .proposalWindowClose => Sys2Proof.Machine.execProposalWindowClose s
  | .roster tag serial first entries => Sys2Proof.Machine.execRoster tag serial first entries s
  | .rosterAck tag serial first => Sys2Proof.Machine.execRosterAck tag serial first s
  | .rosterResend serial first => Sys2Proof.Machine.execRosterResend serial first s
  -- Ahnam operations
  | .qpSqTail p qp tail => Sys2Proof.Machine.execQpSqTail p qp tail s
  | .qpRqTail p qp tail => Sys2Proof.Machine.execQpRqTail p qp tail s
  | .qpCqHead p qp head => Sys2Proof.Machine.execQpCqHead p qp head s
  | .send qp => Sys2Proof.Machine.execSend qp s
  | .write qp => Sys2Proof.Machine.execWrite qp s
  | .writeFlag qp => Sys2Proof.Machine.execWriteFlag qp s
  | .read qp => Sys2Proof.Machine.execRead qp s
  | .fetchAdd64 qp => Sys2Proof.Machine.execFetchAdd64 qp s
  | .cmpSwap64 qp => Sys2Proof.Machine.execCmpSwap64 qp s
  | .nak pkt => Sys2Proof.Machine.execNak pkt s
  | .respTimeout msgId => Sys2Proof.Machine.execRespTimeout msgId s
  | .completionWrite qp => Sys2Proof.Machine.execCompletionWrite qp s
  | .qpReset p qp => Sys2Proof.Machine.execQpReset p qp s
  | .qpReady p qp => Sys2Proof.Machine.execQpReady p qp s
  | .qpActive p qp => Sys2Proof.Machine.execQpActive p qp s
  | .qpError p qp => Sys2Proof.Machine.execQpError p qp s
  | .qpResetDone qp => Sys2Proof.Machine.execQpResetDone qp s
  | .regionValidate p i0 => Sys2Proof.Machine.execRegionValidate p i0 s
  | .regionInvalidate p i0 => Sys2Proof.Machine.execRegionInvalidate p i0 s
  -- Collectives
  | .colTail p q tail => Sys2Proof.Machine.execColTail p q tail s
  | .allReduce q => Sys2Proof.Machine.execAllReduce q s
  | .reduceScatter q => Sys2Proof.Machine.execReduceScatter q s
  | .allGather q => Sys2Proof.Machine.execAllGather q s
  | .broadcast q => Sys2Proof.Machine.execBroadcast q s
  | .allToAll q => Sys2Proof.Machine.execAllToAll q s
  | .barrier q => Sys2Proof.Machine.execBarrier q s
  | .collectiveEnd q => Sys2Proof.Machine.execCollectiveEnd q s
  | .collSegment seg => Sys2Proof.Machine.execCollSegment seg s
  | .collAbort group seq rank byStop => Sys2Proof.Machine.execCollAbort group seq rank byStop s
  | .colQpRestart => Sys2Proof.Machine.execColQpRestart s
  | .groupValidate p g => Sys2Proof.Machine.execGroupValidate p g s
  | .groupInvalidate p g => Sys2Proof.Machine.execGroupInvalidate p g s
  | .stopArm p on => Sys2Proof.Machine.execStopArm p on s
  | .stopNow p => Sys2Proof.Machine.execStopNow p s
  | .colResume p => Sys2Proof.Machine.execColResume p s
  -- Herd
  | .requestNew o => Sys2Proof.Machine.execRequestNew o s
  | .cancel o => Sys2Proof.Machine.execCancel o s
  | .intakeDoorbell p q reply value => Sys2Proof.Machine.execIntakeDoorbell p q reply value s
  | .intakeReset p q => Sys2Proof.Machine.execIntakeReset p q s
  | .intakeActive p q => Sys2Proof.Machine.execIntakeActive p q s
  | .intakeDrain p q => Sys2Proof.Machine.execIntakeDrain p q s
  | .policyValidate p m => Sys2Proof.Machine.execPolicyValidate p m s
  | .policyInvalidate p m => Sys2Proof.Machine.execPolicyInvalidate p m s
  | .contextFetch ctx => Sys2Proof.Machine.execContextFetch ctx s
  | .verdict pool req kind model info => Sys2Proof.Machine.execVerdict pool req kind model info s
  | .sideTimeout ctx => Sys2Proof.Machine.execSideTimeout ctx s
  | .batchTimer m => Sys2Proof.Machine.execBatchTimer m s
  | .deadlinePass ctx => Sys2Proof.Machine.execDeadlinePass ctx s
  | .tokens a => Sys2Proof.Machine.execTokens a s
  | .finished a => Sys2Proof.Machine.execFinished a s
  | .failed a poisonTicket => Sys2Proof.Machine.execFailed a poisonTicket s
  | .evicted a => Sys2Proof.Machine.execEvicted a s
  | .ticketDone a => Sys2Proof.Machine.execTicketDone a s
  | .draftReq a => Sys2Proof.Machine.execDraftReq a s
  | .accTimeout a => Sys2Proof.Machine.execAccTimeout a s
  | .flushTimer ctx => Sys2Proof.Machine.execFlushTimer ctx s
  | .accEn p a on => Sys2Proof.Machine.execAccEn p a on s
  | .drainFinish p a => Sys2Proof.Machine.execDrainFinish p a s
  | .drainMove p a => Sys2Proof.Machine.execDrainMove p a s
  | .accResume p a => Sys2Proof.Machine.execAccResume p a s
  -- Vat and KV pager
  | .imageValidate p i0 => Sys2Proof.Machine.execImageValidate p i0 s
  | .imageInvalidate p i0 => Sys2Proof.Machine.execImageInvalidate p i0 s
  | .fill p i0 => Sys2Proof.Machine.execFill p i0 s
  | .fillComplete ok => Sys2Proof.Machine.execFillComplete ok s
  | .imageRelease p i0 => Sys2Proof.Machine.execImageRelease p i0 s
  | .modelReleaseIssue i0 a => Sys2Proof.Machine.execModelReleaseIssue i0 a s
  | .loadStart i0 => Sys2Proof.Machine.execLoadStart i0 s
  | .loadComplete i0 => Sys2Proof.Machine.execLoadComplete i0 s
  | .seqCreate p model => Sys2Proof.Machine.execSeqCreate p model s
  | .seqFree p => Sys2Proof.Machine.execSeqFree p s
  | .pageMoveDone d res => Sys2Proof.Machine.execPageMoveDone d res s
  | .tierDemote t a => Sys2Proof.Machine.execTierDemote t a s
  -- Layby
  | .lbyStart p => Sys2Proof.Machine.execLbyStart p s
  | .lbyRestore p => Sys2Proof.Machine.execLbyRestore p s
  | .restoreComplete epoch placed conflicts failed => Sys2Proof.Machine.execRestoreComplete epoch placed conflicts failed s
  | .endJob p => Sys2Proof.Machine.execEndJob p s
  | .reclaimGo p => Sys2Proof.Machine.execReclaimGo p s
  | .reclaim m => Sys2Proof.Machine.execReclaim m s
  | .startReport m => Sys2Proof.Machine.execStartReport m s
  | .partner m => Sys2Proof.Machine.execPartner m s
  | .haltQuery m => Sys2Proof.Machine.execHaltQuery m s
  | .haltReport m => Sys2Proof.Machine.execHaltReport m s
  | .haltAt m => Sys2Proof.Machine.execHaltAt m s
  | .haltNow m => Sys2Proof.Machine.execHaltNow m s
  | .digestMsg m => Sys2Proof.Machine.execDigestMsg m s
  | .writeToo m => Sys2Proof.Machine.execWriteToo m s
  | .heldOk m => Sys2Proof.Machine.execHeldOk m s
  | .prepared m => Sys2Proof.Machine.execPrepared m s
  | .commit m => Sys2Proof.Machine.execCommit m s
  | .abortEpoch m => Sys2Proof.Machine.execAbortEpoch m s
  | .drained m => Sys2Proof.Machine.execDrained m s
  | .depart m => Sys2Proof.Machine.execDepart m s
  | .decisionQuery m => Sys2Proof.Machine.execDecisionQuery m s
  | .stepMark a step ckpt => Sys2Proof.Machine.execStepMark a step ckpt s
  | .captureEnd poisoned missed => Sys2Proof.Machine.execCaptureEnd poisoned missed s
  | .epochTimeout => Sys2Proof.Machine.execEpochTimeout s
  | .decisionTimeout => Sys2Proof.Machine.execDecisionTimeout s
  | .stopWaitExpiry => Sys2Proof.Machine.execStopWaitExpiry s
  | .haltQueryTimeout => Sys2Proof.Machine.execHaltQueryTimeout s
  | .drainDurable => Sys2Proof.Machine.execDrainDurable s
  | .drainRetry => Sys2Proof.Machine.execDrainRetry s
  | .handbackAbandon => Sys2Proof.Machine.execHandbackAbandon s
  -- Waymark
  | .claim p => Sys2Proof.Machine.execClaim p s
  | .clear p => Sys2Proof.Machine.execClear p s
  | .release p => Sys2Proof.Machine.execRelease p s
  | .ctxCmdReserved p => Sys2Proof.Machine.execCtxCmdReserved p s
  -- Separator
  | .frameReceive f => Sys2Proof.Machine.execFrameReceive f s
  | .recirculatePass id => Sys2Proof.Machine.execRecirculatePass id s
  | .rxRingEmptyDiscard id => Sys2Proof.Machine.execRxRingEmptyDiscard id s
  | .rxWriteback q => Sys2Proof.Machine.execRxWriteback q s
  | .rxTail p q tail => Sys2Proof.Machine.execRxTail p q tail s
  | .rxqReset p q => Sys2Proof.Machine.execRxqReset p q s
  | .rxqActive p q => Sys2Proof.Machine.execRxqActive p q s
  | .stgCommit p value => Sys2Proof.Machine.execStgCommit p value s
  | .stgInvalidate p value => Sys2Proof.Machine.execStgInvalidate p value s
  | .swap p => Sys2Proof.Machine.execSwap p s
  | .swapDone => Sys2Proof.Machine.execSwapDone s
  | .copy p => Sys2Proof.Machine.execCopy p s
  | .tableEntryWrite p t j value => Sys2Proof.Machine.execTableEntryWrite p t j value s
  | .ruleParity r => Sys2Proof.Machine.execRuleParity r s
  | .pfcFrame port prios xoff => Sys2Proof.Machine.execPfcFrame port prios xoff s
  | .ethLinkDown port => Sys2Proof.Machine.execEthLinkDown port s
  -- Toll
  | .qLoad p => Sys2Proof.Machine.execQLoad p s
  | .qCommit p => Sys2Proof.Machine.execQCommit p s
  | .shpLoad p => Sys2Proof.Machine.execShpLoad p s
  | .shpCommit p => Sys2Proof.Machine.execShpCommit p s
  | .frameTransmitStart port => Sys2Proof.Machine.execFrameTransmitStart port s
  | .shaperAdmit port q => Sys2Proof.Machine.execShaperAdmit port q s
  | .txWriteback port poisoned => Sys2Proof.Machine.execTxWriteback port poisoned s
  | .txTail p q tail => Sys2Proof.Machine.execTxTail p q tail s
  | .txqReset p q => Sys2Proof.Machine.execTxqReset p q s
  | .txqActive p q => Sys2Proof.Machine.execTxqActive p q s
  -- Pail
  | .pailSqTail p q tail => Sys2Proof.Machine.execPailSqTail p q tail s
  | .pailCqHead p q head => Sys2Proof.Machine.execPailCqHead p q head s
  | .pailRead q => Sys2Proof.Machine.execPailRead q s
  | .pailWrite q => Sys2Proof.Machine.execPailWrite q s
  | .flush q => Sys2Proof.Machine.execFlush q s
  | .trim q => Sys2Proof.Machine.execTrim q s
  | .verify q => Sys2Proof.Machine.execVerify q s
  | .identify q => Sys2Proof.Machine.execIdentify q s
  | .selftestShort q => Sys2Proof.Machine.execSelftestShort q s
  | .selftestExtended q => Sys2Proof.Machine.execSelftestExtended q s
  | .setPower q => Sys2Proof.Machine.execSetPower q s
  | .segmentDone q tag res => Sys2Proof.Machine.execSegmentDone q tag res s
  | .selftestResume v => Sys2Proof.Machine.execSelftestResume v s
  | .psEntry => Sys2Proof.Machine.execPsEntry s
  | .ssdFailed n => Sys2Proof.Machine.execSsdFailed n s
  | .rebuildGo p n => Sys2Proof.Machine.execRebuildGo p n s
  | .rebuildDone => Sys2Proof.Machine.execRebuildDone s
  | .pqReset p q => Sys2Proof.Machine.execPqReset p q s
  | .pqActive p q => Sys2Proof.Machine.execPqActive p q s
  | .volumeValidate p v => Sys2Proof.Machine.execVolumeValidate p v s
  -- Cipher
  | .keyLoad p n value => Sys2Proof.Machine.execKeyLoad p n value s
  | .keyErase p n value => Sys2Proof.Machine.execKeyErase p n value s
  | .keyOwnerWrite p n owner => Sys2Proof.Machine.execKeyOwnerWrite p n owner s
  | .cipherAlarm src => Sys2Proof.Machine.execCipherAlarm src s
  | .eraseAll p => Sys2Proof.Machine.execEraseAll p s
  | .alarmClear p quiet => Sys2Proof.Machine.execAlarmClear p quiet s
  -- PCI Express ports
  | .apertureAccess h off wr len poisoned => Sys2Proof.Machine.execApertureAccess h off wr len poisoned s
  | .accelRequest a op addr => Sys2Proof.Machine.execAccelRequest a op addr s
  | .completionTimeout page chan written => Sys2Proof.Machine.execCompletionTimeout page chan written s
  | .flr h f => Sys2Proof.Machine.execFlr h f s
  | .flrComplete h f => Sys2Proof.Machine.execFlrComplete h f s
  | .hostReset h k => Sys2Proof.Machine.execHostReset h k s
  | .linkUp page speed width => Sys2Proof.Machine.execLinkUp page speed width s
  | .spurLinkDown page => Sys2Proof.Machine.execSpurLinkDown page s
  | .bindHostWrite p a value => Sys2Proof.Machine.execBindHostWrite p a value s
  | .dStateChange h f d => Sys2Proof.Machine.execDStateChange h f d s
  | .linkWake page => Sys2Proof.Machine.execLinkWake page s
  -- Stalls
  | .stallCreate p s0 => Sys2Proof.Machine.execStallCreate p s0 s
  | .stallRemove p s0 => Sys2Proof.Machine.execStallRemove p s0 s
  | .stallReset p s0 => Sys2Proof.Machine.execStallReset p s0 s
  | .logStart p s0 => Sys2Proof.Machine.execLogStart p s0 s
  | .logStop p s0 => Sys2Proof.Machine.execLogStop p s0 s
  | .freeze p s0 => Sys2Proof.Machine.execFreeze p s0 s
  | .freezeComplete s0 => Sys2Proof.Machine.execFreezeComplete s0 s
  | .freezeTimeout s0 => Sys2Proof.Machine.execFreezeTimeout s0 s
  | .save p s0 => Sys2Proof.Machine.execSave p s0 s
  | .stallRestore p s0 => Sys2Proof.Machine.execStallRestore p s0 s
  | .thaw p s0 => Sys2Proof.Machine.execThaw p s0 s
  | .setLimits p s0 => Sys2Proof.Machine.execSetLimits p s0 s
  | .loadService p s0 => Sys2Proof.Machine.execLoadService p s0 s
  | .stopService p s0 => Sys2Proof.Machine.execStopService p s0 s
  | .stallDoorbell h s0 f off value => Sys2Proof.Machine.execStallDoorbell h s0 f off value s
  | .writeContext s0 => Sys2Proof.Machine.execWriteContext s0 s
  | .queueCmd s0 => Sys2Proof.Machine.execQueueCmd s0 s
  | .ctlRegion s0 => Sys2Proof.Machine.execCtlRegion s0 s
  | .ctlRule s0 => Sys2Proof.Machine.execCtlRule s0 s
  | .ctlTable s0 => Sys2Proof.Machine.execCtlTable s0 s
  | .ctlKey s0 => Sys2Proof.Machine.execCtlKey s0 s
  | .ctlWmk s0 => Sys2Proof.Machine.execCtlWmk s0 s
  | .ctlPool s0 => Sys2Proof.Machine.execCtlPool s0 s
  -- Boot and firmware
  | .powerOn => Sys2Proof.Machine.execPowerOn s
  | .bootReady => Sys2Proof.Machine.execBootReady s
  | .loaderImage img => Sys2Proof.Machine.execLoaderImage img s
  | .stewardWdog => Sys2Proof.Machine.execStewardWdog s
  | .stage p readErr => Sys2Proof.Machine.execStage p readErr s
  | .stageDone flashErr => Sys2Proof.Machine.execStageDone flashErr s
  | .activateLive p => Sys2Proof.Machine.execActivateLive p s
  | .handoverTakeover us => Sys2Proof.Machine.execHandoverTakeover us s
  | .handoverRollback us => Sys2Proof.Machine.execHandoverRollback us s
  | .activateReset p => Sys2Proof.Machine.execActivateReset p s
  | .confirm p => Sys2Proof.Machine.execConfirm p s
  | .commitSvn p => Sys2Proof.Machine.execCommitSvn p s
  | .revokeKey p slot => Sys2Proof.Machine.execRevokeKey p slot s
  -- Power and thermal
  | .pllLock i0 => Sys2Proof.Machine.execPllLock i0 s
  | .pllLockTimeout i0 => Sys2Proof.Machine.execPllLockTimeout i0 s
  | .pllStop i0 => Sys2Proof.Machine.execPllStop i0 s
  | .wakeGrant => Sys2Proof.Machine.execWakeGrant s
  | .wakeComplete d => Sys2Proof.Machine.execWakeComplete d s
  | .wakeTimeout d => Sys2Proof.Machine.execWakeTimeout d s
  | .sleepEntry page => Sys2Proof.Machine.execSleepEntry page s
  | .clusterSleep c => Sys2Proof.Machine.execClusterSleep c s
  | .waysideSleep w => Sys2Proof.Machine.execWaysideSleep w s
  | .throttleTempCheck => Sys2Proof.Machine.execThrottleTempCheck s
  | .throttlePowerCheck avg50 => Sys2Proof.Machine.execThrottlePowerCheck avg50 s
  | .stepChange => Sys2Proof.Machine.execStepChange s
  | .sensorFail i0 => Sys2Proof.Machine.execSensorFail i0 s
  | .thermalTrip i0 => Sys2Proof.Machine.execThermalTrip i0 s
  | .edgeFault i0 => Sys2Proof.Machine.execEdgeFault i0 s
  | .thermalLoop n so w f => Sys2Proof.Machine.execThermalLoop n so w f s
  | .powerLoop n so w => Sys2Proof.Machine.execPowerLoop n so w s
  | .voltageLoop setpoints => Sys2Proof.Machine.execVoltageLoop setpoints s
  -- Faults and resets
  | .fabricParity => Sys2Proof.Machine.execFabricParity s
  | .d2dFail => Sys2Proof.Machine.execD2dFail s
  | .faultPulseEnd => Sys2Proof.Machine.execFaultPulseEnd s
  | .faultHoldWrite p on => Sys2Proof.Machine.execFaultHoldWrite p on s
  | .rstChannel p target written => Sys2Proof.Machine.execRstChannel p target written s
  | .rstStall p target => Sys2Proof.Machine.execRstStall p target s
  | .rstCore p target => Sys2Proof.Machine.execRstCore p target s
  | .rstEngine p target => Sys2Proof.Machine.execRstEngine p target s
  | .rstCluster p target => Sys2Proof.Machine.execRstCluster p target s
  | .rstPort p target => Sys2Proof.Machine.execRstPort p target s
  | .rstChip p => Sys2Proof.Machine.execRstChip p s
  | .clusterParity c => Sys2Proof.Machine.execClusterParity c s
  | .engWdog page => Sys2Proof.Machine.execEngWdog page s
  | .autoRecoveryEnd page => Sys2Proof.Machine.execAutoRecoveryEnd page s
  | .memoryReadError addr k => Sys2Proof.Machine.execMemoryReadError addr k s
  -- Management
  | .stepNsWrite p value => Sys2Proof.Machine.execStepNsWrite p value s
  | .timeStepApply => Sys2Proof.Machine.execTimeStepApply s
  | .ptpSync trim err locked => Sys2Proof.Machine.execPtpSync trim err locked s
  | .ppsEdge time trim locked => Sys2Proof.Machine.execPpsEdge time trim locked s
  | .timeSourceLost => Sys2Proof.Machine.execTimeSourceLost s
  | .exportDatagram => Sys2Proof.Machine.execExportDatagram s
  | .sensorsSample => Sys2Proof.Machine.execSensorsSample s
  | .countersSample => Sys2Proof.Machine.execCountersSample s
  | .pubPoll bad => Sys2Proof.Machine.execPubPoll bad s
  | .setEndpointId ep eid => Sys2Proof.Machine.execSetEndpointId ep eid s
  | .getTid ep => Sys2Proof.Machine.execGetTid ep s
  | .setTid ep tid => Sys2Proof.Machine.execSetTid ep tid s
  | .getPldmVersion ep typ => Sys2Proof.Machine.execGetPldmVersion ep typ s
  | .getPldmTypes ep => Sys2Proof.Machine.execGetPldmTypes ep s
  | .getPldmCommands ep typ => Sys2Proof.Machine.execGetPldmCommands ep typ s
  | .getPdr ep handle => Sys2Proof.Machine.execGetPdr ep handle s
  | .getSensorReading ep sensor => Sys2Proof.Machine.execGetSensorReading ep sensor s
  | .getStateSensorReadings ep sensor => Sys2Proof.Machine.execGetStateSensorReadings ep sensor s
  | .setEventReceiver ep eid => Sys2Proof.Machine.execSetEventReceiver ep eid s
  | .mgmtDatagram src m => Sys2Proof.Machine.execMgmtDatagram src m s
  | .icmpEcho src data => Sys2Proof.Machine.execIcmpEcho src data s
  | .uartRxChar data stopLow lineLow parityBad => Sys2Proof.Machine.execUartRxChar data stopLow lineLow parityBad s
  | .uartRxPop p => Sys2Proof.Machine.execUartRxPop p s
  | .uartTx p value => Sys2Proof.Machine.execUartTx p value s
  | .unlockChallenge => Sys2Proof.Machine.execUnlockChallenge s
  | .unlockResponse tok => Sys2Proof.Machine.execUnlockResponse tok s
  | .extest => Sys2Proof.Machine.execExtest s
  | .bypass => Sys2Proof.Machine.execBypass s
  | .idcode => Sys2Proof.Machine.execIdcode s
  | .samplePreload => Sys2Proof.Machine.execSamplePreload s
  -- Module
  | .pwrEnRise => Sys2Proof.Machine.execPwrEnRise s
  | .powerOff => Sys2Proof.Machine.execPowerOff s
  | .coolantLost => Sys2Proof.Machine.execCoolantLost s
  | .coolantRestore => Sys2Proof.Machine.execCoolantRestore s
  | .inputVLow mv => Sys2Proof.Machine.execInputVLow mv s
  -- Late rows
  | .milestoneEdge => Sys2Proof.Machine.execMilestoneEdge s
  | .sensorSample temps volts amps avg10 => Sys2Proof.Machine.execSensorSample temps volts amps avg10 s
  | .selftestComplete v checked bad => Sys2Proof.Machine.execSelftestComplete v checked bad s
  | .ssdFlushComplete v n => Sys2Proof.Machine.execSsdFlushComplete v n s
  | .ethLinkUp port => Sys2Proof.Machine.execEthLinkUp port s
  | .hostLinkUp h speed width => Sys2Proof.Machine.execHostLinkUp h speed width s
  | .mgmtLinkDown => Sys2Proof.Machine.execMgmtLinkDown s
  | .coolantOkRise => Sys2Proof.Machine.execCoolantOkRise s
  | .pwrEnHoldEnd => Sys2Proof.Machine.execPwrEnHoldEnd s
  | .inputPowerUp => Sys2Proof.Machine.execInputPowerUp s

end Sys2Proof.Machine
end

