-- ==== Sys2Proof/WellFormed.lean ====
section
/-! DEFINITION. The commands that an environment can send: operands that a bus, a pin or a field can carry. A meaning is total all the same: it cuts an operand to the width of what it writes. -/

namespace Sys2Proof

/-- A register page of the map (R54, R57): below the pages of the Churn cores' end. -/
def pageOk (p : Nat) : Bool := decide (p < 0x2150)

/-- A register access that R52 and R53 accept: a page, an aligned offset in it, a width of 32 bits or more in dwords, and a
value that the width carries. -/
def accessOk (page off width value : Nat) : Bool :=
  pageOk page && decide (off < 0x1000) && off % (if width = 64 then 8 else 4) == 0 && decide (32 ≤ width) && width % 32 == 0 &&
  decide (value < 2 ^ width)

/-- Every element is a byte (R7). -/
def bytesOk (b : List Nat) : Bool := b.all fun x => decide (x < 256)

/-- A value of one 32-bit word. -/
def wordOk (v : Nat) : Bool := decide (v < 2 ^ 32)

/-- A command that an environment can send. Rows whose operands their types already bound need no check. -/
def Instr.wellFormed : Instr → Bool
  | .registerWrite _ page off bits value => accessOk page off bits value
  | .lowWordWrite _ page off value => accessOk page off 32 value
  | .lowWordRead _ page off => accessOk page off 32 0
  | .asleepPageAccess _ page off w => accessOk page off 32 (w.getD 0)
  | .enWritten1 _ page value => pageOk page && wordOk value
  | .enWritten0 _ page value => pageOk page && wordOk value
  | .quiesceWrite _ page _ => pageOk page
  | .fenceWrite _ page _ => pageOk page
  | .consistencyCheckEnd page => pageOk page
  | .drainToOff page => pageOk page
  | .errCountClear _ page => pageOk page
  | .sleepEntry page => pageOk page
  | .engWdog page => pageOk page
  | .autoRecoveryEnd page => pageOk page
  | .linkWake page => pageOk page
  | .crsBreak _ value => wordOk value
  | .chOwnerWrite _ _ _ value => wordOk value
  | .stgCommit _ value => wordOk value
  | .stgInvalidate _ value => wordOk value
  | .keyLoad _ _ value => wordOk value
  | .keyErase _ _ value => wordOk value
  | .imemWrite _ _ _ data => bytesOk data
  | .icmpEcho _ data => bytesOk data
  | .loaderImage img => bytesOk img
  | .interrupt _ line => decide (line < 64)
  | _ => true

end Sys2Proof
end

