-- ==== Sys2Proof/Safety.lean ====
section
/-! DEFINITION. What counts as a safe state, and the terms that the statements use: canonical memory, a queue of commands that an environment can send, an instruction at its boundary, registers that a step leaves alone. -/

namespace Sys2Proof.Machine

/-- The memory stands in its canonical form: keys strictly rising, no entry equal to what an unlisted address reads as. -/
def Memory.wf (m : List Host.Cell) : Bool := mapWf (0 : Byte) m

/-- Every waiting command is one that an environment can send. -/
def queueOk (s : State) : Bool := s.pending.all Instr.wellFormed

/-! ### Instructions of the Sterok cores -/

/-- The registers that an instruction of core `i` finds: the core is at an instruction boundary, and on a Wayside core the fetch of
its word is admitted (its translation is held from then on, R219). -/
def atInstr (i : CoreId) (c : Chip) : Option CoreSt := if canExecute i c then (fetchAt i c).toOption else none

/-- The outcome of an instruction that leaves registers `k`, goes on at `pc` and takes `n` tile cycles, on chip `c`; an
interrupt that waits is then taken at the boundary (R218; a Churn core has none). -/
def goesOn (i : CoreId) (k : CoreSt) (pc n : Nat) (c : Chip) (s : State) : Host.Outcome State Fault Refusal :=
  .next { s with chip := boundary i (retire i n (setCore i { k with pc := pc % 2 ^ 64 } c)) }

/-- The outcome of an instruction that leaves registers `k` and goes on at the next word. -/
def completes (i : CoreId) (k : CoreSt) (n : Nat) (s : State) : Host.Outcome State Fault Refusal :=
  goesOn i k (k.pc + 4) n s.chip s

/-- The outcome of an instruction that traps (R211, R214, R216). -/
def traps (i : CoreId) (cause val pc : Nat) (c : Chip) (s : State) : Host.Outcome State Fault Refusal :=
  .next { s with chip := trapEntry i cause val pc c }

/-- The next word lies in the range of the core (R199). -/
def nextWordOk (i : CoreId) (k : CoreSt) : Prop := badTarget i (k.pc + 4) = false

/-! ### Commands -/

/-- The outcome that leaves block `c` and the waiting commands as they are. -/
def becomes (s : State) (c : Chip) : Host.Outcome State Fault Refusal := .next { s with chip := c }

/-- A command of party `p` to page `page` reaches it: the page does not sleep (R78) and its guard is passed (R65, R91). -/
def reaches (p : Party) (page : Nat) (c : Chip) : Prop := pageState page c ≠ 6 ∧ guardOk p page c = true

/-- Party `p` may write `BLK_CTRL` of a page (R59, R65, R670). -/
def mayControl (p : Party) (page : Nat) (c : Chip) : Prop :=
  hasHeader page = true ∧ guardOk p page c = true ∧ ctrlMay p page c = true

/-! ### Registers -/

/-- Every register field outside a list reads as before. -/
def onlyFields (fs : List Fld) (a b : Chip) : Prop := ∀ g : Fld, fldKey g ∉ fs.map fldKey → rd g b = rd g a

end Sys2Proof.Machine
end

