-- ==== Sys2Proof/Certificates/Slice0/Obligations.lean ====
section
/-! DEFINITION. The statements for the provers. -/

open Sys2Proof Sys2Proof.Machine

/-- A step with a command at the front of the queue runs that command on the machine with the queue's rest. -/
def Obligations.StepRunsFront : Prop :=
  ∀ (i : Instr) (s : State), step { s with pending := i :: s.pending } = exec i s

/-! ### The Sterok cores (chapter 05) -/

/-- R206, R208, R209: the three-register value instructions. Each writes Vx from Vy and Vz and nothing else but the PC and the counters; division by 0 and of −2^63 by −1 as R208 says. R206: the immediate instructions on value registers; SHIFTI by kind (IMM18[7:6]). R193, R206: the pointer instructions; arithmetic wraps modulo 2^64. R194, R195, R206, R209: accumulator operations, each from the exact integer value. An accumulator wraps modulo 2^128, and a wrap sets `ACC_OVF`; a read move rounds half to even or to the floor, saturates to 64 bits, and saturation sets `SAT`; 2 tile cycles. R189, R191, R197, R201, R202, R207: forms that are illegal trap with cause 0x01 and the instruction word: a nonzero field that must be 0, SHIFTI of kind 3 or with a reserved bit, MODE 3, wrap mode on a base above P7, an accumulator above ACC3, an odd DN. R189: what a core kind lacks. Atomics trap on a Churn core and event instructions elsewhere with cause 0x01; the tile majors trap elsewhere with 0x02 (DIGEST, which a Wayside core has, on the Steward). -/
def Obligations.RegisterInstructions : Prop :=
  -- ValueInstructions
  (∀ (i : CoreId) (s : State) (k : CoreSt) (x y z : Fin 16), atInstr i s.chip = some k → nextWordOk i k →
    let a := getV k y
    let b := getV k z
    let puts := fun (n : Nat) (v : Word) => completes i (setV k x v) n s
    exec (.add i x y z) s = puts 1 (a + b) ∧
    exec (.sub i x y z) s = puts 1 (a - b) ∧
    exec (.and i x y z) s = puts 1 (a &&& b) ∧
    exec (.or i x y z) s = puts 1 (a ||| b) ∧
    exec (.xor i x y z) s = puts 1 (a ^^^ b) ∧
    exec (.andn i x y z) s = puts 1 (a &&& ~~~b) ∧
    exec (.sll i x y z) s = puts 1 (BitVec.ofNat 64 (a.toNat * 2 ^ (b.toNat % 64))) ∧
    exec (.srl i x y z) s = puts 1 (BitVec.ofNat 64 (a.toNat / 2 ^ (b.toNat % 64))) ∧
    exec (.sra i x y z) s = puts 1 (BitVec.ofInt 64 (a.toInt / 2 ^ (b.toNat % 64))) ∧
    exec (.mul i x y z) s = puts 3 (BitVec.ofInt 64 (a.toInt * b.toInt)) ∧
    exec (.mulhs i x y z) s = puts 3 (BitVec.ofInt 64 (a.toInt * b.toInt / 2 ^ 64)) ∧
    exec (.mulhu i x y z) s = puts 3 (BitVec.ofNat 64 (a.toNat * b.toNat / 2 ^ 64)) ∧
    exec (.divs i x y z) s = puts 34 (if b = 0 then BitVec.allOnes 64 else BitVec.ofInt 64 (a.toInt.tdiv b.toInt)) ∧
    exec (.divu i x y z) s = puts 34 (if b = 0 then BitVec.allOnes 64 else BitVec.ofNat 64 (a.toNat / b.toNat)) ∧
    exec (.rems i x y z) s = puts 34 (if b = 0 then a else BitVec.ofInt 64 (a.toInt.tmod b.toInt)) ∧
    exec (.remu i x y z) s = puts 34 (if b = 0 then a else BitVec.ofNat 64 (a.toNat % b.toNat)) ∧
    exec (.min i x y z) s = puts 1 (if a.toInt ≤ b.toInt then a else b) ∧
    exec (.max i x y z) s = puts 1 (if a.toInt ≤ b.toInt then b else a) ∧
    exec (.minu i x y z) s = puts 1 (if a.toNat ≤ b.toNat then a else b) ∧
    exec (.maxu i x y z) s = puts 1 (if a.toNat ≤ b.toNat then b else a) ∧
    exec (.cmpeq i x y z) s = puts 1 (if a = b then 1 else 0) ∧
    exec (.cmpne i x y z) s = puts 1 (if a = b then 0 else 1) ∧
    exec (.cmplt i x y z) s = puts 1 (if a.toInt < b.toInt then 1 else 0) ∧
    exec (.cmpltu i x y z) s = puts 1 (if a.toNat < b.toNat then 1 else 0) ∧
    (z = 0 → exec (.clz i x y z) s = puts 1 (BitVec.ofNat 64 (((List.range 64).find? fun n => a.getLsbD (63 - n)).getD 64))) ∧
    (z = 0 → exec (.popc i x y z) s = puts 1 (BitVec.ofNat 64 ((List.range 64).filter fun n => a.getLsbD n).length))) ∧
  -- ImmediateInstructions
  (∀ (i : CoreId) (s : State) (k : CoreSt) (x y : Fin 16) (imm : BitVec 18), atInstr i s.chip = some k → nextWordOk i k →
    let a := getV k y
    let sx : Word := BitVec.ofInt 64 imm.toInt
    let zx : Word := BitVec.ofNat 64 imm.toNat
    let puts := fun (v : Word) => completes i (setV k x v) 1 s
    exec (.addi i x y imm) s = puts (a + sx) ∧
    exec (.andi i x y imm) s = puts (a &&& sx) ∧
    exec (.ori i x y imm) s = puts (a ||| zx) ∧
    exec (.xori i x y imm) s = puts (a ^^^ zx) ∧
    (imm.toNat / 64 = 0 → exec (.shifti i x y imm) s = puts (BitVec.ofNat 64 (a.toNat * 2 ^ (imm.toNat % 64)))) ∧
    (imm.toNat / 64 = 1 → exec (.shifti i x y imm) s = puts (BitVec.ofNat 64 (a.toNat / 2 ^ (imm.toNat % 64)))) ∧
    (imm.toNat / 64 = 2 → exec (.shifti i x y imm) s = puts (BitVec.ofInt 64 (a.toInt / 2 ^ (imm.toNat % 64)))) ∧
    (y = 0 → exec (.li i x y imm) s = puts sx) ∧
    (y = 0 → exec (.shi i x y imm) s = puts (getV k x * 2 ^ 18 + zx)) ∧
    exec (.cmplti i x y imm) s = puts (if a.toInt < imm.toInt then 1 else 0) ∧
    exec (.cmpeqi i x y imm) s = puts (if a.toInt = imm.toInt then 1 else 0)) ∧
  -- PointerInstructions
  (∀ (i : CoreId) (s : State) (k : CoreSt) (x y z : Fin 16) (sh : Fin 4) (imm : BitVec 18), atInstr i s.chip = some k → nextWordOk i k →
    let p := getP k y
    let puts := fun (v : Word) => completes i (setP k x v) 1 s
    exec (.addp i x y z) s = puts (BitVec.ofNat 64 (p.toNat + (getP k z).toNat)) ∧
    exec (.subp i x y z) s = puts (BitVec.ofInt 64 (p.toInt - (getP k z).toInt)) ∧
    exec (.addpv i sh x y z) s = puts (BitVec.ofNat 64 (p.toNat + (getV k z).toNat * 2 ^ sh.val)) ∧
    exec (.movpv i x y z) s = puts (getV k y) ∧
    exec (.movvp i x y z) s = completes i (setV k x p) 1 s ∧
    exec (.addpi i x y imm) s = puts (BitVec.ofInt 64 (p.toInt + imm.toInt)) ∧
    (y = 0 → exec (.lep i x y imm) s = puts (BitVec.ofInt 64 (k.pc + imm.toInt)))) ∧
  -- Accumulators
  (∀ (i : CoreId) (s : State) (k : CoreSt) (x y z : Fin 16) (sh : BitVec 7), atInstr i s.chip = some k → nextWordOk i k →
    let q : Int := 2 ^ sh.toNat
    let a := (getA k x).toInt
    let puts := fun (v : Int) => completes i (setA (if -(2 ^ 127) ≤ v ∧ v < 2 ^ 127 then k else setStatus k 2 true) x (BitVec.ofInt 128 v)) 2 s
    let v := (getA k y).toInt
    let fl := v / q
    let half := if 2 * (v % q) < q ∨ (2 * (v % q) = q ∧ fl % 2 = 0) then fl else fl + 1
    let reads := fun (lo hi r : Int) => completes i (setV (if lo ≤ r ∧ r ≤ hi then k else setStatus k 0 true) x (BitVec.ofInt 64 (max lo (min hi r)))) 2 s
    (x.val < 4 → exec (.mac i x y z sh) s = puts (a + (getV k y).toInt * (getV k z).toInt * q)) ∧
    (x.val < 4 → exec (.macu i x y z sh) s = puts (a + (getV k y).toNat * (getV k z).toNat * q)) ∧
    (x.val < 4 → exec (.msb i x y z sh) s = puts (a - (getV k y).toInt * (getV k z).toInt * q)) ∧
    (x.val < 4 → exec (.accadds i x y z sh) s = puts (a + (getV k y).toInt * q)) ∧
    (x.val < 4 → exec (.accaddu i x y z sh) s = puts (a + (getV k y).toNat * q)) ∧
    (x.val < 4 → exec (.accsubs i x y z sh) s = puts (a - (getV k y).toInt * q)) ∧
    (x.val < 4 → exec (.accclr i x y z sh) s = puts 0) ∧
    (x.val < 4 → y.val < 4 → exec (.accadd i x y z sh) s = puts (a + v)) ∧
    (y.val < 4 → exec (.rnds i x y z sh) s = reads (-(2 ^ 63)) (2 ^ 63 - 1) half) ∧
    (y.val < 4 → exec (.rndu i x y z sh) s = reads 0 (2 ^ 64 - 1) half) ∧
    (y.val < 4 → exec (.flrs i x y z sh) s = reads (-(2 ^ 63)) (2 ^ 63 - 1) fl) ∧
    (y.val < 4 → exec (.flru i x y z sh) s = reads 0 (2 ^ 64 - 1) fl)) ∧
  -- IllegalForms
  (∀ (i : CoreId) (s : State) (k : CoreSt) (x y z : Fin 16) (imm : BitVec 18) (mode : BitVec 2) (disp : BitVec 16) (sh : BitVec 7)
    (sub : BitVec 6) (g : Bool), atInstr i s.chip = some k → (getCore i s.chip).tile = none →
    let t3 := fun (major minor : Nat) => major * 2 ^ 26 + x.val * 2 ^ 22 + y.val * 2 ^ 18 + z.val * 2 ^ 14 + minor
    let im := fun (major : Nat) => major * 2 ^ 26 + x.val * 2 ^ 22 + y.val * 2 ^ 18 + imm.toNat
    let me := fun (major : Nat) => major * 2 ^ 26 + x.val * 2 ^ 22 + y.val * 2 ^ 18 + mode.toNat * 2 ^ 16 + disp.toNat
    let ac := fun (minor : Nat) => t3 0x34 (sh.toNat * 2 ^ 7 + minor)
    let cp := fun (major : Nat) => major * 2 ^ 26 + sub.toNat * 2 ^ 20 + y.val * 2 ^ 16 + (if g then 1 else 0) * 2 ^ 15
    let bad := fun (w : Nat) => traps i 0x01 w k.pc s.chip s
    (z ≠ 0 → exec (.clz i x y z) s = bad (t3 0 0x19) ∧ exec (.popc i x y z) s = bad (t3 0 0x1A)) ∧
    (192 ≤ imm.toNat → exec (.shifti i x y imm) s = bad (im 0x05)) ∧
    (y ≠ 0 → exec (.li i x y imm) s = bad (im 0x06) ∧ exec (.shi i x y imm) s = bad (im 0x07) ∧
      exec (.lep i x y imm) s = bad (im 0x12) ∧ exec (.dbnz i x y imm) s = bad (im 0x2A)) ∧
    (mode = 3 ∨ (mode = 2 ∧ 8 ≤ y.val) →
      exec (.lb i x y mode disp) s = bad (me 0x14) ∧ exec (.lbu i x y mode disp) s = bad (me 0x15) ∧
      exec (.lh i x y mode disp) s = bad (me 0x16) ∧ exec (.lhu i x y mode disp) s = bad (me 0x17) ∧
      exec (.lw i x y mode disp) s = bad (me 0x18) ∧ exec (.lwu i x y mode disp) s = bad (me 0x19) ∧
      exec (.ld i x y mode disp) s = bad (me 0x1A) ∧ exec (.ldp i x y mode disp) s = bad (me 0x1B) ∧
      exec (.sb i x y mode disp) s = bad (me 0x1C) ∧ exec (.sh i x y mode disp) s = bad (me 0x1D) ∧
      exec (.sw i x y mode disp) s = bad (me 0x1E) ∧ exec (.sd i x y mode disp) s = bad (me 0x1F) ∧
      exec (.stp i x y mode disp) s = bad (me 0x20)) ∧
    (4 ≤ x.val → exec (.mac i x y z sh) s = bad (ac 0x0) ∧ exec (.macu i x y z sh) s = bad (ac 0x1) ∧
      exec (.msb i x y z sh) s = bad (ac 0x2) ∧ exec (.accadds i x y z sh) s = bad (ac 0x3) ∧
      exec (.accaddu i x y z sh) s = bad (ac 0x4) ∧ exec (.accsubs i x y z sh) s = bad (ac 0x5) ∧
      exec (.accclr i x y z sh) s = bad (ac 0x6)) ∧
    (4 ≤ x.val ∨ 4 ≤ y.val → exec (.accadd i x y z sh) s = bad (ac 0x7)) ∧
    (4 ≤ y.val → exec (.rnds i x y z sh) s = bad (ac 0x8) ∧ exec (.rndu i x y z sh) s = bad (ac 0x9) ∧
      exec (.flrs i x y z sh) s = bad (ac 0xA) ∧ exec (.flru i x y z sh) s = bad (ac 0xB)) ∧
    (y.val % 2 = 1 → exec (.gemmBlock i sub y g) s = bad (cp 0x38) ∧ exec (.anchor i sub y g) s = bad (cp 0x39) ∧
      exec (.vreduce i sub y g) s = bad (cp 0x3A) ∧ exec (.convert i sub y g) s = bad (cp 0x3B) ∧
      exec (.digest i sub y g) s = bad (cp 0x3C))) ∧
  -- AbsentInstructions
  (∀ (i : CoreId) (s : State) (k : CoreSt) (x y z : Fin 16) (slot : BitVec 3) (imm : BitVec 16) (sub : BitVec 6) (g : Bool),
    atInstr i s.chip = some k → (getCore i s.chip).tile = none →
    let am := fun (minor : Nat) => traps i 0x01 (0x32 * 2 ^ 26 + x.val * 2 ^ 22 + y.val * 2 ^ 18 + z.val * 2 ^ 14 + minor) k.pc s.chip s
    let ev := fun (minor : Nat) => traps i 0x01 (0x31 * 2 ^ 26 + x.val * 2 ^ 22 + slot.toNat * 2 ^ 19 + imm.toNat * 2 ^ 3 + minor) k.pc s.chip s
    let cp := fun (major : Nat) => traps i 0x02 (major * 2 ^ 26 + sub.toNat * 2 ^ 20 + y.val * 2 ^ 16 + (if g then 1 else 0) * 2 ^ 15) k.pc s.chip s
    (isChurn i = true → exec (.amoadd i x y z) s = am 1 ∧ exec (.amoswap i x y z) s = am 2 ∧ exec (.amoand i x y z) s = am 3 ∧
      exec (.amoor i x y z) s = am 4 ∧ exec (.cas i x y z) s = am 5) ∧
    (isChurn i = false → exec (.halt i x slot imm) s = ev 0 ∧ exec (.wait i x slot imm) s = ev 1 ∧ exec (.waitM i x slot imm) s = ev 2 ∧
      exec (.signal i x slot imm) s = ev 3 ∧ exec (.mark i x slot imm) s = ev 4) ∧
    (isChurn i = false → y.val % 2 = 0 → exec (.gemmBlock i sub y g) s = cp 0x38 ∧ exec (.anchor i sub y g) s = cp 0x39 ∧
      exec (.vreduce i sub y g) s = cp 0x3A ∧ exec (.convert i sub y g) s = cp 0x3B ∧
      (i = .steward → exec (.digest i sub y g) s = cp 0x3C)))

/-! ### The queue, runs and memory -/

/-- Every step completes and takes the command at the front of the queue: no command faults or is refused, on any state; an idle step changes nothing; and a queue of commands that an environment can send stays one. -/
def Obligations.EveryStepCompletes : Prop :=
  ∀ s : State, ∃ t : State, step s = .next t ∧ t.pending = s.pending.tail ∧ (s.pending = [] → t = s) ∧ (queueOk s = true → queueOk t = true) ∧
    ∀ i : Instr, ∃ u : State, exec i s = .next u ∧ u.pending = s.pending

/-- Waiting commands run first in, first out: as many steps as commands wait in front run each of them once, in order, on the chip that the one before left, and leave the rest of the queue waiting. -/
def Obligations.RunsInOrder : Prop :=
  ∀ (cmds rest : List Instr) (c : Chip), ∃ f : Nat → Chip, f 0 = c ∧
    (∀ k (h : k < cmds.length), exec cmds[k] ⟨f k, cmds.drop (k + 1) ++ rest⟩ = .next ⟨f (k + 1), cmds.drop (k + 1) ++ rest⟩) ∧
    Host.Core.run core cmds.length (⟨c, cmds ++ rest⟩ : State) = .next (⟨f cmds.length, rest⟩ : State)

/-- Memory keeps its canonical form: whatever command is at the front, from every state whose memory is canonical a step gives a state whose memory is canonical. -/
def Obligations.MemoryCanonical : Prop :=
  ∀ s t : State, Memory.wf s.chip.mem = true → step s = .next t → Memory.wf t.chip.mem = true

/-- The state right after reset: no command waits, memory lists nothing, and the registers read the values that the spec gives them. The pages of R58 are RUNNING with `EN` 1 and every other page is OFF (its registers say 'reset value per R58'). -/
def Obligations.ResetState : Prop :=
  let c := State.reset.chip
  State.reset.pending = [] ∧ queueOk State.reset = true ∧ Memory.wf c.mem = true ∧ c.mem = [] ∧
  (∀ p ∈ [0, 1, 2, 3, 4, 5, 6, 8, 9, 0xA0, 0xA1, 0xA2, 0xA3, 0xA4, 0xA5, 0xA6, 0xB0], pageState p c = 2 ∧ rd (Hdr.EN p) c = 1) ∧
  (∀ p, p ∉ [0, 1, 2, 3, 4, 5, 6, 8, 9, 0xA0, 0xA1, 0xA2, 0xA3, 0xA4, 0xA5, 0xA6, 0xB0] → pageState p c = 0 ∧ rd (Hdr.EN p) c = 0) ∧
  (∀ p, rd (Hdr.FENCE p) c = 0 ∧ rd (Hdr.QUIESCE p) c = 0 ∧ rd (Hdr.ERR_STATUS p) c = 0 ∧ rd (Hdr.ERR_COUNT p) c = 0 ∧ rd (Hdr.FIRST_VALID p) c = 0 ∧ rd (Hdr.IDLE p) c = 1) ∧
  (∀ n, rd (Reg.CRS_OWNER n) c = 0) ∧ (∀ p k, rd (Reg.CHN_AUTO_RESTART k) c = 1 ∧ rd (Reg.CHN_POOL_OF k) c = 0xFF ∧ rd (Reg.CC_WDOG_LIMIT p) c = 0x100000 ∧ rd (Reg.CC_RUN_STATE p) c = 0) ∧
  rd Reg.CHN_FAILED_CORE c = 0x1FF ∧ rd Reg.CHN_REPLACEMENT c = 0x1FF ∧
  (∀ e k, rd (Reg.MOV_WDOG_LIMIT e) c = 0x100000 ∧ rd (Reg.MOV_OWNER e k) c = 0xFFFF ∧ rd (Reg.MOV_CH_STATE e k) c = 0 ∧ rd (Reg.MOV_PRIO_CAP e k) c = 3) ∧
  rd Reg.AHN_UDP_PORT c = 47265 ∧ rd Reg.AHN_PORT_MASK c = 1 ∧ rd Reg.AHN_RTO_BASE c = 16000 ∧ rd Reg.AHN_ACK_DELAY c = 2000 ∧ rd Reg.AHN_FLIGHT_WINDOW c = 1024 ∧ rd Reg.AHN_CWND_INIT c = 128 ∧ rd Reg.AHN_RESP_TIMEOUT c = 10000000 ∧
  rd Reg.COL_STAGING_LOG2 c = 26 ∧ (∀ k, rd (Reg.COL_OWNER k) c = 0xFFFF) ∧ rd Reg.HRD_LIST_LOG2 c = 24 ∧ rd Reg.HRD_PROMPT_LOG2 c = 30 ∧ rd Reg.HRD_SIDE_TIMEOUT_US c = 1000 ∧ rd Reg.VAT_VAT_PRIO c = 2 ∧ rd Reg.KVP_GROW_PAGES c = 4 ∧
  rd Reg.LBY_PEER_RATE c = 50 ∧ rd Reg.LBY_DUR_RATE c = 25 ∧ rd Reg.LBY_STOP_WAIT_MS c = 30000 ∧ rd Reg.LBY_EPOCH_TIMEOUT_MS c = 10000 ∧ rd Reg.LBY_CEILING c = 2 ^ 40 - 1 ∧ rd Reg.WMK_SEED1 c = 1 ∧
  (∀ g k, rd (Reg.ETH_MODE g) c = 2 ∧ rd (Reg.ETH_XOFF_KIB g) c = 4096 ∧ rd (Reg.ETH_XON_KIB g) c = 2048 ∧ rd (Reg.ETH_MAX_FRAME g k) c = 9216) ∧ rd Reg.SEP_STALL_BASE c = 4096 ∧ rd Reg.SEP_WIN_BANK c = 1 ∧ rd Reg.TOL_QUANTUM c = 1024 ∧ rd Reg.TOL_NONSTALL_WEIGHT c = 16 ∧
  rd Reg.PAL_STAGING_LOG2 c = 22 ∧ rd Reg.PAL_REBUILD_RATE c = 4 ∧ (∀ k, rd (Reg.PAL_OWNER k) c = 0xFFFF ∧ rd (Reg.KEY_OWNER k) c = 0xFFFF ∧ rd (Reg.KEY_USE_LIMIT k) c = 2 ^ 48) ∧ (∀ h, rd (Reg.HEP_PROPAGATE h) c = 1 ∧ rd (Reg.SPR_P2P_EN h) c = 1 ∧ rd (Reg.SPR_BIND_HOST h) c = h / 4) ∧
  rd Reg.PWR_WAKE_WAIT_US c = 100 ∧ rd Reg.PWR_WAKE_PER_US c = 16 ∧ rd Reg.THM_POWER_CAP_W c = 850 ∧ rd Reg.THM_TJ_TARGET_C c = 95 ∧ (∀ m, rd (Reg.MEM_CORR_THRESHOLD m) c = 16) ∧ rd Reg.RST_AUTO_RECOVER c = 1 ∧ rd Reg.RST_ENG_WDOG_US c = 10000 ∧ rd Reg.RST_CAPTURE_LOG2 c = 10 ∧
  rd Reg.RST_SAFE_STATE c = 0 ∧ rd Reg.MST_EXPORT_PORT c = 47266 ∧ rd Reg.MST_EXPORT_HOLD_MS c = 100 ∧ rd Reg.MST_SENSOR_PERIOD_MS c = 1000 ∧ rd Reg.MST_COUNTER_PERIOD_S c = 60 ∧ rd Reg.MST_PUB_POLL_US c = 100 ∧ rd Reg.SBI_UART_BAUD c = 115200

/-- R201, R204–R206, R209: loads whose bytes are reachable and not poisoned. The value is read at Pn + sext(DISP16) or at Pn, little-endian, extended as the mnemonic says; the base is updated first, so that LDP into its own base keeps the loaded value; 2 tile cycles, 3 when the access crosses a 64 B line. R201, R204–R206, R209: stores whose bytes are reachable. The low bytes of the register before the base update are written little-endian; 1 tile cycle, 2 when the access crosses a 64 B line. The frame of a store on a Churn core: the stored bytes read back, every other byte of every memory, every register of the core but the stepped base and the PC, and every register page but the core's counters are as before. R141, R212: on a Churn core an access beyond the 1 MiB of the scratchpad traps with cause 0x03, for every load and store. R201, R203: the base after an access. Offset mode leaves it; post-step adds sext(DISP16); wrap mode subtracts the window's length once at or above its end and adds it once below its start; a length of 0 behaves as post-step. -/
def Obligations.LoadsAndStores : Prop :=
  -- Loads
  (∀ (i : CoreId) (s : State) (k k' : CoreSt) (x y : Fin 16) (mode : BitVec 2) (disp : BitVec 16) (n : Nat) (ps : List (Nat × Nat × Nat)),
    atInstr i s.chip = some k → nextWordOk i k → (getCore i s.chip).tile = none → memIllegal y mode = false →
    let a := if mode = 0 then (getP k y + BitVec.ofInt 64 disp.toInt).toNat else (getP k y).toNat
    locate i k .load a n s.chip = .at k' ps → piecesPoison ps s.chip = none →
    let v := leNat (ldPieces ps s.chip)
    let sx : Word := BitVec.ofInt 64 (if v < 2 ^ (8 * n - 1) then (v : Int) else (v : Int) - (2 ^ (8 * n) : Nat))
    let zx : Word := BitVec.ofNat 64 v
    let gives := fun (kk : CoreSt) => goesOn i kk (k.pc + 4) (if a / 64 = (a + n - 1) / 64 then 2 else 3) s.chip s
    let b := stepBase k' y mode disp
    (n = 1 → exec (.lb i x y mode disp) s = gives (setV b x sx) ∧ exec (.lbu i x y mode disp) s = gives (setV b x zx)) ∧
    (n = 2 → exec (.lh i x y mode disp) s = gives (setV b x sx) ∧ exec (.lhu i x y mode disp) s = gives (setV b x zx)) ∧
    (n = 4 → exec (.lw i x y mode disp) s = gives (setV b x sx) ∧ exec (.lwu i x y mode disp) s = gives (setV b x zx)) ∧
    (n = 8 → exec (.ld i x y mode disp) s = gives (setV b x zx) ∧ exec (.ldp i x y mode disp) s = gives (setP b x zx))) ∧
  -- Stores
  (∀ (i : CoreId) (s : State) (k k' : CoreSt) (x y : Fin 16) (mode : BitVec 2) (disp : BitVec 16) (n : Nat) (ps : List (Nat × Nat × Nat)),
    atInstr i s.chip = some k → nextWordOk i k → (getCore i s.chip).tile = none → memIllegal y mode = false →
    let a := if mode = 0 then (getP k y + BitVec.ofInt 64 disp.toInt).toNat else (getP k y).toNat
    locate i k .store a n s.chip = .at k' ps →
    let gives := fun (v : Word) => goesOn i (stepBase k' y mode disp) (k.pc + 4) (if a / 64 = (a + n - 1) / 64 then 1 else 2)
      (stPieces ps ((List.range n).map fun j => v.toNat / 256 ^ j % 256) s.chip) s
    (n = 1 → exec (.sb i x y mode disp) s = gives (getV k x)) ∧
    (n = 2 → exec (.sh i x y mode disp) s = gives (getV k x)) ∧
    (n = 4 → exec (.sw i x y mode disp) s = gives (getV k x)) ∧
    (n = 8 → exec (.sd i x y mode disp) s = gives (getV k x) ∧ exec (.stp i x y mode disp) s = gives (getP k x))) ∧
  -- StoreFrame
  (∀ (m : Fin 336) (s : State) (k : CoreSt) (x y : Fin 16) (mode : BitVec 2) (disp : BitVec 16),
    let i := CoreId.churn m
    atInstr i s.chip = some k → nextWordOk i k → (getCore i s.chip).tile = none → memIllegal y mode = false →
    let a := (memAddr k y mode disp).toNat
    ∀ (n : Nat) (c : Instr), (c, n) ∈ [(Instr.sb i x y mode disp, 1), (Instr.sh i x y mode disp, 2), (Instr.sw i x y mode disp, 4),
      (Instr.sd i x y mode disp, 8), (Instr.stp i x y mode disp, 8)] →
    a + n ≤ 0x100000 →
    ∃ t, exec c s = .next t ∧ t.pending = s.pending ∧
      (∀ sp b, ¬ (∃ j, j < n ∧ cellKey sp b = cellKey (spSpad m.val) (a + j)) → ld8 sp b t.chip = ld8 sp b s.chip) ∧
      (∀ j, j < n → ld8 (spSpad m.val) (a + j) t.chip =
        (if c = Instr.stp i x y mode disp then getP k x else getV k x).toNat / 256 ^ j % 256) ∧
      (∀ r, r ≠ y.val → getP (getCore i t.chip) r = getP k r) ∧
      (mode = 0 → getP (getCore i t.chip) y = getP k y) ∧
      (getCore i t.chip).v = k.v ∧ (getCore i t.chip).acc = k.acc ∧ (getCore i t.chip).status = k.status ∧
      (getCore i t.chip).wrap = k.wrap ∧ (∀ j, j ≠ i → getCore j t.chip = getCore j s.chip) ∧
      onlyFields [Reg.CC_RETIRED m.val, Reg.CC_CYCLES m.val] s.chip t.chip) ∧
  -- ScratchpadRange
  (∀ (m : Fin 336) (s : State) (k : CoreSt) (x y : Fin 16) (mode : BitVec 2) (disp : BitVec 16),
    let i := CoreId.churn m
    atInstr i s.chip = some k → (getCore i s.chip).tile = none → memIllegal y mode = false →
    let a := (memAddr k y mode disp).toNat
    let out := fun (n : Nat) (c : Instr) => 0x100000 < a + n → exec c s = traps i 0x03 0 k.pc s.chip s
    out 1 (.lb i x y mode disp) ∧ out 1 (.lbu i x y mode disp) ∧ out 2 (.lh i x y mode disp) ∧ out 2 (.lhu i x y mode disp) ∧
    out 4 (.lw i x y mode disp) ∧ out 4 (.lwu i x y mode disp) ∧ out 8 (.ld i x y mode disp) ∧ out 8 (.ldp i x y mode disp) ∧
    out 1 (.sb i x y mode disp) ∧ out 2 (.sh i x y mode disp) ∧ out 4 (.sw i x y mode disp) ∧ out 8 (.sd i x y mode disp) ∧
    out 8 (.stp i x y mode disp)) ∧
  -- BaseUpdate
  (∀ (k : CoreSt) (y : Fin 16) (disp : BitVec 16),
    let p : Word := getP k y + BitVec.ofInt 64 disp.toInt
    let start : Word := mapGet 0 k.wrap (2 * y.val)
    let len : Word := mapGet 0 k.wrap (2 * y.val + 1)
    stepBase k y 0 disp = k ∧
    stepBase k y 1 disp = setP k y p ∧
    (len = 0 → stepBase k y 2 disp = setP k y p) ∧
    (len ≠ 0 → start.toNat + len.toNat ≤ p.toNat → stepBase k y 2 disp = setP k y (p - len)) ∧
    (len ≠ 0 → p.toNat < start.toNat → stepBase k y 2 disp = setP k y (p + len)) ∧
    (start.toNat ≤ p.toNat → p.toNat < start.toNat + len.toNat → stepBase k y 2 disp = setP k y p))

/-- R196, R198, R199, R206, R209: branches, jumps and calls. A taken one takes 2 tile cycles, an untaken one 1; on a Churn core a target outside the range traps with cause 0x01 at the instruction. R206, R223, R226: NOP, and FENCE and FENCE.I with no tile operation running, have no effect but their tile cycle. R152, R153, R226: on a Churn core FENCE, FENCE.I, HALT, a restart mark and a further tile operation wait for the running tile operation: they act as after its end, with the tile cycles moved on to it. -/
def Obligations.ControlFlow : Prop :=
  -- ControlFlow
  (∀ (i : CoreId) (s : State) (k : CoreSt) (x y z : Fin 16) (off : BitVec 18) (far : BitVec 26), atInstr i s.chip = some k →
    let a := getV k x
    let b := getV k y
    let word := fun (major : Nat) => major * 2 ^ 26 + x.val * 2 ^ 22 + y.val * 2 ^ 18 + off.toNat
    let near : Nat := ((k.pc + 4 * off.toInt) % 2 ^ 64).toNat
    let dest : Nat := ((k.pc + 4 * far.toInt) % 2 ^ 64).toNat
    let goes := fun (w : Nat) (kk : CoreSt) (pc n : Nat) =>
      if badTarget i pc then traps i 0x01 w k.pc s.chip s else goesOn i kk pc n s.chip s
    let branch := fun (major : Nat) (p : Prop) [Decidable p] => if p then goes (word major) k near 2 else goes (word major) k (k.pc + 4) 1
    let link := setP k 14 (BitVec.ofNat 64 (k.pc + 4))
    exec (.beq i x y off) s = branch 0x24 (a = b) ∧
    exec (.bne i x y off) s = branch 0x25 (a ≠ b) ∧
    exec (.blt i x y off) s = branch 0x26 (a.toInt < b.toInt) ∧
    exec (.bge i x y off) s = branch 0x27 (b.toInt ≤ a.toInt) ∧
    exec (.bltu i x y off) s = branch 0x28 (a.toNat < b.toNat) ∧
    exec (.bgeu i x y off) s = branch 0x29 (b.toNat ≤ a.toNat) ∧
    (y = 0 → exec (.dbnz i x y off) s =
      (if a = 1 then goes (word 0x2A) (setV k x (a - 1)) (k.pc + 4) 1 else goes (word 0x2A) (setV k x (a - 1)) near 2)) ∧
    exec (.j i far) s = goes (0x2C * 2 ^ 26 + far.toNat) k dest 2 ∧
    exec (.call i far) s = goes (0x2D * 2 ^ 26 + far.toNat) link dest 2 ∧
    exec (.jr i x y z) s = goes (0x2E * 2 ^ 26 + x.val * 2 ^ 22 + y.val * 2 ^ 18 + z.val * 2 ^ 14 + 1) k (getP k y).toNat 2 ∧
    exec (.callr i x y z) s = goes (0x2E * 2 ^ 26 + x.val * 2 ^ 22 + y.val * 2 ^ 18 + z.val * 2 ^ 14 + 2) link (getP k y).toNat 2) ∧
  -- NoEffect
  (∀ (i : CoreId) (s : State) (k : CoreSt) (x : Fin 16) (ct : BitVec 6) (imm : BitVec 10), atInstr i s.chip = some k → nextWordOk i k →
    exec (.nop i x ct imm) s = completes i k 1 s ∧
    ((getCore i s.chip).tile = none →
      exec (.fence i x ct imm) s = completes i k 1 s ∧ exec (.fenceI i x ct imm) s = completes i k 1 s)) ∧
  -- TileWaits
  (∀ (n : Fin 336) (s : State) (x : Fin 16) (ct : BitVec 6) (i10 : BitVec 10) (slot : BitVec 3) (i16 : BitVec 16) (sub : BitVec 6) (g : Bool),
    let i := CoreId.churn n
    canExecute i s.chip = true →
    let s' := { s with chip := waitTile n s.chip }
    exec (.fence i x ct i10) s = exec (.fence i x ct i10) s' ∧
    exec (.fenceI i x ct i10) s = exec (.fenceI i x ct i10) s' ∧
    exec (.halt i x slot i16) s = exec (.halt i x slot i16) s' ∧
    exec (.mark i x slot i16) s = exec (.mark i x slot i16) s' ∧
    exec (.gemmBlock i sub x g) s = exec (.gemmBlock i sub x g) s' ∧
    exec (.anchor i sub x g) s = exec (.anchor i sub x g) s' ∧
    exec (.vreduce i sub x g) s = exec (.vreduce i sub x g) s' ∧
    exec (.convert i sub x g) s = exec (.convert i sub x g) s' ∧
    exec (.digest i sub x g) s = exec (.digest i sub x g) s' ∧
    (getCore i s'.chip).tile = none)

/-- R210: CTRD. Every control register that the core has reads its content; CYCLES of a Wayside core or the Steward counts a clock that the model does not run and reads a free value (the model's choice, log entry 17). R210: a control register that does not exist on the core makes the instruction illegal (0x01), and one marked S traps with 0x0B in user mode, for CTRD, CTWR, CTSET and CTCLR. R210: CTWR writes Vx, CTSET sets and CTCLR clears the bits of Vx in a control register that the core has and the mode may access. R210: what a write of a control register leaves. A read-only register keeps its value; user mode changes STATUS [2:0] only, supervisor mode also `IE` and `PPRIV`; TRAP_VEC keeps its 4-byte and PT_ROOT its 4 KiB alignment; ASID keeps 16 bits, MMU_CTRL one. -/
def Obligations.ControlRegisters : Prop :=
  -- ControlReads
  (∀ (i : CoreId) (s : State) (k : CoreSt) (x : Fin 16) (ct : BitVec 6) (imm : BitVec 10), atInstr i s.chip = some k → nextWordOk i k →
    let n := ct.toNat
    let sup := statusBit k 4
    let c := s.chip
    let reads := fun (v : Nat) => exec (.ctrd i x ct imm) s = completes i (setV k x (BitVec.ofNat 64 v)) 1 s
    let reg := fun (v : Word) => exec (.ctrd i x ct imm) s = completes i (setV k x v) 1 s
    (n = 0 → reads 3) ∧
    (n = 1 → reads (match i with | .churn _ => 0x1F | .wayside _ => 0x30 | .steward => 0)) ∧
    (n = 2 → reads (match i with | .churn m => 65536 * m.val | .wayside w => 65536 * w.val + 1 | .steward => 2)) ∧
    (∀ m, i = .churn m → n = 3 → reads (256 * rd (Reg.CC_MEMBER m.val) c + rd (Reg.CC_POOL m.val) c)) ∧
    (n = 4 → reg k.status) ∧
    (∀ m, i = .churn m → n = 5 → reads (rd (Reg.CC_CYCLES m.val) c)) ∧
    (isChurn i = false → n = 6 →
      exec (.ctrd i x ct imm) s = goesOn i (setV k x (Config.freeValue c.free)) (k.pc + 4) 1 { c with free := c.free + 1 } s) ∧
    (∀ m, i = .churn m → n = 7 → reads (rd (Reg.CC_RETIRED m.val) c)) ∧
    (isChurn i = false → n = 7 → reg k.retired) ∧
    (n = 8 → reads (rd Reg.MST_MS_TIME c)) ∧
    (isChurn i = false → sup = true → (n = 9 → reg k.trapCause) ∧ (n = 10 → reg k.trapPc) ∧ (n = 11 → reg k.trapVal) ∧
      (n = 12 → reg k.trapVec) ∧ (n = 13 → reg k.supSp) ∧ (n = 14 → reg k.irqPending) ∧ (n = 15 → reg k.irqEnable)) ∧
    (∀ j : Nat, j < 16 → n = 16 + j → reg (mapGet 0 k.wrap j)) ∧
    (∀ w, i = .wayside w → sup = true → (n = 32 → reg k.ptRoot) ∧ (n = 33 → reg k.asid) ∧ (n = 35 → reg k.mmuCtrl))) ∧
  -- ControlTraps
  (∀ (i : CoreId) (s : State) (k : CoreSt) (x : Fin 16) (ct : BitVec 6) (imm : BitVec 10), atInstr i s.chip = some k →
    let n := ct.toNat
    let word := fun (minor : Nat) => 0x30 * 2 ^ 26 + x.val * 2 ^ 22 + n * 2 ^ 16 + imm.toNat * 2 ^ 6 + minor
    let all := fun (cause : Nat) =>
      exec (.ctrd i x ct imm) s = traps i cause (word 1) k.pc s.chip s ∧ exec (.ctwr i x ct imm) s = traps i cause (word 2) k.pc s.chip s ∧
      exec (.ctset i x ct imm) s = traps i cause (word 3) k.pc s.chip s ∧ exec (.ctclr i x ct imm) s = traps i cause (word 4) k.pc s.chip s
    (36 ≤ n → all 0x01) ∧
    (isChurn i = true → n = 6 ∨ (9 ≤ n ∧ n ≤ 15) → all 0x01) ∧
    (isChurn i = false → n = 3 ∨ n = 5 → all 0x01) ∧
    ((∀ w, i ≠ .wayside w) → 32 ≤ n → all 0x01) ∧
    (isChurn i = false → statusBit k 4 = false → 9 ≤ n → n ≤ 15 → all 0x0B) ∧
    (∀ w, i = .wayside w → statusBit k 4 = false → 32 ≤ n → n ≤ 35 → all 0x0B)) ∧
  -- ControlWrites
  (∀ (i : CoreId) (s : State) (k : CoreSt) (x : Fin 16) (ct : BitVec 6) (imm : BitVec 10), atInstr i s.chip = some k → nextWordOk i k →
    ctExists i ct.toNat = true → (ctSuper ct.toNat = true → statusBit k 4 = true) → ct.toNat ≠ 6 →
    let old := ctRead i k ct.toNat s.chip
    let v := getV k x
    exec (.ctwr i x ct imm) s = completes i (ctWrite k ct.toNat v) 1 s ∧
    exec (.ctset i x ct imm) s = completes i (ctWrite k ct.toNat (old ||| v)) 1 s ∧
    exec (.ctclr i x ct imm) s = completes i (ctWrite k ct.toNat (old &&& ~~~v)) 1 s) ∧
  -- ControlWriteValues
  (∀ (k : CoreSt) (v : Word),
    (∀ n, n ≤ 8 → n ≠ 4 → ctWrite k n v = k) ∧ ctWrite k 14 v = k ∧
    (∀ b, (ctWrite k 4 v).status.getLsbD b =
      (if b < 3 ∨ (statusBit k 4 = true ∧ (b = 3 ∨ b = 5)) then v.getLsbD b else k.status.getLsbD b)) ∧
    ctWrite k 9 v = { k with trapCause := v } ∧ ctWrite k 10 v = { k with trapPc := v } ∧ ctWrite k 11 v = { k with trapVal := v } ∧
    ctWrite k 12 v = { k with trapVec := BitVec.ofNat 64 (v.toNat / 4 * 4) } ∧ ctWrite k 13 v = { k with supSp := v } ∧
    ctWrite k 15 v = { k with irqEnable := v } ∧
    (∀ j, j < 16 → mapGet 0 (ctWrite k (16 + j) v).wrap j = v ∧
      ∀ l, l ≠ j → mapGet 0 (ctWrite k (16 + j) v).wrap l = mapGet 0 k.wrap l) ∧
    ctWrite k 32 v = { k with ptRoot := BitVec.ofNat 64 (v.toNat / 4096 * 4096) } ∧
    ctWrite k 33 v = { k with asid := BitVec.ofNat 64 (v.toNat % 65536) } ∧
    ctWrite k 35 v = { k with mmuCtrl := BitVec.ofNat 64 (v.toNat % 2) } ∧
    (∀ t, t ∈ (ctWrite k 34 v).tlb ↔ t ∈ k.tlb ∧
      ¬ (t.asid = k.asid.toNat % 65536 ∧ (v = 0 ∨ v.toNat / 2 ^ t.log2 = t.vaddr))))

/-- R206, R212, R217: TRAPI and BREAK trap with cause 0x10 and 0x11 and TRAP_VAL IMM10; ERET in supervisor mode restores `PRIV` from `PPRIV`, sets `IE`, exchanges P15 and SUP_SP on a return to user mode, and goes on at TRAP_PC; WFI waits while no enabled interrupt is pending; ERET and WFI in user mode trap with 0x0B. A Churn core lacks the four (0x01; the model's reading, log entry 22). R216: trap entry on a Wayside core or the Steward. The trap registers are written, `PPRIV` takes `PRIV`, `PRIV` becomes 1, `IE` 0, P15 and SUP_SP are exchanged when the trap came from user mode, execution goes on at TRAP_VEC, and nothing else of the block changes. R214: a trap on a Churn core ends execution. RUN_STATE becomes TRAPPED (4), the page records cause and address and sets `TRAP` (bit 6); registers, memory and the other cores are as before. -/
def Obligations.Traps : Prop :=
  -- TrapInstructions
  (∀ (i : CoreId) (s : State) (k : CoreSt) (x : Fin 16) (ct : BitVec 6) (imm : BitVec 10), atInstr i s.chip = some k →
    let word := fun (minor : Nat) => 0x30 * 2 ^ 26 + x.val * 2 ^ 22 + ct.toNat * 2 ^ 16 + imm.toNat * 2 ^ 6 + minor
    let pp := statusBit k 5
    let k1 := setStatus (setStatus k 4 pp) 3 true
    let back := if pp then k1 else { setP k1 15 k.supSp with supSp := getP k 15 }
    (isChurn i = false →
      exec (.trapi i x ct imm) s = traps i 0x10 imm.toNat k.pc s.chip s ∧
      exec (.brk i x ct imm) s = traps i 0x11 imm.toNat k.pc s.chip s ∧
      (statusBit k 4 = true →
        exec (.eret i x ct imm) s = goesOn i back k.trapPc.toNat 1 s.chip s ∧
        exec (.wfi i x ct imm) s = goesOn i { k with wfi := decide (k.irqPending &&& k.irqEnable = 0) } (k.pc + 4) 1 s.chip s) ∧
      (statusBit k 4 = false →
        exec (.eret i x ct imm) s = traps i 0x0B (word 0x18) k.pc s.chip s ∧
        exec (.wfi i x ct imm) s = traps i 0x0B (word 0x19) k.pc s.chip s)) ∧
    (isChurn i = true →
      exec (.trapi i x ct imm) s = traps i 0x01 (word 0x10) k.pc s.chip s ∧
      exec (.brk i x ct imm) s = traps i 0x01 (word 0x11) k.pc s.chip s ∧
      exec (.eret i x ct imm) s = traps i 0x01 (word 0x18) k.pc s.chip s ∧
      exec (.wfi i x ct imm) s = traps i 0x01 (word 0x19) k.pc s.chip s)) ∧
  -- TrapEntrySupervisor
  (∀ (i : CoreId) (cause val pc : Nat) (c : Chip), isChurn i = false →
    let k := getCore i c
    let k' := getCore i (trapEntry i cause val pc c)
    k'.trapCause = BitVec.ofNat 64 cause ∧ k'.trapPc = BitVec.ofNat 64 pc ∧ k'.trapVal = BitVec.ofNat 64 val ∧
    (∀ b, k'.status.getLsbD b =
      (if b = 5 then statusBit k 4 else if b = 4 then true else if b = 3 then false else k.status.getLsbD b)) ∧
    (statusBit k 4 = false → getP k' 15 = k.supSp ∧ k'.supSp = getP k 15) ∧
    (statusBit k 4 = true → getP k' 15 = getP k 15 ∧ k'.supSp = k.supSp) ∧
    (∀ r, r ≠ 15 → getP k' r = getP k r) ∧
    k'.pc = k.trapVec.toNat / 4 * 4 ∧ k'.v = k.v ∧ k'.acc = k.acc ∧ k'.wrap = k.wrap ∧
    (∀ j, j ≠ i → getCore j (trapEntry i cause val pc c) = getCore j c) ∧
    (trapEntry i cause val pc c).regs = c.regs ∧ (trapEntry i cause val pc c).mem = c.mem) ∧
  -- TrapEntryChurn
  (∀ (n : Fin 336) (cause val pc : Nat) (c : Chip), cause < 256 → pc < 0x10000 →
    let t := trapEntry (.churn n) cause val pc c
    rd (Reg.CC_RUN_STATE n.val) t = 4 ∧ rd (Reg.CC_TRAP_CAUSE n.val) t = cause ∧ rd (Reg.CC_TRAP_PC n.val) t = pc ∧
    (rd (Hdr.ERR_STATUS (0x2000 + n.val)) t).testBit 6 = true ∧ t.mem = c.mem ∧
    (getCore (.churn n) t).v = (getCore (.churn n) c).v ∧ (getCore (.churn n) t).p = (getCore (.churn n) c).p ∧
    (getCore (.churn n) t).acc = (getCore (.churn n) c).acc ∧ (getCore (.churn n) t).pc = (getCore (.churn n) c).pc ∧
    (∀ j, j ≠ .churn n → getCore j t = getCore j c))

/-- R216, R218: an interrupt line of the Steward rises. It is pending; while it is enabled and `IE` is 1 it is taken at once with cause 0x80 and the line as TRAP_VAL (its pending bit clears: the model's choice, log entry 23), else it waits and ends WFI when enabled. An awake Wayside core likewise; a sleeping one holds it with a wake request (R796); a Churn core has no interrupts. R218: the boundary after an instruction. With `IE` 0 or nothing pending and enabled nothing happens; with `IE` 1 and one line pending and enabled, that interrupt is taken before the next instruction. R153, R162, R164, R172, R178, R206, R209: the event instructions of a Churn core with no tile operation running. HALT halts with its code, its PC on itself (the model's reading, log entry 46); WAIT takes a count already met, else the core is WAITING; WAIT.M and MARK hold the core to the Milestone edge. R28, R150, R165: SIGNAL pulses the line bound to its slot, or waits for the writes of the running tile operation; an unbound slot pulses nothing, and slots 4 to 7 are illegal (log entry 45). -/
def Obligations.InterruptsAndEvents : Prop :=
  -- Interrupts
  (∀ (i : CoreId) (s : State) (line : Nat), line < 64 →
    let k := getCore i s.chip
    let b := 1#64 <<< line
    (i = .steward ∨ (∃ w : Fin 24, i = .wayside w ∧ domAwake (357 + w.val) s.chip = true) →
      (k.irqEnable.getLsbD line = false → ∃ t, exec (.interrupt i line) s = .next t ∧ t.pending = s.pending ∧
        getCore i t.chip = { k with irqPending := k.irqPending ||| b }) ∧
      (k.irqEnable.getLsbD line = true → statusBit k 3 = false → ∃ t, exec (.interrupt i line) s = .next t ∧ t.pending = s.pending ∧
        getCore i t.chip = { k with irqPending := k.irqPending ||| b, wfi := false }) ∧
      (k.irqEnable.getLsbD line = true → statusBit k 3 = true → ∃ t, exec (.interrupt i line) s = .next t ∧ t.pending = s.pending ∧
        (getCore i t.chip).trapCause = 0x80 ∧ (getCore i t.chip).trapVal = BitVec.ofNat 64 line ∧
        (getCore i t.chip).trapPc = BitVec.ofNat 64 k.pc ∧ (getCore i t.chip).pc = k.trapVec.toNat / 4 * 4 ∧
        (getCore i t.chip).wfi = false ∧ statusBit (getCore i t.chip) 3 = false ∧ statusBit (getCore i t.chip) 4 = true ∧
        (getCore i t.chip).irqPending.getLsbD line = false)) ∧
    (∀ w : Fin 24, i = .wayside w → domAwake (357 + w.val) s.chip = false →
      exec (.interrupt i line) s = .next { s with chip := requestWake (357 + w.val) (.irq w.val line) s.chip }) ∧
    (isChurn i = true → exec (.interrupt i line) s = .next s)) ∧
  -- InterruptBoundary
  (∀ (i : CoreId) (c : Chip),
    let k := getCore i c
    (isChurn i = true ∨ statusBit k 3 = false ∨ k.irqPending &&& k.irqEnable = 0 → boundary i c = c) ∧
    (∀ line, line < 64 → isChurn i = false → statusBit k 3 = true → k.irqPending &&& k.irqEnable = 1#64 <<< line →
      let k' := getCore i (boundary i c)
      k'.trapCause = 0x80 ∧ k'.trapVal = BitVec.ofNat 64 line ∧ k'.trapPc = BitVec.ofNat 64 k.pc ∧ k'.pc = k.trapVec.toNat / 4 * 4 ∧
      statusBit k' 3 = false)) ∧
  -- EventInstructions
  (∀ (n : Fin 336) (s : State) (k : CoreSt) (x : Fin 16) (slot : BitVec 3) (imm : BitVec 16),
    let i := CoreId.churn n
    atInstr i s.chip = some k → (getCore i s.chip).tile = none →
    let got := rd (Reg.CC_IN_COUNT n.val slot.toNat) s.chip
    let op := fun (edge met : Bool) => ({ k with wait := some ⟨slot.toNat, imm.toNat, (getV k x).toNat, edge, met⟩ } : CoreSt)
    let taken := wr (Reg.CC_IN_COUNT n.val slot.toNat) (got - imm.toNat) s.chip
    (badTarget i k.pc = false → exec (.halt i x slot imm) s =
      goesOn i k k.pc 1 (wr (Reg.CC_HALT_CODE n.val) imm.toNat (wr (Reg.CC_RUN_STATE n.val) 3 s.chip)) s) ∧
    (nextWordOk i k → (imm.toNat ≤ got →
      exec (.wait i x slot imm) s = goesOn i (setStatus k 1 false) (k.pc + 4) 4 taken s ∧
      exec (.waitM i x slot imm) s = .next { s with chip := setCore i (op true true) taken }) ∧
    (got < imm.toNat →
      exec (.wait i x slot imm) s = .next { s with chip := setCore i (op false false) (wr (Reg.CC_RUN_STATE n.val) 2 s.chip) } ∧
      exec (.waitM i x slot imm) s = .next { s with chip := setCore i (op true false) (wr (Reg.CC_RUN_STATE n.val) 2 s.chip) }) ∧
    exec (.mark i x slot imm) s = .next { s with chip := setCore i { k with mark := true } s.chip }) ∧
    (badTarget i (k.pc + 4) = true →
      let traps1 := fun (op : Nat) => traps i 0x01 (0x31 * 2 ^ 26 + x.val * 2 ^ 22 + slot.toNat * 2 ^ 19 + imm.toNat * 2 ^ 3 + op) k.pc s.chip s
      exec (.wait i x slot imm) s = traps1 1 ∧ exec (.waitM i x slot imm) s = traps1 2 ∧ exec (.mark i x slot imm) s = traps1 4)) ∧
  -- Signal
  (∀ (n : Fin 336) (s : State) (k : CoreSt) (x : Fin 16) (slot : BitVec 3) (imm : BitVec 16),
    let i := CoreId.churn n
    let j := slot.toNat
    atInstr i s.chip = some k → nextWordOk i k →
    let bound := rd (Reg.CC_OUT_BOUND n.val j) s.chip = 1
    let line := rd (Reg.CC_OUT_LINE n.val j) s.chip
    (j < 4 → bound → k.tile = none → exec (.signal i x slot imm) s =
      .next { s with chip := pulse line (retire i 1 (setCore i { k with pc := k.pc + 4 } s.chip)) }) ∧
    (j < 4 → bound → k.tile.isSome = true → exec (.signal i x slot imm) s = completes i { k with sigs := k.sigs ++ [line] } 1 s) ∧
    (j < 4 → ¬ bound → exec (.signal i x slot imm) s = completes i k 1 s) ∧
    (4 ≤ j → exec (.signal i x slot imm) s =
      traps i 0x01 (0x31 * 2 ^ 26 + x.val * 2 ^ 22 + j * 2 ^ 19 + imm.toNat * 2 ^ 3 + 3) k.pc s.chip s))

/-- R206, R212, R224: atomics on 8 aligned bytes that the core reaches uncached by no page and not poisoned: Vx takes the old
value and memory the new one; a misaligned address traps with 0x07. -/
def Obligations.Atomics : Prop :=
  ∀ (i : CoreId) (s : State) (k k' : CoreSt) (x y z : Fin 16) (ps : List (Nat × Nat × Nat)),
    atInstr i s.chip = some k → nextWordOk i k → isChurn i = false →
    let a := (getP k y).toNat
    let v := getV k z
    let old : Word := BitVec.ofNat 64 (leNat (ldPieces ps s.chip))
    let gives := fun (new : Word) =>
      goesOn i (setV k' x old) (k.pc + 4) 1 (stPieces ps ((List.range 8).map fun j => new.toNat / 256 ^ j % 256) s.chip) s
    (a % 8 = 0 → locate i k .store a 8 s.chip = .at k' ps → piecesPoison ps s.chip = none →
      (∀ w q pa, i = .wayside w → translate k .store a s.chip = some (q, pa, true) → False) →
      exec (.amoadd i x y z) s = gives (old + v) ∧ exec (.amoswap i x y z) s = gives v ∧
      exec (.amoand i x y z) s = gives (old &&& v) ∧ exec (.amoor i x y z) s = gives (old ||| v) ∧
      (old = getV k x → exec (.cas i x y z) s = gives v) ∧
      (old ≠ getV k x → exec (.cas i x y z) s = goesOn i (setV k' x old) (k.pc + 4) 1 s.chip s)) ∧
    (a % 8 ≠ 0 → exec (.amoadd i x y z) s = traps i 0x07 a k.pc s.chip s ∧ exec (.amoswap i x y z) s = traps i 0x07 a k.pc s.chip s ∧
      exec (.amoand i x y z) s = traps i 0x07 a k.pc s.chip s ∧ exec (.amoor i x y z) s = traps i 0x07 a k.pc s.chip s ∧
      exec (.cas i x y z) s = traps i 0x07 a k.pc s.chip s)

/-- R152, R154, R215, R227: a tile operation whose formats, limits and operands are in order is issued in one cycle and runs
from then on with the parameters read at issue, for the cycles of R154 (what counts as an operand byte is the model's reading, log entry 47); one that is not traps at issue with its cause. -/
def Obligations.TileIssue : Prop :=
  ∀ (n : Fin 336) (s : State) (k : CoreSt) (sub : BitVec 6) (dn : Fin 16) (g : Bool),
    let i := CoreId.churn n
    atInstr i s.chip = some k → nextWordOk i k → (getCore i s.chip).tile = none → dn.val % 2 = 0 →
    let ptrs := (List.range 7).map fun j => (getP k (if g then 8 + j else j)).toNat
    let o := fun (major : Nat) => (⟨k.pc, major, sub.toNat, (getV k dn.val).toNat, (getV k (dn.val + 1)).toNat, ptrs, 0⟩ : TileOp)
    let begun := fun (major : Nat) =>
      completes i { k with tile := some { o major with endCycle := rd (Reg.CC_CYCLES n.val) s.chip + opCycles (o major) } } 1 s
    let word := fun (major : Nat) => major * 2 ^ 26 + sub.toNat * 2 ^ 20 + dn.val * 2 ^ 16 + (if g then 1 else 0) * 2 ^ 15
    let runs := fun (major : Nat) (c : Instr) => (issueCause (o major) = 0 → exec c s = begun major) ∧
      (issueCause (o major) ≠ 0 → exec c s = traps i (issueCause (o major)) (word major) k.pc s.chip s)
    runs 0x38 (.gemmBlock i sub dn g) ∧ runs 0x39 (.anchor i sub dn g) ∧ runs 0x3A (.vreduce i sub dn g) ∧
    runs 0x3B (.convert i sub dn g) ∧ runs 0x3C (.digest i sub dn g)

/-! ### Register pages (chapter 02) and Crossing (chapter 02) -/

/-- R59, R11, R12: 32-bit writes to the common header of a page with one, past its guard. BLK_ERR_ENABLE takes the value, BLK_ERR_STATUS clears the bits written 1, `CLEAR` sets the error count to 0; nothing else of the block changes. R55: a write of any width to a page that the page map does not have is dropped, and a 32-bit read of it returns 0. R52, R65, R77: an access that the rules turn away changes nothing but BLK_REFUSAL of its page: a write narrower than 32 bits or misaligned, code 0x02; a command to a guarded page by a party without its semaphore, code 0x07. R15, R16, R17: a 32-bit access to a 64-bit register. A write to the low word is held for the party and changes nothing else; the write to the high word that follows applies all 64 bits at once; a read of the low word loads the party's latch with the high word, and the read of the high word that follows returns the latch. -/
def Obligations.RegisterAccess : Prop :=
  -- HeaderWrites
  (∀ (s : State) (p : Party) (page v : Nat), hasHeader page = true → guardOk p page s.chip = true →
    exec (.registerWrite p page 0x18 32 v) s = becomes s (wr (Hdr.ERR_ENABLE page) v s.chip) ∧
    exec (.errCountClear p page) s = becomes s (wr (Hdr.ERR_COUNT page) 0 s.chip) ∧
    ∃ t, exec (.registerWrite p page 0x14 32 v) s = .next t ∧ t.pending = s.pending ∧ t.chip.mem = s.chip.mem ∧
      (∀ b, b < 32 → (rd (Hdr.ERR_STATUS page) t.chip).testBit b = ((rd (Hdr.ERR_STATUS page) s.chip).testBit b && !v.testBit b)) ∧
      onlyFields [Hdr.ERR_STATUS page] s.chip t.chip) ∧
  -- UnmappedPage
  (∀ (s : State) (p : Party) (page off v : Nat), hasHeader page = false → inRuleWindow page = false → pageState page s.chip = 0 → off < 0x1000 →
    (off % 4 = 0 → exec (.registerWrite p page off 32 v) s = becomes s s.chip) ∧
    (off % 8 = 0 → exec (.registerWrite p page off 64 v) s = becomes s s.chip) ∧
    (off % 4 = 0 → mapGet none s.chip.latch (partyIx p) = none →
      exec (.lowWordRead p page off) s = becomes s (emit (.readData p 0) s.chip))) ∧
  -- RegisterRefusals
  (∀ (s : State) (p : Party) (page off v : Nat) (on : Bool), hasHeader page = true →
    let refused := fun (code at' : Nat) => becomes s (wr (Hdr.REFUSAL_OFFSET page) at' (wr (Hdr.REFUSAL_CODE page) code s.chip))
    (off < 0x1000 → off % 4 ≠ 0 → exec (.registerWrite p page off 32 v) s = refused 0x02 off ∧ exec (.registerWrite p page off 64 v) s = refused 0x02 off) ∧
    (off < 0x1000 → exec (.registerWrite p page off 8 v) s = refused 0x02 off ∧ exec (.registerWrite p page off 16 v) s = refused 0x02 off) ∧
    (guardOk p page s.chip = false →
      exec (.enWritten1 p page v) s = refused 0x07 8 ∧ exec (.enWritten0 p page v) s = refused 0x07 8 ∧
      exec (.quiesceWrite p page on) s = refused 0x07 8 ∧ exec (.fenceWrite p page on) s = refused 0x07 8 ∧
      exec (.errCountClear p page) s = refused 0x07 0x28 ∧ exec (.registerWrite p page 0x18 32 v) s = refused 0x07 0x18)) ∧
  -- PendingWordAndLatch
  (∀ (s : State) (p : Party) (page off v lo hi : Nat), off + 4 < 0x1000 → off % 8 = 0 → sleeps page off s.chip = false →
    sleeps page (off + 4) s.chip = false → isLow page off = true → lowAlone page off = false → page ≠ 1 → page ≠ 0xB0 → let c := s.chip
    (∃ t, exec (.lowWordWrite p page off v) s = .next t ∧ t.pending = s.pending ∧ t.chip.regs = c.regs ∧ t.chip.mem = c.mem ∧
      mapGet none t.chip.pendLow (partyIx p) = some ⟨page, off, v % 2 ^ 32⟩ ∧
      ∀ k, k ≠ partyIx p → mapGet none t.chip.pendLow k = mapGet none c.pendLow k) ∧
    (isLow page (off + 4) = false → mapGet none c.pendLow (partyIx p) = some ⟨page, off, lo⟩ →
      exec (.registerWrite p page (off + 4) 32 hi) s = becomes s (regPut p page off 8 (lo + 2 ^ 32 * (hi % 2 ^ 32))
        { c with pendLow := mapPut none c.pendLow (partyIx p) none })) ∧
    (∃ t, exec (.lowWordRead p page off) s = .next t ∧ t.pending = s.pending ∧ t.chip.regs = c.regs ∧ t.chip.mem = c.mem ∧
      t.chip.out = c.out ++ [.readData p (dwordFor p page off c)] ∧
      mapGet none t.chip.latch (partyIx p) = some ⟨page, off, dwordFor p page (off + 4) c⟩) ∧
    (isLow page (off + 4) = false → mapGet none c.latch (partyIx p) = some ⟨page, off, lo⟩ →
      ∃ t, exec (.lowWordRead p page (off + 4)) s = .next t ∧ t.chip.out = c.out ++ [.readData p lo] ∧ t.chip.regs = c.regs ∧
        mapGet none t.chip.latch (partyIx p) = none))

/-- R68, R77: `EN` written 1 on a page that is OFF or REFUSED starts the consistency check: CHECKING with `EN` 1, no refusal recorded, and the other fields of BLK_CTRL as written. R68, R76: the end of the consistency check. The first failing code, in the order of R76, refuses the page: REFUSED, `EN` 0, the code and offset recorded. With nothing failing and its domain awake the page reaches RUNNING with what its block does there, and goes on as `FENCE` and `QUIESCE` say (R897). A page that is not CHECKING is left alone. R76: the check fails exactly where something fails, and what it records comes first: no failure has a lower code, or the same code at a lower offset. -/
def Obligations.PageChecks : Prop :=
  -- EnableStarts
  (∀ (s : State) (p : Party) (page v : Nat), mayControl p page s.chip → pageState page s.chip = 0 ∨ pageState page s.chip = 3 →
    ∃ t, exec (.enWritten1 p page v) s = .next t ∧ t.pending = s.pending ∧ t.chip.mem = s.chip.mem ∧ t.chip.cores = s.chip.cores ∧
      rd (Hdr.STATE page) t.chip = 1 ∧ rd (Hdr.EN page) t.chip = 1 ∧
      rd (Hdr.REFUSAL_CODE page) t.chip = 0 ∧ rd (Hdr.REFUSAL_OFFSET page) t.chip = 0 ∧
      rd (Hdr.QUIESCE page) t.chip = v / 2 % 2 ∧ rd (Hdr.FENCE page) t.chip = v / 4 % 2 ∧ rd (Hdr.SLEEP_OK page) t.chip = v / 8 % 2 ∧
      rd (Hdr.DRV_MAJOR page) t.chip = v / 65536 % 65536 ∧
      onlyFields [Hdr.STATE page, Hdr.EN page, Hdr.REFUSAL_CODE page, Hdr.REFUSAL_OFFSET page, Hdr.QUIESCE page, Hdr.FENCE page,
        Hdr.SLEEP_OK page, Hdr.DRV_MAJOR page] s.chip t.chip) ∧
  -- CheckEnds
  (∀ (s : State) (page : Nat), let c := s.chip
    (pageState page c ≠ 1 → exec (.consistencyCheckEnd page) s = becomes s c) ∧
    (∀ code off, hasHeader page = true → pageState page c = 1 → pageCheck page c = some (code, off) →
      ∃ t, exec (.consistencyCheckEnd page) s = .next t ∧ t.pending = s.pending ∧ rd (Hdr.STATE page) t.chip = 3 ∧
        rd (Hdr.EN page) t.chip = 0 ∧ rd (Hdr.REFUSAL_CODE page) t.chip = code % 256 ∧ rd (Hdr.REFUSAL_OFFSET page) t.chip = off % 2 ^ 24 ∧
        onlyFields [Hdr.STATE page, Hdr.EN page, Hdr.REFUSAL_CODE page, Hdr.REFUSAL_OFFSET page] c t.chip) ∧
    (pageState page c = 1 → pageCheck page c = none → (pageDomain page = 0x1FF ∨ domAwake (pageDomain page) c = true) →
      exec (.consistencyCheckEnd page) s = becomes s (pageArrives page (onHook page (wr (Hdr.STATE page) 2 c))) ∧
      (blockType page = some 0x60 ∨ blockType page = some 0x79 ∨ blockType page = some 0x88 ∨ blockType page = some 0x90 →
        rdb (Hdr.FENCE page) c = false → rdb (Hdr.QUIESCE page) c = false →
        ∃ t, exec (.consistencyCheckEnd page) s = .next t ∧ rd (Hdr.STATE page) t.chip = 2 ∧ onlyFields [Hdr.STATE page] c t.chip))) ∧
  -- CheckOrder
  (∀ (page : Nat) (c : Chip),
    (pageCheck page c = none ↔ pageFailures page c = []) ∧
    (∀ e, pageCheck page c = some e → e ∈ pageFailures page c ∧
      ∀ f ∈ pageFailures page c, e.1 * 0x1000 + e.2 ≤ f.1 * 0x1000 + f.2))

/-- R68, R70, R71, R72, R897: `QUIESCE` turns RUNNING into DRAINING and back, `FENCE` fences a page that works, `EN` 0 drains it towards OFF with its outstanding work answered, and a drained page that holds nothing enters OFF. R78, R799: an access at 0x100 or above to a sleeping page waits with a wake request of the page's domain; where the wake is refused it is dropped with code 0x0A, and a read returns 0. Commands with a row of their own wait likewise. -/
def Obligations.PageStates : Prop :=
  -- PageStates
  (∀ (s : State) (p : Party) (page v : Nat), mayControl p page s.chip → let c := s.chip
    let low := fun (q f z : Nat) => wr (Hdr.SLEEP_OK page) z (wr (Hdr.FENCE page) f (wr (Hdr.QUIESCE page) q c))
    (rd (Hdr.EN page) c = 1 → rd (Hdr.FENCE page) c = 0 → rd (Hdr.QUIESCE page) c = 0 → pageState page c = 2 →
      exec (.quiesceWrite p page true) s = becomes s (wr (Hdr.STATE page) 5 (low 1 0 (rd (Hdr.SLEEP_OK page) c))) ∧
      exec (.fenceWrite p page true) s = becomes s (fencePage page (low 0 1 (rd (Hdr.SLEEP_OK page) c)))) ∧
    (rd (Hdr.EN page) c = 1 → rd (Hdr.FENCE page) c = 0 → rd (Hdr.QUIESCE page) c ≤ 1 → pageState page c = 5 →
      exec (.quiesceWrite p page false) s = becomes s (wr (Hdr.STATE page) 2 (low 0 0 (rd (Hdr.SLEEP_OK page) c)))) ∧
    (pageState page c = 2 ∨ pageState page c = 4 → rdb Reg.RST_SAFE_STATE c = false →
      exec (.enWritten0 p page v) s =
        becomes s (pageAnswer false page (wr (Hdr.STATE page) 5 (wr (Hdr.EN page) 0 (low (v / 2 % 2) (v / 4 % 2) (v / 8 % 2)))))) ∧
    (pageState page c = 5 → rd (Hdr.EN page) c = 0 → pageIdle page c = true → exec (.drainToOff page) s = becomes s (pageOff false page c)) ∧
    (pageState page c ≠ 5 → exec (.drainToOff page) s = becomes s c)) ∧
  -- SleepingPage
  (∀ (s : State) (p : Party) (page off : Nat) (w : Option Nat), 0x100 ≤ off → off < 0x1000 → off % 4 = 0 → pageState page s.chip = 6 → inRuleWindow page = false →
    let c := s.chip
    let d := pageDomain page
    (wakeRefusal d .work c = 0 → ∃ t, exec (.asleepPageAccess p page off w) s = .next t ∧ t.pending = s.pending ∧ t.chip.regs = c.regs ∧
      t.chip.wakes = c.wakes ++ [⟨d, .access p page off 32 (w.map (· % 2 ^ 32)), 0⟩]) ∧
    (wakeRefusal d .work c ≠ 0 → ∃ t, exec (.asleepPageAccess p page off w) s = .next t ∧ t.pending = s.pending ∧ t.chip.wakes = c.wakes ∧
      (hasHeader page = true → rd (Hdr.REFUSAL_CODE page) t.chip = 0x0A ∧ rd (Hdr.REFUSAL_OFFSET page) t.chip = off) ∧
      (w = none → (.readData p 0) ∈ t.chip.out)))

/-- R84–R86, R89: a read of a free semaphore by one party that can hold it grants it: `OWNER` names the party, `SEQUENCE` advances, and the read returns `MINE` with the new values; a read of a held one changes nothing but the reader's latch; the holder's write of 0 frees it, and any other write is dropped with code 0x03. R89: two host ports that read a free semaphore in one fabric cycle: the port that lost the previous tie is granted it; the Steward goes before both. R88: CRS_BREAK of the Steward on a held semaphore abandons it; on a free one it does nothing; a number above 63 is refused with 0x04 and any other party with 0x03. R37–R40: a channel of HBM or Cellar given to another activity, past the guard. A reserved activity is refused with 0x20, one whose pages do not let go with 0x21; else `ACTIVITY` changes and the channel is being zeroed. The end of the scrub clears `SCRUBBING` with every byte of the channel 0. -/
def Obligations.Semaphores : Prop :=
  -- Semaphores
  (∀ (s : State) (p : Party) (n : Fin 64) (k v : Nat), semCode p = some k → let c := s.chip
    let o := rd (Reg.CRS_OWNER n.val) c
    let q := rd (Reg.CRS_SEQUENCE n.val) c
    (o = 0 → (∀ x ∈ c.semAbandoned, x / 4 ≠ n.val) →
      ∃ t, exec (.semaphoreRead n [p] true) s = .next t ∧ t.pending = s.pending ∧ rd (Reg.CRS_OWNER n.val) t.chip = k ∧
        rd (Reg.CRS_SEQUENCE n.val) t.chip = (q + 1) % 2 ^ 16 ∧ t.chip.out = c.out ++ [.readData p (1 + 4 * k + 2 ^ 16 * ((q + 1) % 2 ^ 16))] ∧
        onlyFields [Reg.CRS_OWNER n.val, Reg.CRS_SEQUENCE n.val] c t.chip) ∧
    (o ≠ 0 → exec (.semaphoreRead n [p] true) s =
      becomes s (emit (.readData p ((if o = k then 1 else 0) + 4 * o + 2 ^ 16 * q)) c)) ∧
    (o = k → exec (.semaphoreRelease p n 0 true) s = becomes s (wr (Reg.CRS_OWNER n.val) 0 c)) ∧
    (o ≠ k ∨ v % 2 ^ 64 ≠ 0 → exec (.semaphoreRelease p n v true) s = becomes s (refuse 1 0x03 (0x100 + 8 * n.val) c))) ∧
  -- SemaphoreTies
  (∀ (s : State) (n : Fin 64), rd (Reg.CRS_OWNER n.val) s.chip = 0 → s.chip.hostTie < 2 → (∀ x ∈ s.chip.semAbandoned, x / 4 ≠ n.val) →
    (∃ t, exec (.semaphoreRead n [.host 0, .host 1] true) s = .next t ∧ rd (Reg.CRS_OWNER n.val) t.chip = 1 + s.chip.hostTie ∧
      t.chip.hostTie = 1 - s.chip.hostTie) ∧
    (∃ t, exec (.semaphoreRead n [.host 0, .steward, .host 1] true) s = .next t ∧ rd (Reg.CRS_OWNER n.val) t.chip = 3 ∧
      t.chip.hostTie = s.chip.hostTie)) ∧
  -- CrossingBreak
  (∀ (s : State) (p : Party) (v : Nat), v < 2 ^ 32 → let c := s.chip
    (v < 64 → rd (Reg.CRS_OWNER v) c ≠ 0 → exec (.crsBreak .steward v) s = becomes s (semAbandon v c)) ∧
    (v < 64 → rd (Reg.CRS_OWNER v) c = 0 → exec (.crsBreak .steward v) s = becomes s c) ∧
    (64 ≤ v → exec (.crsBreak .steward v) s = becomes s (refuse 1 0x04 0x300 c)) ∧
    (p ≠ .steward → exec (.crsBreak p v) s = becomes s (refuse 1 0x03 0x300 c))) ∧
  -- ChannelOwners
  (∀ (s : State) (p : Party) (m : Fin 7) (n : Fin 64) (v : Nat), m.val = 6 ∨ n.val < 32 → let c := s.chip
    let page := 0xA0 + m.val
    let off := 0x100 + 4 * n.val
    let old := rd (Reg.MEM_ACTIVITY m.val n.val) c
    let a := v % 16
    (reaches p page c → a ≠ old → (a = 1 → m.val < 6 → vatChannels c < 142) →
      (12 ≤ a → exec (.chOwnerWrite p m n v) s = becomes s (refuse page 0x20 off c)) ∧
      (a < 12 → actQuiet old m.val n.val c = false ∨ actQuiet a m.val n.val c = false →
        exec (.chOwnerWrite p m n v) s = becomes s (refuse page 0x21 off c)) ∧
      (a < 12 → actQuiet old m.val n.val c = true → actQuiet a m.val n.val c = true →
        exec (.chOwnerWrite p m n v) s = becomes s (wr (Reg.MEM_SCRUBBING m.val n.val) 1 (wr (Reg.MEM_ACTIVITY m.val n.val) a c)))) ∧
    (reaches p page c → a = old → exec (.chOwnerWrite p m n v) s = becomes s c) ∧
    (rdb (Reg.MEM_SCRUBBING m.val n.val) c = false → exec (.scrubComplete m n) s = becomes s c) ∧
    (rdb (Reg.MEM_SCRUBBING m.val n.val) c = true → rd Reg.LBY_JOB_STATE c ≠ 4 →
      ∃ t, exec (.scrubComplete m n) s = .next t ∧ t.pending = s.pending ∧ rd (Reg.MEM_SCRUBBING m.val n.val) t.chip = 0 ∧
        onlyFields [Reg.MEM_SCRUBBING m.val n.val] c t.chip ∧
        ∀ x, (channelRange m.val n.val).1 ≤ x → x < (channelRange m.val n.val).1 + (channelRange m.val n.val).2 → ld8 spDev x t.chip = 0))

/-! ### Churn cores (chapter 04) -/

/-- R170, R172, R173: `START` from STOPPED, HALTED or TRAPPED on a RUNNING page zeroes every register and counter and executes from `ENTRY`; `STOP` of an executing or waiting core with no tile operation running stops it; both bits, or a state that does not take the bit, are refused with 0x23. R148, R149: bytes written through the aperture to a member's instruction memory: taken while its core does not execute, dropped with `IMEM_DROP` while it does, dropped while it is fenced; member 0xFFF names every core of the pool. -/
def Obligations.RunControl : Prop :=
  -- RunControl
  (∀ (s : State) (p : Party) (n : Fin 336) (v : Nat), let c := s.chip
    let page := 0x2000 + n.val
    let r := rd (Reg.CC_RUN_STATE n.val) c
    let k := getCore (.churn n) c
    let bad := becomes s (refuse page 0x23 0x104 c)
    reaches p page c →
    (v.testBit 9 = false → pageState page c = 2 → r = 0 ∨ r = 3 ∨ r = 4 →
      exec (.start p n v) s = becomes s (wr (Reg.CC_RUN_STATE n.val) 1 (wr (Reg.CC_MARK_COUNT n.val) 0 (wr (Reg.CC_RETIRED n.val) 0
        (wr (Reg.CC_CYCLES n.val) 0 (setCore (.churn n) { CoreSt.reset with pc := 4 * rd (Reg.CC_ENTRY n.val) c } c)))))) ∧
    (v.testBit 8 = false → r = 1 ∨ r = 2 → k.tile = none →
      exec (.stop p n v) s = becomes s (wr (Reg.CC_RUN_STATE n.val) 0 (setCore (.churn n) { k with wait := none, mark := false } c))) ∧
    (v.testBit 9 = true ∨ r = 1 ∨ r = 2 ∨ 5 ≤ r ∨ pageState page c ≠ 2 → exec (.start p n v) s = bad) ∧
    (v.testBit 8 = true ∨ r = 0 ∨ 3 ≤ r → exec (.stop p n v) s = bad)) ∧
  -- InstructionMemory
  (∀ (s : State) (pool member off : Nat) (n : Nat) (data : List Nat), pool < 32 → member < 0xFFF → 0 < data.length → off + data.length ≤ 0x10000 →
    let c := s.chip
    (coreOfMember pool member c = some n → pageState (0x2000 + n) c ≠ 4 →
      (imemTakes n c = true → exec (.imemWrite pool member off data) s = becomes s (put (spImem n) off data c)) ∧
      (imemTakes n c = false → exec (.imemWrite pool member off data) s = becomes s (raise (0x2000 + n) 0x0109 0 c))) ∧
    (coreOfMember pool member c = some n → pageState (0x2000 + n) c = 4 → exec (.imemWrite pool member off data) s = becomes s c) ∧
    exec (.imemWrite pool 0xFFF off data) s =
      becomes s ((poolCores pool c).foldl (fun c n => imemWriteTo n (put (spImem n) off data) c) c))

/-- R169, R180, R181, R832: a fault of a working core is recorded with its code and severity UNCORRECTED and the core's member reissued; a scratchpad fault also poisons its line; the watchdog acts while its limit is set and the core runs. R181 step 5: the spare chosen for a failed core is the lowest-numbered in its cluster, else the lowest-numbered on its die, else the lowest-numbered anywhere; none is chosen only when no spare is left. R181, R182, R185: a member goes to spare `m`: the failed core is set in `FAILED` and the disabled-unit map and leaves its pool, the spare joins it and leaves the map, the number of spares falls by one, CHN records the reissue, and the member waits for its replacement. R172, R181, R183: the replacement of a member stands HELD on a RUNNING page once its core is awake; the owner's write of CHN 0x10C releases the member it names; a held member that is released, or whose pool restarts by itself, executes from the next Milestone edge. -/
def Obligations.CoreReplacement : Prop :=
  -- CoreFaults
  (∀ (s : State) (n : Fin 336) (addr : Nat), let c := s.chip
    let page := 0x2000 + n.val
    let fault := fun (code : Nat) (c : Chip) => coreReissue n code (raise page code 2 c)
    exec (.coreFault n .spadUncorr addr) s =
      becomes s (fault 0x0102 (poisonRange (spSpad n.val) (alignDown (addr % 0x100000) 64) 64 c)) ∧
    exec (.coreFault n .imemParity addr) s = becomes s (fault 0x0103 c) ∧
    exec (.coreFault n .tileParity addr) s = becomes s (fault 0x0104 c) ∧
    (rd (Reg.CC_WDOG_LIMIT n.val) c ≠ 0 → rd (Reg.CC_RUN_STATE n.val) c = 1 ∨ rd (Reg.CC_RUN_STATE n.val) c = 2 →
      exec (.coreWatchdog n) s = becomes s (fault 0x0105 c)) ∧
    (rd (Reg.CC_WDOG_LIMIT n.val) c = 0 ∨ (rd (Reg.CC_RUN_STATE n.val) c ≠ 1 ∧ rd (Reg.CC_RUN_STATE n.val) c ≠ 2) →
      exec (.coreWatchdog n) s = becomes s c)) ∧
  -- SpareChoice
  (∀ (n : Nat) (c : Chip),
    (chooseSpare n c = none ↔ ∀ m, m < 336 → isSpare m c = false) ∧
    (∀ m, chooseSpare n c = some m → m < 336 ∧ isSpare m c = true ∧
      ∀ j, j < 336 → isSpare j c = true →
        (j / 16 = n / 16 → m / 16 = n / 16 ∧ m ≤ j) ∧
        (m / 16 ≠ n / 16 → dieOf j = dieOf n → dieOf m = dieOf n ∧ m ≤ j) ∧
        (m / 16 ≠ n / 16 → dieOf m ≠ dieOf n → m ≤ j))) ∧
  -- MemberReissued
  (∀ (n m pool member : Nat) (c : Chip), n < 336 → pool < 32 → member < 512 → isDisabled n c = false → chooseSpare n c = some m →
    let t := reissueMember n pool member c
    isFailedCore n t = true ∧ isDisabled n t = true ∧ isDisabled m t = false ∧
    rd (Reg.CHN_POOL_OF n) t = 0xFF ∧ rd (Reg.CHN_POOL_OF m) t = pool ∧
    rd Reg.CHN_FAILED_CORE t = n ∧ rd Reg.CHN_REPLACEMENT t = m ∧ rd Reg.CHN_REISSUE_POOL t = pool ∧ rd Reg.CHN_REISSUE_MEMBER t = member ∧
    t.reissues = c.reissues ++ [⟨n, m, false, false⟩] ∧ t.mem = c.mem ∧ t.cores = c.cores ∧
    (∀ j, j < 336 → j ≠ n → j ≠ m → isDisabled j t = isDisabled j c ∧ isFailedCore j t = isFailedCore j c ∧
      rd (Reg.CHN_POOL_OF j) t = rd (Reg.CHN_POOL_OF j) c)) ∧
  -- Replacements
  (∀ (s : State) (p : Party) (n : Fin 336) (v : Nat) (r : Reissue), let c := s.chip
    (c.reissues.find? (fun x => x.repl == n.val && !x.ready) = some r → domAwake n.val c = true →
      ∃ t, exec (.replacementReady n) s = .next t ∧ t.pending = s.pending ∧ rd (Reg.CC_RUN_STATE n.val) t.chip = 5 ∧
        rd (Hdr.STATE (0x2000 + n.val)) t.chip = 2 ∧ rd (Hdr.EN (0x2000 + n.val)) t.chip = 1 ∧
        t.chip.reissues = c.reissues.map fun x => if x.repl = n.val then { x with ready := true } else x) ∧
    let named := fun x : Reissue => rd (Reg.CC_POOL x.repl) c = v % 32 ∧ rd (Reg.CC_MEMBER x.repl) c = v / 256 % 512 ∧ x.ready = true
    (reaches p 0x60 c → exec (.memberRestartCmd p v) s =
      becomes s { c with reissues := c.reissues.map fun x => if named x then { x with released := true } else x }) ∧
    (rd (Reg.CC_RUN_STATE n.val) c = 5 → r ∈ c.reissues → r.repl = n.val → r.ready = true →
      r.released = true ∨ rd (Reg.CHN_AUTO_RESTART (rd (Reg.CC_POOL n.val) c)) c = 1 →
      exec (.memberRestart n) s = becomes s { wr (Reg.CC_RUN_STATE n.val) 1 c with reissues := c.reissues.filter fun x => x.repl != n.val }) ∧
    (rd (Reg.CC_RUN_STATE n.val) c ≠ 5 → exec (.memberRestart n) s = becomes s c))

/-- R152, R158, R159, R215, R231: the running tile operation of a core ends. Its result is written to the scratchpad and saturation sets `SAT`; a poisoned operand traps with 0x04 and a lane out of range with 0x06, at the operation's address, with nothing written. R162, R164: a wait ends when its slot holds the count, which is subtracted, with `WAITF` 0; or at its timeout, with `WAITF` 1 and nothing subtracted. WAIT.M goes on waiting for the Milestone edge. The tile cycles that a wait without a timeout took are a free value (the model's choice, log entry 1). -/
def Obligations.WaitsEnd : Prop :=
  -- TileOperationEnds
  (∀ (s : State) (n : Fin 336) (o : TileOp) (addr : Nat), let c := s.chip
    let k := getCore (.churn n) c
    k.tile = some o → k.sigs = [] → o.pc < 0x10000 →
    let trapped := fun (cause : Nat) (t : State) => (getCore (.churn n) t.chip).tile = none ∧ rd (Reg.CC_RUN_STATE n.val) t.chip = 4 ∧
      rd (Reg.CC_TRAP_CAUSE n.val) t.chip = cause ∧ rd (Reg.CC_TRAP_PC n.val) t.chip = o.pc ∧ t.chip.mem = c.mem
    (opPoisoned n.val o c = false → (tileResult n.val o c).limit = false →
      ∃ t, exec (.tileOpEnd n) s = .next t ∧ t.pending = s.pending ∧ (getCore (.churn n) t.chip).tile = none ∧
        t.chip.mem = ((tileResult n.val o c).writes.foldl (fun c w => put (spSpad n.val) w.1 w.2 c) c).mem ∧
        statusBit (getCore (.churn n) t.chip) 0 = (statusBit k 0 || (tileResult n.val o c).sat) ∧
        (getCore (.churn n) t.chip).v = k.v ∧ (getCore (.churn n) t.chip).p = k.p ∧ t.chip.regs = c.regs) ∧
    (opPoisoned n.val o c = false → (tileResult n.val o c).limit = true → ∃ t, exec (.tileOpEnd n) s = .next t ∧ trapped 6 t) ∧
    (opPoisoned n.val o c = true → rd (Reg.CC_RUN_STATE n.val) c ≠ 2 → ∃ t, exec (.tileOpEnd n) s = .next t ∧ trapped 4 t) ∧
    (anyPoison (spSpad n.val) addr 1 c = true → rd (Reg.CC_RUN_STATE n.val) c = 1 →
      ∃ t, exec (.poisonTrap n addr) s = .next t ∧ t.pending = s.pending ∧ trapped 4 t)) ∧
  -- WaitsEnd
  (∀ (s : State) (n : Fin 336) (w : WaitOp), let c := s.chip
    let i := CoreId.churn n
    let k := getCore i c
    let got := rd (Reg.CC_IN_COUNT n.val w.slot) c
    let taken := wr (Reg.CC_IN_COUNT n.val w.slot) (got - w.count) c
    k.wait = some w → working (0x2000 + n.val) c = true → w.met = false →
    let resumed := fun (f : Bool) (t : State) => t.pending = s.pending ∧ rd (Reg.CC_RUN_STATE n.val) t.chip = 1 ∧
      getCore i t.chip = setStatus { k with wait := none, pc := k.pc + 4 } 1 f
    (w.count ≤ got → w.edge = true → exec (.waitEnd n) s = becomes s (setCore i { k with wait := some { w with met := true } } taken)) ∧
    (w.count ≤ got → w.edge = false → ∃ t, exec (.waitEnd n) s = .next t ∧ resumed false t ∧
      (w.slot < 8 → got < 2 ^ 16 → rd (Reg.CC_IN_COUNT n.val w.slot) t.chip = got - w.count)) ∧
    (got < w.count → exec (.waitEnd n) s = becomes s c) ∧
    (w.timeout ≠ 0 → ∃ t, exec (.waitTimeout n) s = .next t ∧ resumed true t ∧ (w.slot < 8 → rd (Reg.CC_IN_COUNT n.val w.slot) t.chip = got)) ∧
    (w.timeout = 0 → exec (.waitTimeout n) s = becomes s c))

/-! ### Movers (chapter 06) and the cipher engine (chapter 17) -/

/-- R241, R246–R248, R264–R269: the register commands of a Mover channel by its owner: `TAIL`; an enable, refused where the ring size is out of
range; a reset, which leaves the channel OFF with no descriptor and its counters 0; an abort of the running descriptor, which leaves it ABORTED
with `HEAD` on it; `RESUME`, which advances `HEAD`. A party that does not own the channel is refused with 0x03. -/
def Obligations.MoverChannels : Prop :=
  ∀ (s : State) (p : Party) (e : Fin 12) (n : Fin 64) (v : Nat), let c := s.chip
    let page := 0x50 + e.val
    let off := 0x400 + 0x20 * n.val
    let bad := fun (code at' : Nat) => becomes s (wr (Hdr.REFUSAL_OFFSET page) at' (wr (Hdr.REFUSAL_CODE page) code c))
    reaches p page c →
    (rd (Reg.MOV_OWNER e n) c = ownerCode p c →
      exec (.moverTail p e n v) s = becomes s (wr (Reg.MOV_TAIL e n) v c) ∧
      (rd (Reg.MOV_CH_STATE e n) c ≠ 5 → exec (.moverResume p e n) s = bad 0x23 (off + 8)) ∧
      (rd (Reg.MOV_CH_STATE e n) c = 5 → ∃ t, exec (.moverResume p e n) s = .next t ∧ t.pending = s.pending ∧
        rd (Reg.MOV_HEAD e n) t.chip = (rd (Reg.MOV_HEAD e n) c + 1) % 2 ^ 15 ∧ rd (Reg.MOV_CH_STATE e n) t.chip = 1 ∧
        (rd (Reg.MOV_ABORTED e) t.chip).testBit n = false ∧ t.chip.mem = c.mem ∧
        onlyFields [Reg.MOV_HEAD e n, Reg.MOV_CH_STATE e n, Reg.MOV_ACTIVE e, Reg.MOV_ABORTED e] c t.chip) ∧
      (rd (Reg.MOV_CH_EN e n) c = 0 → v % 2 = 1 → rd (Reg.MOV_BOUND0 e n) c = 0 → rd (Reg.MOV_BOUND1 e n) c = 0 →
        isStallCode (ownerCode p c) = true ∨ isHost p = true →
        (4 ≤ rd (Reg.MOV_LOG2_N e n) c → rd (Reg.MOV_LOG2_N e n) c ≤ 15 →
          ∃ t, exec (.chEnWrite p e n v) s = .next t ∧ t.pending = s.pending ∧ rd (Reg.MOV_CH_EN e n) t.chip = 1 ∧
            rd (Reg.MOV_CH_STATE e n) t.chip = 1 ∧ rd (Reg.MOV_PRIO_CAP e n) t.chip = v / 8 % 4 ∧ t.chip.mem = c.mem ∧
            onlyFields [Reg.MOV_CH_EN e n, Reg.MOV_CH_STATE e n, Reg.MOV_PRIO_CAP e n, Reg.MOV_ACTIVE e, Reg.MOV_ABORTED e] c t.chip) ∧
        (rd (Reg.MOV_LOG2_N e n) c < 4 → ∃ t, exec (.chEnWrite p e n v) s = .next t ∧ t.pending = s.pending ∧
          rd (Hdr.REFUSAL_CODE page) t.chip = 0x22 ∧ rd (Hdr.REFUSAL_OFFSET page) t.chip = off + 8 ∧ rd (Reg.MOV_CH_EN e n) t.chip = 0)) ∧
      (movStops e n c = false → exec (.moverAbort p e n v) s = becomes s c) ∧
      (∀ r, movRunOf e n c = some r → rd (Reg.MOV_OWNER e n) c ≠ 0x9001 →
        (r.len ≤ v → r.trail = false → exec (.moverAbort p e n v) s = becomes s c) ∧
        (v < r.len ∨ r.trail = true → ∃ t, exec (.moverAbort p e n v) s = .next t ∧ t.pending = s.pending ∧
          rd (Reg.MOV_CH_STATE e n) t.chip = 5 ∧ movRunOf e n t.chip = none ∧ (rd (Reg.MOV_ABORTED e) t.chip).testBit n = true ∧
          rd (Reg.MOV_HEAD e n) t.chip = rd (Reg.MOV_HEAD e n) c ∧ rd (Reg.MOV_DONE e n) t.chip = rd (Reg.MOV_DONE e n) c ∧
          (rd (Hdr.ERR_STATUS page) t.chip).testBit 0 = true))) ∧
    (rd (Reg.MOV_OWNER e n) c ≠ ownerCode p c →
      exec (.moverTail p e n v) s = bad 0x03 (off + 0x10) ∧ exec (.chEnWrite p e n v) s = bad 0x03 (off + 8) ∧
      exec (.moverAbort p e n v) s = bad 0x03 (off + 8) ∧ exec (.moverResume p e n) s = bad 0x03 (off + 8)) ∧
    (∃ t, exec (.channelReset p e n) s = .next t ∧ t.pending = s.pending ∧ movRunOf e n t.chip = none ∧ rd (Reg.MOV_CH_EN e n) t.chip = 0 ∧
      rd (Reg.MOV_CH_STATE e n) t.chip = 0 ∧ rd (Reg.MOV_HEAD e n) t.chip = 0 ∧ rd (Reg.MOV_TAIL e n) t.chip = 0 ∧ rd (Reg.MOV_DONE e n) t.chip = 0 ∧
      (movRunOf e n c = none → t.chip.mem = c.mem))

/-- R242–R244, R249, R257, R263–R266: a Mover descriptor. One of the channel's generation that is sound and whose path is free starts; one of another
generation is skipped; one that cannot be read leaves the channel ABORTED. A running one finishes with `DONE` and `HEAD` advanced, or is aborted by a read
error, the watchdog (while `WDOG_LIMIT` is not 0) or staging parity, which fences the engine. The descriptor on which an event acts is the model's own
reading (log entry 6). -/
def Obligations.MoverDescriptors : Prop :=
  ∀ (s : State) (e : Fin 12) (n : Fin 64) (w : Nat) (prog : List (Nat × Nat)), let c := s.chip
    let page := 0x50 + e.val
    let o := rd (Reg.MOV_OWNER e n) c
    let h := rd (Reg.MOV_HEAD e n) c
    let ready := running page c = true ∧ rd (Reg.MOV_CH_EN e n) c = 1 ∧ rd (Reg.MOV_CH_STATE e n) c = 1 ∧
      h ≠ rd (Reg.MOV_TAIL e n) c ∧ movMayStart o c = true
    let addr := rd (Reg.MOV_BASE e n) c * 4096 + 64 * (h % 2 ^ rd (Reg.MOV_LOG2_N e n) c)
    let b := readRange o addr 64 c
    let r0 := movParse addr b.1
    let r := { r0 with prio := max r0.prio (rd (Reg.MOV_PRIO_CAP e n) c) }
    let gen := leNat b.1 / 2 ^ 176 % 2 ^ 16
    let aborts := fun (i : Instr) => ∃ t, exec i s = .next t ∧ t.pending = s.pending ∧ movRunOf e n t.chip = none ∧
      rd (Reg.MOV_CH_STATE e n) t.chip = 5 ∧ rd (Reg.MOV_HEAD e n) t.chip = h ∧ rd (Reg.MOV_DONE e n) t.chip = rd (Reg.MOV_DONE e n) c ∧
      (rd (Hdr.ERR_STATUS page) t.chip).testBit 1 = true
    (ready → movRunOf e n c = none → aborts (.descriptorStart e n true) ∧ (b.2 = true → aborts (.descriptorStart e n false))) ∧
    (ready → b.2 = false → gen = rd (Reg.MOV_GEN e n) c → movBad e b.1 = false →
      let t := movState e n 2 (movSetRun e n (some r) c)
      movObstacle o r t = none → exec (.descriptorStart e n false) s = becomes s t) ∧
    (ready → b.2 = false → gen ≠ rd (Reg.MOV_GEN e n) c → ∃ t, exec (.descriptorStart e n false) s = .next t ∧ t.pending = s.pending ∧
      rd (Reg.MOV_HEAD e n) t.chip = (h + 1) % 2 ^ 15 ∧ rd (Reg.MOV_CH_STATE e n) t.chip = 1 ∧
      rd (Reg.MOV_DONE e n) t.chip = rd (Reg.MOV_DONE e n) c ∧ (rd (Hdr.ERR_STATUS page) t.chip).testBit 2 = true) ∧
    (running page c = false → exec (.descriptorStart e n false) s = becomes s c) ∧
    (∀ q, movRunOf e n c = some q → working page c = true →
      (movObstacle o q c = none → ∃ t, exec (.descriptorFinish e n) s = .next t ∧ t.pending = s.pending ∧ movRunOf e n t.chip = none ∧
        rd (Reg.MOV_CH_STATE e n) t.chip = 1 ∧ rd (Reg.MOV_HEAD e n) t.chip = (h + 1) % 2 ^ 15 ∧
        rd (Reg.MOV_DONE e n) t.chip = (rd (Reg.MOV_DONE e n) c + 1) % 2 ^ 32 ∧
        (movPoisoned o q.len q c = true → (rd (Hdr.ERR_STATUS page) t.chip).testBit 3 = true)) ∧
      (o ≠ 0x9001 → aborts (.moverReadError e n w)) ∧
      (o ≠ 0x9001 → rd (Reg.MOV_WDOG_LIMIT e) c ≠ 0 → aborts (.moverWatchdog e n w)) ∧
      (rd (Reg.MOV_WDOG_LIMIT e) c = 0 → exec (.moverWatchdog e n w) s = becomes s c) ∧
      (∃ t, exec (.stagingParity e n prog) s = .next t ∧ t.pending = s.pending ∧ (rd (Hdr.ERR_STATUS page) t.chip).testBit 4 = true)) ∧
    (movRunOf e n c = none → exec (.descriptorFinish e n) s = becomes s c)

/-- R669, R670, R673, R685–R689: key slots. A load by the page's owner puts the first 16, 32 or 64 `KEY_DATA` bytes of the writer's bank in the slot, zeroes
the bank and `USES`, clears `EXHAUSTED` and advances `KEY_GEN`; equal XTS halves fail with 0x03 and a load under an alarm with 0x05, the bank zeroed all the same;
type 0 empties the slot. `OWNER` is written by one who may while `EN` is 0. An alarm, from a detector or by ERASE_ALL, empties every slot of every page
and sets the latch, which only the Steward clears, once the sources are quiet. -/
def Obligations.KeySlots : Prop :=
  ∀ (s : State) (p : Party) (n : Fin 256) (v : Nat), let c := s.chip
    let page := 0x1000 + n.val
    let slot := v % 8
    let ty := v / 16 % 4
    let b := (bankOf p c).getD 0
    let kd := keyData b n c
    let clean := v / 8 % 2 = 0 ∧ v / 64 % 2 ^ 25 = 0
    let bad := fun (pg code at' : Nat) => becomes s (wr (Hdr.REFUSAL_OFFSET pg) at' (wr (Hdr.REFUSAL_CODE pg) code c))
    let zeroed := fun (t : State) => ∀ k, k < 64 → rdB b (Reg.KEY_KEY_DATA n k) t.chip = 0
    (reaches p page c → keyOwns p n c = true → clean → ty ≠ 0 →
      (rd Reg.CPH_ALARM_LATCH c ≠ 1 → (ty = 3 → kd.take 32 ≠ kd.drop 32) →
        ∃ t, exec (.keyLoad p n v) s = .next t ∧ t.pending = s.pending ∧ slotKey n slot t.chip = kd.take (if ty = 1 then 16 else if ty = 2 then 32 else 64) ∧
          slotState n slot t.chip = ty ∧ rd (Reg.KEY_USES n slot) t.chip = 0 ∧ slotGen n slot t.chip = (slotGen n slot c + 1) % 256 ∧
          rd (Reg.KEY_LD_RESULT n) t.chip = 0 ∧ zeroed t ∧ (∀ j, j ≠ 8 * n.val + slot → mapGet [] t.chip.keys j = mapGet [] c.keys j)) ∧
      (rd Reg.CPH_ALARM_LATCH c ≠ 1 → ty = 3 → kd.take 32 = kd.drop 32 → ∃ t, exec (.keyLoad p n v) s = .next t ∧ t.pending = s.pending ∧
        rd (Reg.KEY_LD_RESULT n) t.chip = 3 ∧ zeroed t ∧ t.chip.keys = c.keys ∧ slotState n slot t.chip = slotState n slot c) ∧
      (rd Reg.CPH_ALARM_LATCH c = 1 → ∃ t, exec (.keyLoad p n v) s = .next t ∧ t.pending = s.pending ∧
        rd (Reg.KEY_LD_RESULT n) t.chip = 5 ∧ zeroed t ∧ t.chip.keys = c.keys)) ∧
    (reaches p page c → keyOwns p n c = true → clean → rd Reg.CPH_ALARM_LATCH c ≠ 1 →
      ∃ t, exec (.keyErase p n v) s = .next t ∧ t.pending = s.pending ∧ slotKey n slot t.chip = [] ∧ slotState n slot t.chip = 0 ∧
        rd (Reg.KEY_LD_RESULT n) t.chip = 0 ∧ (∀ j, j ≠ 8 * n.val + slot → mapGet [] t.chip.keys j = mapGet [] c.keys j)) ∧
    (reaches p page c → keyOwns p n c = false → exec (.keyLoad p n v) s = bad page 0x03 0x110 ∧ exec (.keyErase p n v) s = bad page 0x03 0x110) ∧
    (reaches p page c →
      (keyOwnerBy p (v % 2 ^ 16) c = true → rd (Hdr.EN page) c = 0 → exec (.keyOwnerWrite p n v) s = becomes s (wr (Reg.KEY_OWNER n) v c)) ∧
      (keyOwnerBy p (v % 2 ^ 16) c = false ∨ rd (Hdr.EN page) c = 1 → exec (.keyOwnerWrite p n v) s = bad page 0x03 0x100)) ∧
    let alarmed := fun (src : Nat) (i : Instr) => ∃ t, exec i s = .next t ∧ t.pending = s.pending ∧ t.chip.keys = [] ∧
      (∀ m x, m < 256 → x < 8 → slotType m x t.chip = 0) ∧ rd Reg.CPH_ALARM_LATCH t.chip = 1 ∧
      (rd Reg.CPH_ALARM_CAUSE t.chip).testBit src = true ∧ rd Reg.CPH_ALARM_TIME t.chip = now c % 2 ^ 64
    alarmed 0 (.cipherAlarm .volt) ∧ alarmed 1 (.cipherAlarm .clk) ∧ alarmed 2 (.cipherAlarm .temp) ∧ alarmed 3 (.cipherAlarm .mesh) ∧
    (reaches p 0x88 c → (p = .steward ∨ (isHost p = true ∧ holdsSem p 0 c = true) → alarmed 4 (.eraseAll p)) ∧
      (p ≠ .steward → isHost p = false ∨ holdsSem p 0 c = false → exec (.eraseAll p) s = bad 0x88 0x03 0x104) ∧
      (p = .steward → exec (.alarmClear p true) s = becomes s (wr Reg.CPH_ALARM_CAUSE 0 (wr Reg.CPH_ALARM_LATCH 0 c))) ∧
      (p ≠ .steward → ∀ q, exec (.alarmClear p q) s = bad 0x88 0x03 0x104))

/-- R189, R234, R679, R684: CIPHER SUBMIT. On a Wayside core whose descriptor and buffers translate, DN takes the status and the bytes processed and DN + 1
takes 0; a breach of the descriptor's layout ends with status 1, an alarm with 8, a key page of another owner with 2. An odd DN or a nonzero `SUB` is
illegal, and another kind of core traps with 0x02. -/
def Obligations.CipherSubmit : Prop :=
  ∀ (i : CoreId) (s : State) (k k1 k2 : CoreSt) (sub : BitVec 6) (dn : Fin 16) (g : Bool) (db : List (Option (Nat × Nat) × Nat))
    (bufs : List (List (Option (Nat × Nat) × Nat))), atInstr i s.chip = some k → let c := s.chip
    let word := 0x3D * 2 ^ 26 + sub.toNat * 2 ^ 20 + dn.val * 2 ^ 16 + (if g then 1 else 0) * 2 ^ 15
    let a := (getP k (if g then 8 else 0)).toNat
    let b := cphRead c db
    let d := cphParse b.1
    let ends := fun (kk : CoreSt) (r : Nat × Chip) =>
      goesOn i (setV (setV kk dn (BitVec.ofNat 64 r.1)) (dn.val + 1) 0) (k.pc + 4) 1 r.2 s
    ((∀ w, i ≠ .wayside w) → exec (.cipherSubmit i sub dn g) s = traps i 0x02 word k.pc c s) ∧
    (∀ w : Fin 24, i = .wayside w →
      (dn.val % 2 = 1 ∨ sub ≠ 0 → exec (.cipherSubmit i sub dn g) s = traps i 0x01 word k.pc c s) ∧
      (dn.val % 2 = 0 → sub = 0 → nextWordOk i k → cphPlaces i c [(.load, a, 64)] k [] = .inl (k1, [db]) →
        (b.2 = true → exec (.cipherSubmit i sub dn g) s = traps i 0x04 (a / 64 * 64) k.pc c s) ∧
        (b.2 = false → d.bad = true ∨ a % 64 ≠ 0 → exec (.cipherSubmit i sub dn g) s = ends k1 (1, bump (Reg.CPH_CTR 3) 1 c)) ∧
        (b.2 = false → d.bad = false → a % 64 = 0 → cphPlaces i c (cphBufs d) k1 [] = .inl (k2, bufs) →
          let image := (imageOf w.val c).getD 0
          let r := cphChecked d image bufs c
          exec (.cipherSubmit i sub dn g) s = ends k2 r ∧
          (rd Reg.CPH_ALARM_LATCH c = 1 → r = (8, bump (Reg.CPH_CTR 3) 1 c)) ∧
          (rd Reg.CPH_ALARM_LATCH c ≠ 1 → rd (Reg.KEY_OWNER d.page) c ≠ 0xB000 + image → r = (2, bump (Reg.CPH_CTR 3) 1 c)))))

/-! ### Ahnam: delivery (chapter 07) and operations (chapter 08) -/

/-- R279, R287–R289, R300–R305: sending. The next packet of an unprotected message to a destination with an agreed version and room in its window leaves on the
destination's path slot with the next transmission number, read from the source as it is now; a packet answered `BUSY` is sent again likewise. An ACK of a
transmission in flight removes it and counts its packet; an unknown one changes nothing. A transmission that times out is sent again, and its message
fails after the eighth. -/
def Obligations.AhnamSends : Prop :=
  ∀ (s : State) (m : TxMsg) (d : AhnDest) (off tsn : Nat) (f : Flight) (e : AckEntry), let c := s.chip
    let n := min (payloadMax c) (m.len - off)
    let open' := working 0x40 c = true ∧ txMsgOf m.id c = some m ∧ getDest m.dev c = some d ∧ d.bad = false ∧ d.ver ≠ 0 ∧ opcodeVersion m.opcode ≤ d.ver ∧
      m.prot = none ∧ inFlight m.dev c < destLimit d c ∧ c.flights.length < 262144 ∧ (msgBytes m off n c).2 = false
    let leaves := fun (retx : Bool) (i : Instr) => ∃ t, exec i s = .next t ∧ t.pending = s.pending ∧ t.chip.tsnNext = (c.tsnNext + 1) % 2 ^ 32 ∧
      t.chip.flights = c.flights ++ [⟨c.tsnNext, d.ptr, now c, [], m.dev, m.id, off, n, 0, 0⟩] ∧
      (∃ d', getDest m.dev t.chip = some d' ∧ d'.ptr = (d.ptr + 1) % 64) ∧ rd (Reg.AHN_CTR 0) t.chip = (rd (Reg.AHN_CTR 0) c + 1) % 2 ^ 64 ∧
      ∃ p, t.chip.txWait = c.txWait ++ [⟨ahnPortOf d.ptr c, rd Reg.TOL_AHN_CLASS c, ahnFrameLen (64 + p.payload.length) c, none, none, .data (addrIp m.dev c) p⟩] ∧
        p.payload = (msgBytes m off n c).1 ∧ p.msgId = m.id ∧ p.offset = off ∧ p.tsn = c.tsnNext ∧ p.seq = m.seq ∧ p.path = d.ptr ∧ p.retx = retx ∧
        p.tail = decide (m.len ≤ off + n) ∧ p.auth = []
    (open' → off = m.next → m.next < m.len → c.quiet = false → leaves false (.packetSend m.id)) ∧
    (open' → off ∈ m.busy → leaves true (.busyResend m.id off)) ∧
    (c.quiet = true → exec (.packetSend m.id) s = becomes s c) ∧
    (off ∉ m.busy → txMsgOf m.id c = some m → exec (.busyResend m.id off) s = becomes s c) ∧
    (working 0x40 c = true → c.flights = [f] →
      (flightSent f e.tsn = none → exec (.ackReceive f.dev [e]) s = becomes s c) ∧
      (flightSent f e.tsn ≠ none → ∃ t, exec (.ackReceive f.dev [e]) s = .next t ∧ t.pending = s.pending ∧ t.chip.flights = [] ∧
        (e.busy = false → txMsgOf f.msg c = some m → allAcked { m with acked := setAdd m.acked f.offset } c = false →
          txMsgOf f.msg t.chip = some { m with acked := setAdd m.acked f.offset }))) ∧
    (working 0x40 c = true → c.flights.find? (fun x => x.tsn == tsn) = some f → txMsgOf f.msg c = some m →
      (f.retry = 7 → ∃ t, exec (.retransmitTimeout tsn) s = .next t ∧ t.pending = s.pending ∧ (rd (Hdr.ERR_STATUS 0x40) t.chip).testBit 3 = true) ∧
      (f.retry ≠ 7 → m.prot = none → getDest m.dev c = some d → f.offset = off → (msgBytes m off n c).2 = false →
        ∃ t, exec (.retransmitTimeout tsn) s = .next t ∧ t.pending = s.pending ∧ t.chip.tsnNext = (c.tsnNext + 1) % 2 ^ 32 ∧
          rd (Reg.AHN_CTR 2) t.chip = (rd (Reg.AHN_CTR 2) c + 1) % 2 ^ 64 ∧ t.chip.flights.length = c.flights.length ∧
          t.chip.txWait.length = c.txWait.length + 1))

/-- R274, R276, R278, R285, R291–R293, R299, R313, R314, R318–R323: receiving. A DATA packet that fails the header checks is dropped with its error; one of a message
already delivered is answered as a duplicate; a fresh packet of a WRITE in reassembly is placed at its region's address plus its offset and acknowledged. A whole message next
on its stream is delivered once; the flag of a WRITE_FLAG is written after it. HELLO is answered with versions 1 to 3, and a HELLO_REPLY agrees the highest
common one. -/
def Obligations.AhnamReceives : Prop :=
  ∀ (s : State) (p : Packet) (e : Reasm) (dev msg vmin vmax serial : Nat) (key : StreamKey) (d : AhnDest) (f : FlagWait), let c := s.chip
    let c1 := bump (Reg.AHN_CTR 1) 1 c
    let sound := p.frag = false ∧ p.flaw = false ∧ 1 ≤ p.version ∧ p.version ≤ 3 ∧ p.dstDev = rd Reg.AHN_DEVICE_ID c ∧ opcodeVersion p.opcode ≠ 0 ∧
      opcodeVersion p.opcode ≤ p.version ∧ p.prot = false ∧ p.pad = 0 ∧ shapeOk p p.payload.length = true
    (working 0x40 c = true →
      (p.frag = true → exec (.packetReceive p) s = becomes s (raise 0x40 0x0402 0 c1)) ∧
      (p.frag = false → p.dstDev ≠ rd Reg.AHN_DEVICE_ID c → exec (.packetReceive p) s = becomes s (raise 0x40 0x0401 0 c1)) ∧
      (sound → c.recent.elem (p.srcDev, p.msgId) = true → exec (.packetReceive p) s = becomes s (ackPut p true false c1)) ∧
      (sound → c.recent.elem (p.srcDev, p.msgId) = false → reasmOf p.srcDev p.msgId c = some e → e.refused = false → p.opcode = 1 →
        e.got.any (fun g => g.1 == p.offset) = false → packetRefusal p p.payload e.recv c1 = 0 →
        exec (.packetReceive p) s = becomes s (ackPut p false false (spotWrite (regionSpot (opfKey p % 2 ^ 16) (opfAddr p + p.offset) c1) p.payload
          (setReasm { e with got := e.got ++ [(p.offset, p.payload.length)] } c1)))) ∧
      (mapGet [] c.acks dev = [] → exec (.ackSend dev) s = becomes s c) ∧
      (mapGet [] c.acks dev ≠ [] → ∃ t, exec (.ackSend dev) s = .next t ∧ t.pending = s.pending ∧ mapGet [] t.chip.acks dev = [] ∧
        t.chip.txWait.length = c.txWait.length + 1 ∧ t.chip.regs = c.regs ∧ t.chip.mem = c.mem) ∧
      (reasmOf dev msg c = some e → deliverable e c = true → ∃ t, exec (.messageDeliver dev msg) s = .next t ∧ t.pending = s.pending ∧
        reasmOf dev msg t.chip = none ∧ (e.hdr.opcode = 1 → opfImmValid e.hdr = false → (dev, msg) ∈ t.chip.recent ∧ t.chip.qps = c.qps) ∧
        (e.hdr.opcode = 0 → (dev, msg) ∈ t.chip.recent ∧
          (getQp e.hdr.dstQp t.chip).recs = (getQp e.hdr.dstQp c).recs ++ [(noteOf e c).2])) ∧
      (reasmOf dev msg c = some e → deliverable e c = false → exec (.messageDeliver dev msg) s = becomes s c) ∧
      (vmin ≤ vmax → 1 ≤ vmin → serial < 2 ^ 64 → exec (.hello dev vmin vmax serial) s =
        becomes s (ahnControl (ahnPortOf 0 c) 80 (.hello true dev 1 3 (rd Reg.AHN_SERIAL c)) c)) ∧
      (getDest dev c = some d → d.ver = 0 → d.bad = false → serial < 2 ^ 64 → vmin ≤ 3 → 1 ≤ vmax → vmin ≤ vmax →
        exec (.helloReply dev vmin vmax serial) s = becomes s (setDest dev { d with ver := min 3 vmax } c))) ∧
    (c.flags.find? (fun x => x.dev == dev && x.msg == msg) = some f → f.spot.target ≠ 3 →
      let t := spotWrite f.spot f.bytes { c with flags := c.flags.filter fun x => !(x.dev == dev && x.msg == msg) }
      exec (.flagWrite dev msg) s = becomes s (match f.note with | some n => qpRecord n.1 n.2 t | none => t)) ∧
    exec .msgIdQuietEnd s = becomes s { c with quiet := false } ∧
    exec (.recentExpiry dev msg) s = becomes s { c with recent := c.recent.filter fun x => x != (dev, msg) } ∧
    (∃ t, exec (.reassemblyExpiry dev msg) s = .next t ∧ t.pending = s.pending ∧ t.chip.mem = c.mem ∧ t.chip.regs = c.regs ∧
      (∀ x ∈ t.chip.reasm, x ∈ c.reasm ∧ (x.dev = dev → x.msg = msg → reasmWhole x = true ∧ x.refused = false)) ∧
      ∀ x ∈ c.reasm, x.dev ≠ dev ∨ x.msg ≠ msg → x ∈ t.chip.reasm) ∧
    (key.send = true → (∀ x ∈ c.txMsgs, ¬ (x.qp = key.qp ∧ x.dev = key.dev ∧ x.dqp = key.rqp ∧ x.tag = key.tag)) →
      exec (.streamContextRelease key) s = becomes s { c with txStreams := c.txStreams.filter fun x => x.key != key }) ∧
    (key.send = false → (∀ x ∈ c.reasm, rxKey x.hdr ≠ key) →
      exec (.streamContextRelease key) s = becomes s { c with rxStreams := c.rxStreams.filter fun x => x.key != key })

/-- R325–R330: the election of a coordinator. The starter proposes to the discovery list; one that hears a lower serial withdraws and joins; a device that does not
start joins the proposer. At the close of the window IDs are assigned, each chunk of the table waits for every member's acknowledgement, and the last one makes the
domain READY; a member installs the entries it is sent and answers. -/
def Obligations.AhnamElection : Prop :=
  ∀ (s : State) (p : Party) (tag serial ip first : Nat) (entries : List RosterEntry) (w : Nat × Nat × Nat) (m : ElectMember), let c := s.chip
    let own := rd Reg.AHN_SERIAL c
    working 0x40 c = true → rd Reg.AHN_DOMAIN_MODE c = 1 → tag = rd Reg.AHN_DOMAIN_TAG c →
    (reaches p 0x40 c → ∃ t, exec (.domainStart p) s = .next t ∧ t.pending = s.pending ∧ rd Reg.AHN_DOMAIN_STATE t.chip = 1 ∧
      t.chip.elect.starting = true ∧ t.chip.elect.closed = false) ∧
    (c.elect.starting = true → c.elect.closed = false → exec .proposeSend s = becomes s (electAll 0 [] c)) ∧
    (c.elect.starting = false → exec .proposeSend s = becomes s c ∧
      exec (.propose tag serial ip) s = becomes s (electTo ip 2 own 0 [ownEntry c] c)) ∧
    (c.elect.starting = true → serial < own → ∃ t, exec (.propose tag serial ip) s = .next t ∧ t.pending = s.pending ∧ t.chip.elect.starting = false ∧
      t.chip.txWait.length = c.txWait.length + (discAddrs c).length + 1) ∧
    (c.elect.starting = true → own ≤ serial → (∀ x ∈ c.elect.members, x.serial ≠ serial) → serial ∉ c.elect.conflicts →
      ∃ t, exec (.propose tag serial ip) s = .next t ∧ t.pending = s.pending ∧ t.chip.elect.members = c.elect.members ++ [⟨serial, ip, none⟩] ∧
        t.chip.txWait = c.txWait) ∧
    (c.elect.starting = true → own < serial → exec (.withdraw tag serial) s = becomes s { c with elect := { c.elect with closed := false } }) ∧
    (c.elect.starting = true → c.elect.closed = false → (∀ x ∈ c.elect.members, x.serial ≠ serial) → serial ∉ c.elect.conflicts →
      exec (.join tag serial ip) s = becomes s { c with elect := { c.elect with members := c.elect.members ++ [⟨serial, ip, none⟩] } }) ∧
    (c.elect.starting = true → c.elect.closed = false → ∃ t, exec .proposalWindowClose s = .next t ∧ t.pending = s.pending ∧ t.chip.elect.closed = true ∧
      (∀ x ∈ t.chip.elect.members, x.id ≠ none) ∧ t.chip.elect.members.length = c.elect.members.length) ∧
    (discAddrs c ≠ [] → ∃ t, exec (.roster tag serial first entries) s = .next t ∧ t.pending = s.pending ∧ c.txWait.length < t.chip.txWait.length ∧
      ∀ e, entries = [e] → e.valid = true → addrIp first t.chip = e.ip % 2 ^ 128) ∧
    (c.elect.closed = true → c.elect.waiting = [(serial, first, w.2.2)] → exec (.rosterAck tag serial first) s =
      becomes s (wr Reg.AHN_DOMAIN_STATE 2 { c with elect := { c.elect with waiting := [] } })) ∧
    (c.elect.waiting.find? (fun x => x.1 == serial && x.2.1 == first) = some w → c.elect.members.find? (fun x => x.serial == serial) = some m →
      (w.2.2 < 7 → exec (.rosterResend serial first) s = becomes s (sendRoster m first 128 (w.2.2 + 1) c)) ∧
      (7 ≤ w.2.2 → exec (.rosterResend serial first) s = becomes s c))

/-- R342–R346, R350, R353–R358, R363: the owner's doorbells write the tails and the completion head of a queue pair that is not in RESET, and any other's is dropped. A send entry of the
queue pair's generation that passes its checks is taken: its work waits for completion and its message is posted with the next `MSG_ID`; a stale entry is passed
over and counted. -/
def Obligations.QueuePairWork : Prop :=
  ∀ (s : State) (p : Party) (n : Fin 4096) (v : Nat), let c := s.chip
    let q := getQp n c
    (pageState 0x40 c ≠ 6 → ownerCode p c = qpOwner n c → qpState n c ≠ 0 →
      (qpState n c ≠ 3 → exec (.qpSqTail p n v) s = becomes s (setQp n { q with sqTail := v % 2 ^ 15 } c) ∧
        exec (.qpRqTail p n v) s = becomes s (setQp n { q with rqTail := v % 2 ^ 15 } c)) ∧
      exec (.qpCqHead p n v) s = becomes s (setQp n { q with cqHead := v % 2 ^ 15 } c)) ∧
    (ownerCode p c ≠ qpOwner n c ∨ qpState n c = 0 → exec (.qpSqTail p n v) s = becomes s (raise 0x40 0x040D 0 c) ∧
      exec (.qpRqTail p n v) s = becomes s (raise 0x40 0x040D 0 c) ∧ exec (.qpCqHead p n v) s = becomes s (raise 0x40 0x040D 0 c)) ∧
    let a := qpRing n 0 q.sqNext 64 c
    let e := sendParse (ldBytes a.1 a.2 64 c)
    let next := (q.sqNext + 1) % 2 ^ 15
    (working 0x40 c = true → qpState n c = 2 → q.sqNext ≠ q.sqTail → ownerIssues 1 (qpOwner n c) c = true →
      ∀ op i, (op, i) ∈ [(0, Instr.send n), (1, .write n), (2, .writeFlag n), (3, .read n), (5, .fetchAdd64 n), (6, .cmpSwap64 n)] → e.opcode = op →
        (e.gen ≠ qpGenField n c → exec i s = becomes s (bump Reg.AHN_STALE_COUNT 1 (setQp n { q with sqNext := next } c))) ∧
        (e.gen = qpGenField n c → e.fence = false → anyPoison a.1 a.2 64 c = false → sendStatus n e c = 0 → streamFull c = false →
          ∃ t w x, exec i s = .next t ∧ t.pending = s.pending ∧ t.chip.mem = c.mem ∧ t.chip.regs = c.regs ∧ t.chip.msgNext = (c.msgNext + 1) % 2 ^ 64 ∧
            getQp n t.chip = { q with sqNext := next, works := q.works ++ [w] } ∧
            w.slot = q.sqNext ∧ w.wid = e.wid ∧ w.opcode = op ∧ w.len = e.len ∧ w.msg = c.msgNext ∧ w.status = none ∧
            w.loc = regionSpot (e.lkey % 2 ^ 16) e.laddr c ∧
            t.chip.txMsgs = c.txMsgs ++ [x] ∧ x.id = c.msgNext ∧ x.opcode = op ∧ x.qp = n.val ∧ x.dev = e.dev ∧ x.dqp = e.dqp ∧ x.tag = e.tag ∧ x.next = 0 ∧
            x.len = (if op < 3 then e.len else if op = 6 then 16 else 8) ∧ x.src = (if op < 3 then some w.loc else none))) ∧
    (working 0x40 c = false → exec (.send n) s = becomes s c)

/-- R339, R340, R344, R347–R352, R360, R365–R368: completion and commands of queue pairs. The next waiting record of a host's queue pair is written at the tail of its completion queue with
`PHASE`, and the tail advances. RESET leads through `CMD_BUSY` to a new generation, READY is from RESET with a sound context, ACTIVE from READY, ERROR from READY
and ACTIVE; VALIDATE sets `VALID` of a sound region and INVALIDATE clears it and advances the key's tag. A response that makes no progress ends its work; a NAK is taken as a packet
and one that names no work is answered as a duplicate. -/
def Obligations.QueuePairCommands : Prop :=
  ∀ (s : State) (p : Party) (n : Fin 4096) (i msg : Nat) (r : AhnRec) (rest : List AhnRec) (k : Packet), let c := s.chip
    let q := getQp n c
    let result := fun (code : Nat) (t : State) => qpF n 0x54 7 0 t.chip = code ∧ qpF n 0x54 31 16 t.chip = (qpF n 0x54 31 16 c + 1) % 2 ^ 16
    let bad := fun (code at' : Nat) => becomes s (wr (Hdr.REFUSAL_OFFSET 0x40) at' (wr (Hdr.REFUSAL_CODE 0x40) code c))
    let space := (c.qps.filter fun e => e.2.resetting).length < 64
    (reaches p 0x40 c → space → qpMay p n c = true →
      (qpState n c = 0 → qpContextOk n c = true → qpF n 0x18 60 60 c = 0 →
        ∃ t, exec (.qpReady p n) s = .next t ∧ t.pending = s.pending ∧ qpState n t.chip = 1 ∧ result 0 t ∧ t.chip.regs = c.regs) ∧
      (qpState n c = 0 → qpContextOk n c = false → ∃ t, exec (.qpReady p n) s = .next t ∧ t.pending = s.pending ∧ qpState n t.chip = 0 ∧ result 2 t) ∧
      (qpState n c = 1 → ∃ t, exec (.qpActive p n) s = .next t ∧ t.pending = s.pending ∧ qpState n t.chip = 2 ∧ result 0 t ∧ t.chip.regs = c.regs) ∧
      (qpState n c = 1 ∨ qpState n c = 2 → ∃ t, exec (.qpError p n) s = .next t ∧ t.pending = s.pending ∧ qpState n t.chip = 3 ∧ qpF n 0x40 15 8 t.chip = 0x0F) ∧
      (qpState n c = 3 → ∃ t, exec (.qpReset p n) s = .next t ∧ t.pending = s.pending ∧ qpF n 0x54 8 8 t.chip = 1 ∧ (getQp n t.chip).resetting = true) ∧
      (qpState n c = 0 → ∃ t, exec (.qpReset p n) s = .next t ∧ t.pending = s.pending ∧ qpState n t.chip = 0 ∧ result 1 t)) ∧
    (reaches p 0x40 c → space → qpMay p n c = false → exec (.qpReset p n) s = bad 0x03 0x310 ∧ exec (.qpReady p n) s = bad 0x03 0x310 ∧
      exec (.qpActive p n) s = bad 0x03 0x310 ∧ exec (.qpError p n) s = bad 0x03 0x310) ∧
    (reaches p 0x40 c → ¬ space → exec (.qpReady p n) s = bad 0x09 0x310) ∧
    (q.resetting = true → q.recs = [] → ∃ t, exec (.qpResetDone n) s = .next t ∧ t.pending = s.pending ∧ qpState n t.chip = 0 ∧
      qpGen n t.chip = (qpGen n c + 1) % 2 ^ 16 ∧ result 0 t ∧ qpF n 0x54 8 8 t.chip = 0 ∧ getQp n t.chip = AhnQp.idle ∧ t.chip.regs = c.regs) ∧
    (q.resetting = false → exec (.qpResetDone n) s = becomes s c) ∧
    (q.recs = r :: rest → rd Reg.AHN_QP_TABLE c + 0x80000 ≤ 2 ^ 64 → qpOwner n c = 0x8000 → r.gen = qpGenField n c → r.body.length = 28 → (∀ x ∈ r.body, x < 256) →
      let tail := qpF n 0x4C 14 0 c
      let log := qpF n 0x10 3 0 c
      (tail + 2 ^ 15 - q.cqHead) % 2 ^ 15 < 2 ^ log - 1 →
        ∃ t, exec (.completionWrite n) s = .next t ∧ t.pending = s.pending ∧ (getQp n t.chip).recs = rest ∧ qpF n 0x4C 14 0 t.chip = (tail + 1) % 2 ^ 15 ∧
          ldBytes (spHost 0) (qpF n 0x10 63 12 c * 4096 + 32 * (tail % 2 ^ log)) 32 t.chip = r.body ++ leBytes 4 (qpF n 0x4C 31 31 c)) ∧
    (q.recs = [] → exec (.completionWrite n) s = becomes s c) ∧
    (reaches p 0x40 c → i < 2 ^ 16 → ownerCode p c = regionF i 0x10 63 48 c →
      (regionOk i c = true → regionF i 0x10 36 36 c = 0 → ∃ t, exec (.regionValidate p i) s = .next t ∧ t.pending = s.pending ∧
        regionF i 0x10 32 32 t.chip = 1 ∧ regionF i 0x38 7 0 t.chip = 0 ∧ regionF i 0x38 31 16 t.chip = (regionF i 0x38 31 16 c + 1) % 2 ^ 16) ∧
      (regionOk i c = false → ∃ t, exec (.regionValidate p i) s = .next t ∧ t.pending = s.pending ∧ regionF i 0x38 7 0 t.chip = 2 ∧
        regionF i 0x10 32 32 t.chip = regionF i 0x10 32 32 c) ∧
      (∃ t, exec (.regionInvalidate p i) s = .next t ∧ t.pending = s.pending ∧ regionF i 0x10 32 32 t.chip = 0 ∧
        regionF i 0x10 15 0 t.chip = (regionF i 0x10 15 0 c + 1) % 2 ^ 16 ∧ regionF i 0x38 7 0 t.chip = 0)) ∧
    (∀ e, c.qps.find? (fun e => e.2.works.any fun w => w.msg == msg && w.status.isNone && isRequest w.opcode) = some e → txMsgOf msg c = none →
      exec (.respTimeout msg) s = becomes s (workEnd e.1 msg 0x0A c)) ∧
    (∀ m, txMsgOf msg c = some m → exec (.respTimeout msg) s = becomes s c) ∧
    (k.opcode = 9 → working 0x40 c = true → k.frag = false → k.flaw = false → 1 ≤ k.version → k.version ≤ 3 → k.dstDev = rd Reg.AHN_DEVICE_ID c →
      k.prot = false → k.pad = 0 → shapeOk k k.payload.length = true → c.recent.elem (k.srcDev, k.msgId) = false → reasmOf k.srcDev k.msgId c = none →
      let c1 := bump (Reg.AHN_CTR 1) 1 c
      (namesWork k c1 = false → exec (.nak k) s = becomes s (ackPut k true false (streamCount (rxKey k) k.streamInc k.seq (streamArrive k c1)))) ∧
      (namesWork k c1 = true → exec (.nak k) s = becomes s (receiveNew k k.payload c1)))

/-! ### Collectives (chapter 09) -/

/-- R377, R383–R387, R391, R392, R405, R408: collectives. The descriptor at the head of an enabled queue starts under its operation: one of another generation, of a group that is not the queue's, or
with a broken field has its status at once; another runs with the group's `COLL_SEQ`, which advances. A collective with a status ends: `HEAD` and `DONE` advance and its
run is gone. A segment joins its collective, an ABORT ends it, and a segment without room in staging is refused. -/
def Obligations.Collectives : Prop :=
  ∀ (s : State) (p : Party) (q : Fin 16) (v group seq rank : Nat) (st : Bool) (g : Segment), let c := s.chip
    let h := rd (Reg.COL_HEAD q) c
    (reaches p 0x61 c →
      (rd (Reg.COL_OWNER q) c = ownerCode p c → ∃ t, exec (.colTail p q v) s = .next t ∧ t.pending = s.pending ∧ rd (Reg.COL_TAIL q) t.chip = v % 2 ^ 13 ∧
        t.chip.mem = c.mem ∧ onlyFields [Reg.COL_TAIL q, Reg.COL_Q_STATE q] c t.chip) ∧
      (rd (Reg.COL_OWNER q) c ≠ ownerCode p c → exec (.colTail p q v) s = becomes s (refuse 0x61 0x03 (0x410 + 0x20 * q.val) c))) ∧
    let d := ldBytes (colSpace q c) (rd (Reg.COL_BASE q) c * 4096 + 128 * (h % 2 ^ rd (Reg.COL_LOG2_N q) c)) 128 c
    let grp := colF d 0 31 20
    (working 0x61 c = true → rd (Reg.COL_Q_EN q) c = 1 → runOf q c = none → h ≠ rd (Reg.COL_TAIL q) c → rd Reg.COL_STOPPED c = 0 → c.colBoundary = false →
      ownerIssues 0 (rd (Reg.COL_OWNER q) c) c = true →
      ∀ op i, (op, i) ∈ [(0, Instr.allReduce q), (1, .reduceScatter q), (2, .allGather q), (3, .broadcast q), (4, .allToAll q), (5, .barrier q)] → colOp d = op →
        let begun := fun (status : Option Nat) => ∃ t r, exec i s = .next t ∧ t.pending = s.pending ∧ runOf q t.chip = some r ∧ rd (Reg.COL_Q_STATE q) t.chip = 2 ∧
          r.desc = d ∧ r.group = grp ∧ r.seq = groupSeq grp c ∧ (status.isSome = true → r.status = status)
        (colF d 4 15 0 ≠ rd (Reg.COL_GEN q) c → begun (some 9)) ∧
        (colF d 4 15 0 = rd (Reg.COL_GEN q) c → groupValid grp c = false ∨ groupQueue grp c ≠ q → begun (some 3)) ∧
        (colF d 4 15 0 = rd (Reg.COL_GEN q) c → groupValid grp c = true → groupQueue grp c = q → (colBad d (groupP grp c) = true → begun (some 2)) ∧ begun none ∧
          ∃ t, exec i s = .next t ∧ groupSeq grp t.chip = (groupSeq grp c + 1) % 2 ^ 32)) ∧
    (rd Reg.COL_STOPPED c = 1 → exec (.allReduce q) s = becomes s c) ∧
    (∀ r, runOf q c = some r →
      (r.status ≠ none → ∃ t, exec (.collectiveEnd q) s = .next t ∧ t.pending = s.pending ∧ runOf q t.chip = none ∧
        rd (Reg.COL_HEAD q) t.chip = (h + 1) % 2 ^ 13 ∧ rd (Reg.COL_DONE q) t.chip = (rd (Reg.COL_DONE q) c + 1) % 2 ^ 32) ∧
      (r.status = none → exec (.collectiveEnd q) s = becomes s c)) ∧
    (∀ r, c.colRuns.find? (fun x => x.group == group && x.seq == seq && x.status.isNone) = some r →
      exec (.collAbort group seq rank st) s = becomes s (setRun { r with status := some (if st then 0xA else 6), failRank := rank } c)) ∧
    (c.colRuns.find? (fun x => x.group == group && x.seq == seq && x.status.isNone) = none → exec (.collAbort group seq rank st) s = becomes s c) ∧
    (working 0x61 c = true → stagingFull g.payload.length c = true → exec (.collSegment g) s = becomes s (raise 0x61 0x0606 0 (bump (Reg.COL_CTR 5) 1 c))) ∧
    (working 0x61 c = true → stagingFull g.payload.length c = false → let c1 := bump (Reg.COL_CTR 4) 1 c
      (groupValid g.group c = false ∨ groupP g.group c ≤ g.rank ∨ rankDev g.group g.rank c ≠ g.dev → exec (.collSegment g) s = becomes s (raise 0x61 0x0604 0 c1)) ∧
      (groupValid g.group c = true → g.rank < groupP g.group c → rankDev g.group g.rank c = g.dev →
        (∀ r, c.colRuns.find? (fun x => x.group == g.group && x.seq == g.seq && x.status.isNone) = some r → g.phase ≠ 0xF →
          g.check = paramCheck r.desc (groupContrib g.group c) →
          exec (.collSegment g) s = becomes s (colAdvance r.queue (setRun { r with segs := r.segs ++ [g] } c1))) ∧
        (c.colRuns = [] → groupSeq g.group c = g.seq → exec (.collSegment g) s = becomes s { c1 with colHeld := c1.colHeld ++ [g] })))

/-- R382, R409, R411, R412: groups, the stop at a step boundary, and the restart of `COL_QP`. VALIDATE and INVALIDATE by the group's owner set and clear `VALID`; another party has
result 1, an unsound or running group result 2. STOP_NOW ends every running collective with STOPPED and sets `STOPPED`, which RESUME clears with `STOP_ARM`. -/
def Obligations.CollectiveControl : Prop :=
  ∀ (s : State) (p : Party) (g : Fin 4096) (on : Bool), reaches p 0x61 s.chip → let c := s.chip
    (groupOwner g c = ownerCode p c →
      (groupOk g c = true → ∃ t, exec (.groupValidate p g) s = .next t ∧ t.pending = s.pending ∧ groupValid g t.chip = true ∧ groupSeq g t.chip = 0 ∧
        rd Reg.COL_GROUP_RESULT t.chip = 0 ∧ onlyFields [Reg.COL_GROUP_RESULT] c t.chip) ∧
      (groupOk g c = false → exec (.groupValidate p g) s = becomes s (wr Reg.COL_GROUP_RESULT 2 c)) ∧
      ((∀ r ∈ c.colRuns, r.group ≠ g.val) → ∃ t, exec (.groupInvalidate p g) s = .next t ∧ t.pending = s.pending ∧ groupValid g t.chip = false ∧
        rd Reg.COL_GROUP_RESULT t.chip = 0 ∧ onlyFields [Reg.COL_GROUP_RESULT] c t.chip) ∧
      ((∃ r ∈ c.colRuns, r.group = g.val) → exec (.groupInvalidate p g) s = becomes s (wr Reg.COL_GROUP_RESULT 2 c))) ∧
    (groupOwner g c ≠ ownerCode p c → isControl p c = false → exec (.groupValidate p g) s = becomes s (wr Reg.COL_GROUP_RESULT 1 c) ∧
      exec (.groupInvalidate p g) s = becomes s (wr Reg.COL_GROUP_RESULT 1 c)) ∧
    (∃ t, exec (.stopArm p on) s = .next t ∧ t.pending = s.pending ∧ rd Reg.COL_STOP_ARM t.chip = (if on then 1 else 0) ∧ t.chip.mem = c.mem ∧
      onlyFields [Reg.COL_STOP_ARM] c t.chip) ∧
    (rd Reg.COL_STOPPED c = 0 → ∃ t, exec (.stopNow p) s = .next t ∧ t.pending = s.pending ∧ rd Reg.COL_STOPPED t.chip = 1 ∧ t.chip.mem = c.mem ∧
      ∀ r ∈ t.chip.colRuns, r.status ≠ none) ∧
    (rd Reg.COL_STOPPED c = 1 → exec (.stopNow p) s = becomes s c) ∧
    (∃ t, exec (.colResume p) s = .next t ∧ t.pending = s.pending ∧ rd Reg.COL_STOPPED t.chip = 0 ∧ rd Reg.COL_STOP_ARM t.chip = 0 ∧ t.chip.colBoundary = false ∧
      (∀ q : Fin 16, rd (Reg.COL_HEAD q) t.chip = rd (Reg.COL_HEAD q) c)) ∧
    let qp := rd Reg.COL_COL_QP c
    (qpState qp c = 3 → qpOwner qp c = 0x9007 → working 0x61 c = true → ∃ t, exec .colQpRestart s = .next t ∧ t.pending = s.pending ∧ t.chip.colAborts = []) ∧
    (qpState qp c ≠ 3 → exec .colQpRestart s = becomes s c)

/-! ### Herd (chapter 10), the Vat and the KV pager (chapter 11) -/

/-- R417, R420–R424, R427–R431, R433, R447, R450: requests. The next record of an origin that is sound and finds a context becomes a request of its model's queue, with the record's fields in its
context; an unsound one is answered BAD_REQUEST. CANCEL ends a waiting request, and one that names none is answered; a verdict that fits the waiting call passes or ends the request; the timers end
it, send its staged tokens, or close its model's batch. Every event is followed by what waits on it (`herdSettle`). -/
def Obligations.HerdRequests : Prop :=
  ∀ (s : State) (o : Origin) (x : NextRec) (n req info model : Nat) (m : Fin 4096) (pool : Fin 32) (q : KvSeq), herdUp s.chip = true → let c := s.chip
    let settles := fun (c' : Chip) => becomes s (herdSettle c')
    let r := reqParse x.bytes
    (nextRecord o c = some x → x.bytes ≠ [] → x.poison = false →
      (r.kind ≠ 1 → pageState 0x70 c ≠ 5 → reqOk r x o c = false → exec (.requestNew o) s = settles (answer o r 5 (consumeRecord o x.buf c))) ∧
      (pageState 0x70 c = 5 → r.kind ≠ 1 → exec (.requestNew o) s = settles (answer o r 7 (consumeRecord o x.buf c))) ∧
      (pageState 0x70 c ≠ 5 → reqOk r x o c = true → freeContext c = some n → c.herdSb.length < 65536 → r.seq ≠ 0 → seqNamed r.seq c = some q → q.state = 1 → q.eph = false →
        q.owner = originOwner (originAhnam o) (originNo o) c → q.tokens + r.prompt + r.maxNew ≤ 4194304 →
        let c0 := consumeRecord o none c
        let t := bump (Reg.HRD_CTR 0) 1 (newContext n o r x r.seq c0)
        (polPool r.model 0 t = none → exec (.requestNew o) s = settles (consider r.model false (enqueue n t))) ∧
        (∀ k, polPool r.model 0 t = some k → exec (.requestNew o) s = settles (postCall n 0 k r.prompt (setCtxState n 1 t))) ∧
        (rd Reg.HRD_CTX_TABLE c + 128 * n + 128 ≤ 2 ^ 64 → ctxState n t = 2 ∧ ctxModel n t = r.model ∧ ctxClass n t = r.dclass ∧ ctxTag n t = r.tag ∧
          ctxPrompt n t = r.prompt ∧ ctxMaxNew n t = r.maxNew ∧ ctxInc n t = (ctxInc n c0 + 1) % 2 ^ 12)) ∧
      (r.kind = 1 → exec (.requestNew o) s = settles c) ∧
      (r.kind = 1 → r.flaw = false → cancelTarget o r.tag c = none → exec (.cancel o) s = settles (answer o r 9 (consumeRecord o x.buf c))) ∧
      (r.kind = 1 → r.flaw = false → cancelTarget o r.tag c = some n → n ∈ c.herdSb → let t := sbTouch n (consumeRecord o x.buf c)
        ctxState n t = 1 ∨ ctxState n t = 2 → exec (.cancel o) s = settles (consider (ctxModel n t) false (finish n 1 t)))) ∧
    (nextRecord o c = none → exec (.requestNew o) s = settles c ∧ exec (.cancel o) s = settles c) ∧
    (reqCtx req c = none → ∀ k, exec (.verdict pool req k model info) s = settles (bump (Reg.HRD_CTR 6) 1 c)) ∧
    (∀ call, reqCtx req c = some n → (getReq n c).call = some call → polPool (ctxModel n c) call c = some pool.val → n ∈ c.herdSb →
      let t := sbTouch n (setReq n { getReq n c with call := none } c)
      (call = 0 → exec (.verdict pool req 0 model info) s = settles (consider (ctxModel n t) false (enqueue n t))) ∧
      (call = 1 → exec (.verdict pool req 0 model info) s = settles (finish n 0 t)) ∧
      (call ≤ 2 → exec (.verdict pool req 1 model info) s = settles (consider (ctxModel n t) false (finish n 3 t)))) ∧
    exec (.batchTimer m) s = settles (consider m true c) ∧
    (n ∈ c.herdLive → n ∈ c.herdSb →
      ((getReq n c).call ≠ none → exec (.sideTimeout n) s = settles (considerAll (finish n 8 (raise 0x70 0x0705 0 c)))) ∧
      (ctxDeadline n c ≠ 0 → ctxState n c = 2 → polDropLate (ctxModel n c) c = true → n ∈ modelQueue (ctxModel n c) c → exec (.deadlinePass n) s = settles (finish n 2 c)) ∧
      ((getReq n c).staged ≠ [] → polStream (ctxModel n c) c = true → exec (.flushTimer n) s = settles (sendReply n 0 0 c))) ∧
    (n ∈ c.herdLive → n ∉ c.herdSb → c.herdSb.length < 65536 → (∀ e ∈ c.herdWait, e.1 ≠ n) →
      (anyPoison spDev (ctxBase n c) 128 c = false → exec (.contextFetch n) s = settles { c with herdSb := c.herdSb ++ [n] }) ∧
      (anyPoison spDev (ctxBase n c) 128 c = true →
        exec (.contextFetch n) s = settles (considerAll (finish n 6 (raise 0x70 0x0706 2 { c with herdSb := c.herdSb ++ [n] })))))

/-- R419, R420, R426, R427, R437, R438, R442–R445, R451, R452: intake queues, policies and accelerators. The next record of a completion ring that is fresh and names a request on its accelerator is consumed and acts:
tokens are staged and the sequence grows, the request finishes, is queued again, or leaves the running set; TICKET_DONE acknowledges tickets. A record without its request is counted. A drain posts
its ticket, RESUME makes the accelerator READY, a ticket without acknowledgement fails it. -/
def Obligations.HerdAccelerators : Prop :=
  ∀ (s : State) (p : Party) (q m : Fin 4096) (a : Fin 8) (n v : Nat) (bad : Bool), let c := s.chip
    let settles := fun (c' : Chip) => becomes s (herdSettle c')
    let h := mapGet 0 c.herdComp a.val
    let r := accRec (ldBytes spDev (accSlot a h c) 64 c)
    let c1 := accConsume a c
    let fresh := herdUp c = true ∧ accState a c ≠ 0 ∧ accState a c ≠ 4 ∧ r.ring = h % 2 ^ 32 ∧ r.phase = 1 - h / 2 ^ rd (Reg.HRD_CRING_LOG2 a) c % 2 ∧
      anyPoison spDev (accSlot a h c) 64 c = false ∧ r.count ≤ 8
    let kinds := [(0, Instr.tokens a), (1, .finished a), (2, .failed a bad), (3, .evicted a), (5, .draftReq a)]
    (fresh → r.kind = 4 → exec (.ticketDone a) s = settles (ticketsDone a r.ticket c1)) ∧
    (fresh → ∀ k i, (k, i) ∈ kinds → r.kind = k →
      (reqCtx r.req c = none → exec i s = settles (raise 0x70 0x0702 0 (bump (Reg.HRD_CTR 6) 1 c1))) ∧
      (reqCtx r.req c = some n → ctxOn n a c = true → n ∈ c.herdSb → let t := sbTouch n c1
        (recCounts n a k t = false → exec i s = settles t) ∧
        (recCounts n a k t = true →
          (k = 0 → exec i s = settles (seqGrow (ctxSeq n t % 2 ^ 20) (ctxOut n t + r.toks.length) (stageTokens n r.toks (startRunning n t)))) ∧
          (k = 1 → exec i s = settles (finished n r.toks t)) ∧
          (k = 2 → bad = false → exec i s = settles (considerAll (requeueFailed n t))) ∧
          (k = 2 → bad = true → exec i s = settles (accFail a t)) ∧
          (k = 3 → exec i s = settles (evicted n a t)) ∧
          (∀ pool, k = 5 → polPool (ctxModel n t) 2 t = some pool → rd (Reg.HRD_ABI_AGREED a) t = 2 → exec i s = settles (postCall n 2 pool r.count t))))) ∧
    (accState a c = 0 → exec (.tokens a) s = settles c) ∧
    (herdUp c = true → openTickets a c ≠ [] → exec (.accTimeout a) s = settles (accFail a c)) ∧
    (openTickets a c = [] → exec (.accTimeout a) s = becomes s c) ∧
    (reaches p 0x70 c →
      (accState a c = 0 → accEnableCode a c ≠ 0 → exec (.accEn p a true) s = settles (refuse 0x70 (accEnableCode a c) (accReg a) c)) ∧
      (accState a c = 0 → accEnableCode a c = 0 → c.herdQueue = [] → c.herdBatches = [] → (∀ b : Fin 8, accState b c ≠ 2) →
        ∃ t, exec (.accEn p a true) s = .next t ∧ t.pending = s.pending ∧ accState a t.chip = 1 ∧ rd (Reg.HRD_ACC_EN a) t.chip = 1 ∧ rd (Reg.HRD_TICKET_SEQ a) t.chip = 0 ∧
          rd (Reg.HRD_TICKET_DONE a) t.chip = 0 ∧ rd (Reg.HRD_ABI_AGREED a) t.chip = min (rd (Reg.HRD_ABI_MAX a) c) 2 ∧ mapGet 0 t.chip.herdComp a.val = 0 ∧ openTickets a t.chip = []) ∧
      (accState a c = 4 → exec (.accEn p a false) s = settles (accOff a (wr (Reg.HRD_ACC_EN a) 0 c))) ∧
      (accState a c = 1 → let d := postTicket a (plainTicket 4 0) (batchesBack a (wr (Reg.HRD_ACC_STATE a) 2 c))
        exec (.drainFinish p a) s = settles d ∧
        (accState a d = 2 → exec (.drainMove p a) s = settles ((runningOn a d).foldl (fun c n => if ctxState n c = 3 ∨ ctxState n c = 4 then evict n c else c) d))) ∧
      (accState a c ≠ 1 → exec (.drainFinish p a) s = settles c) ∧
      (accState a c = 2 ∨ accState a c = 3 → exec (.accResume p a) s = settles (considerAll (wr (Reg.HRD_ACC_STATE a) 1 c))) ∧
      (ownerCode p c = polOwner m c →
        (policyOk m c = true → ∃ t, exec (.policyValidate p m) s = .next t ∧ t.pending = s.pending ∧ polValid m t.chip = true ∧ rd Reg.HRD_POLICY_RESULT t.chip = 0) ∧
        (policyOk m c = false → exec (.policyValidate p m) s = becomes s (wr Reg.HRD_POLICY_RESULT 2 c)) ∧
        (c.herdLive = [] → exec (.policyInvalidate p m) s = settles (wr Reg.HRD_POLICY_RESULT 0 (putF spDev (polBase m c) 31 31 0 c)))) ∧
      (ownerCode p c ≠ polOwner m c → isControl p c = false → exec (.policyValidate p m) s = becomes s (wr Reg.HRD_POLICY_RESULT 1 c) ∧
        exec (.policyInvalidate p m) s = becomes s (wr Reg.HRD_POLICY_RESULT 1 c)) ∧
      (ownerCode p c = inkOwner q c →
        (∃ t, exec (.intakeReset p q) s = .next t ∧ t.pending = s.pending ∧ getInk q t.chip = IntakeQ.idle ∧ rd Reg.HRD_INTAKE_RESULT t.chip = 0) ∧
        ((getInk q c).state = 0 → intakeOk q c = true → ∃ t, exec (.intakeActive p q) s = .next t ∧ t.pending = s.pending ∧
          getInk q t.chip = { IntakeQ.idle with state := 1 } ∧ rd Reg.HRD_INTAKE_RESULT t.chip = 0) ∧
        ((getInk q c).state = 1 → exec (.intakeActive p q) s = becomes s (wr Reg.HRD_INTAKE_RESULT 2 c)) ∧
        ((getInk q c).state ≠ 0 → ∃ t, exec (.intakeDrain p q) s = .next t ∧ t.pending = s.pending ∧ (getInk q t.chip).state = 2 ∧ rd Reg.HRD_INTAKE_RESULT t.chip = 0)) ∧
      (ownerCode p c ≠ inkOwner q c → isControl p c = false → exec (.intakeReset p q) s = becomes s (wr Reg.HRD_INTAKE_RESULT 1 c))) ∧
    (ownerCode p c = inkOwner q c → (getInk q c).state ≠ 0 → pageState 0x70 c ≠ 6 →
      exec (.intakeDoorbell p q false v) s = becomes s (setInk q { getInk q c with tail := v % 2 ^ 15 } c) ∧
      ((getInk q c).recs = [] → exec (.intakeDoorbell p q true v) s = becomes s (setInk q { getInk q c with cqHead := v % 2 ^ 15 } c))) ∧
    (ownerCode p c ≠ inkOwner q c → exec (.intakeDoorbell p q false v) s = becomes s (raise 0x40 0x040D 0 c))

/-- R460–R462, R466–R471: images of the Vat. VALIDATE by the owner sets `VALID` of a sound image, INVALIDATE clears it of one not in use, and FILL begins one, which ends when its bytes have arrived; a release ends once no model runs
there; a load writes once no conflicting image stays, and completes with its targets resident. -/
def Obligations.VatImages : Prop :=
  ∀ (s : State) (p : Party) (i : Fin 4096) (a : Fin 8) (l : VatLoad) (r : VatRel), let c := s.chip
    let settles := fun (c' : Chip) => becomes s (herdSettle c')
    (reaches p 0x71 c → c.vatFill = none → ownerCode p c = imgOwner i c →
      (imageOk i c = true → ∃ t, exec (.imageValidate p i) s = .next t ∧ t.pending = s.pending ∧ imgValid i t.chip = true ∧ rd Reg.VAT_IMG_RESULT t.chip = 0 ∧
        onlyFields [Reg.VAT_IMG_RESULT] c t.chip) ∧
      (imageOk i c = false → exec (.imageValidate p i) s = becomes s (wr Reg.VAT_IMG_RESULT 2 c)) ∧
      (imgInUse i c = false → ∃ t, exec (.imageInvalidate p i) s = .next t ∧ t.pending = s.pending ∧ imgValid i t.chip = false ∧ rd Reg.VAT_IMG_RESULT t.chip = 0 ∧
        onlyFields [Reg.VAT_IMG_RESULT] c t.chip) ∧
      (imgInUse i c = true → exec (.imageInvalidate p i) s = becomes s (wr Reg.VAT_IMG_RESULT 2 c) ∧ exec (.fill p i) s = becomes s (wr Reg.VAT_IMG_RESULT 2 c)) ∧
      (imgInUse i c = false → imgValid i c = false → working 0x71 c = true → exec (.fill p i) s = becomes s (wr Reg.VAT_IMG_BUSY 1 { c with vatFill := some i.val })) ∧
      exec (.imageRelease p i) s = becomes s (wr Reg.VAT_IMG_RESULT 0 (herdSettle ((bitList 8 (imgResident i c)).foldl (fun c a => releaseStart true a c i) c)))) ∧
    (reaches p 0x71 c → c.vatFill ≠ none → exec (.fill p i) s = becomes s (wr (Hdr.REFUSAL_OFFSET 0x71) 0x114 (wr (Hdr.REFUSAL_CODE 0x71) 0x09 c))) ∧
    (reaches p 0x71 c → c.vatFill = none → ownerCode p c ≠ imgOwner i c → isControl p c = false → exec (.imageValidate p i) s = becomes s (wr Reg.VAT_IMG_RESULT 1 c) ∧
      exec (.imageInvalidate p i) s = becomes s (wr Reg.VAT_IMG_RESULT 1 c) ∧ exec (.fill p i) s = becomes s (wr Reg.VAT_IMG_RESULT 1 c) ∧
      exec (.imageRelease p i) s = becomes s (wr Reg.VAT_IMG_RESULT 1 c)) ∧
    (c.vatFill = some i.val → let c1 := wr Reg.VAT_IMG_BUSY 0 { c with vatFill := none }
      let v := rd Reg.VAT_FILL_VOLUME c
      let f := fillSegs v (imgSegList i c1) (rd Reg.VAT_FILL_OFFSET c1) c1
      (arrayServes c1 = true → volServes v vatCode c1 = true → f.1 = true → exec (.fillComplete true) s = becomes s (wr Reg.VAT_IMG_RESULT 0 f.2)) ∧
      exec (.fillComplete false) s = becomes s (raise 0x71 0x0804 0 (wr Reg.VAT_IMG_RESULT 3 c1))) ∧
    (c.vatFill = none → ∀ ok, exec (.fillComplete ok) s = becomes s c) ∧
    (c.vatRels.find? (fun x => x.image == i.val && x.acc == a.val && x.ticket.isNone) = some r →
      (imgRuns i a c = true ∨ imgHeld i c = true → exec (.modelReleaseIssue i a) s = becomes s c) ∧
      (imgRuns i a c = false → imgHeld i c = false → c.vatReady = [] → exec (.modelReleaseIssue i a) s = becomes s (releaseDone r c))) ∧
    (c.vatLoads.find? (fun x => x.image == i.val && x.stage == 1) = some l →
      ((∀ b ∈ bitList 8 l.targets, conflicting i b c = []) → ∃ t, exec (.loadStart i) s = .next t ∧ t.pending = s.pending ∧ t.chip.regs = c.regs ∧
        imgLoading i t.chip = imgLoading i c ||| l.targets % 256 ∧ t.chip.vatLoads = c.vatLoads.map fun x => if x = l then { l with stage := 2 } else x) ∧
      ((∃ b ∈ bitList 8 l.targets, conflicting i b c ≠ []) → exec (.loadStart i) s = becomes s c)) ∧
    (c.vatLoads.find? (fun x => x.image == i.val && x.stage == 2) = some l → let w := loadSegs l (imgSegList i c) c
      let f := loadFail l true w.2
      let d := imgPut i 0x20 15 8 (imgLoading i w.2 - (imgLoading i w.2 &&& l.targets)) (imgPut i 0x20 7 0 (imgResident i w.2 ||| l.targets) w.2)
      let e := bump (Reg.VAT_CTR 0) 1 { d with vatLoads := d.vatLoads.filter fun x => x != l }
      (w.1 = true → exec (.loadComplete i) s = settles (loadsGo f.1.toList f.2)) ∧
      (w.1 = false → exec (.loadComplete i) s =
        settles (loadsGo [] (admitHeld i ((bitList 8 l.targets).foldl (fun c a => (modelsOf i c).foldl (fun c m => announce a m c) c) e))))) ∧
    (c.vatLoads = [] → exec (.loadStart i) s = becomes s c ∧ exec (.loadComplete i) s = settles c)

/-- R472, R482, R486, R488: sequences and pages of the KV pager. SEQ_CREATE by PF0 answers a handle, or result 1 when nothing fits; SEQ_FREE frees an idle sequence and refuses a pinned one. A page move that ends well
puts the page in its new place; a tier with bytes enough demotes nothing, and one without moves the pages of its oldest idle sequence one tier down. -/
def Obligations.KvPager : Prop :=
  ∀ (s : State) (p : Party) (model d : Nat) (tier : Tier) (a : Fin 8) (q : KvSeq) (g : KvPage) (m : Nat × Nat × Nat) (res : MoveResult), let c := s.chip
    let settles := fun (c' : Chip) => becomes s (herdSettle c')
    let bad := becomes s (wr (Hdr.REFUSAL_OFFSET 0x72) 0x170 (wr (Hdr.REFUSAL_CODE 0x72) 0x03 c))
    (reaches p 0x72 c → isHost p = true →
      (working 0x72 c = true → let made := seqCreate (model % 4096) (rd Reg.KVP_SEQ_OWNER c) false (fun _ => 3) c
        (∀ h c', made = some (h, c') → exec (.seqCreate p model) s = becomes s (wr Reg.KVP_SEQ_RESULT 0 (wr Reg.KVP_SEQ_HANDLE h c'))) ∧
        (made = none → exec (.seqCreate p model) s = becomes s (wr Reg.KVP_SEQ_RESULT 1 (raise 0x72 0x0903 0 (bump (Reg.KVP_CTR 7) 1 c))))) ∧
      (working 0x72 c = false → exec (.seqCreate p model) s = becomes s (wr Reg.KVP_SEQ_RESULT 2 c)) ∧
      (seqNamed (rd Reg.KVP_SEQ_HANDLE c) c = some q →
        (q.eph = false → q.state ≠ 2 → q.reserved = 0 → seqMoving q.ix c = false → exec (.seqFree p) s = becomes s (wr Reg.KVP_SEQ_RESULT 0 (seqFreeNow q c)) ∧
          seqOf q.ix (seqFreeNow q c) = none ∧ seqPages q.ix (seqFreeNow q c) = []) ∧
        (q.state = 2 → exec (.seqFree p) s = becomes s (wr Reg.KVP_SEQ_RESULT 2 c))) ∧
      (seqNamed (rd Reg.KVP_SEQ_HANDLE c) c = none → exec (.seqFree p) s = becomes s (wr Reg.KVP_SEQ_RESULT 2 c))) ∧
    (reaches p 0x72 c → isHost p = false → exec (.seqCreate p model) s = bad ∧ exec (.seqFree p) s = bad) ∧
    (pageOf d c = some g → g.move = some m → let w := pageData g m c
      (w.1 = .ok → exec (.pageMoveDone d .ok) s = settles (kvCounts (seqSettle g.seq (pageArrive g m w.2)))) ∧
      exec (.pageMoveDone d .aborted) s = settles (kvCounts (seqSettle g.seq (pageGo d (setPage { g with move := none } c)).2))) ∧
    (pageOf d c = none → exec (.pageMoveDone d res) s = settles c) ∧
    let t := tierNo tier
    let size := (tierSpace t a c).2
    let here := fun (s : KvSeq) => (seqPages s.ix c).filter fun p => inTier p.tier p.acc t a && p.move.isNone
    (size * rd Reg.KVP_FREE_MIN c ≤ 64 * tierFree t a c → exec (.tierDemote tier a) s = becomes s c) ∧
    (working 0x72 c = true → 64 * tierFree t a c < size * rd Reg.KVP_FREE_MIN c → tier ≠ .cellar →
      oldestIdle (fun s => s.state == 1 && !s.freeing && !(here s).isEmpty && !(t == 2 && s.eph)) c.kvSeqs = some q →
      let c' := (pagesGo (t + 1) 0 (here q) c).2
      exec (.tierDemote tier a) s = becomes s (kvCounts (if seqMoving q.ix c' then setSeq { q with state := 3 } c' else c')))

/-! ### Layby (chapter 12) -/

/-- R499–R502, R522–R526, R528, R529, R531, R534, R538, R539: a job's life. A command in a state that does not accept it ends with `CMD_RESULT` 1; an unsound START or RESTORE ends with 2; a sound START makes
the job's registers and, on a member that is not the leader, sends START_REPORT; PARTNER makes it RUNNING; a sound RESTORE is RESTORING until its epoch is placed or none is restorable; END_JOB makes the member IDLE.
A notice holds the member at S + 1 and reaches the leader; HALT_AT sets the ceiling; HALT_NOW, a missing report and an expired wait stop it. -/
def Obligations.LaybyJobs : Prop :=
  ∀ (s : State) (p : Party) (m : LbyMsg) (l e d : Nat) (placed : List LbyPlaced) (conflicts : List LbyConflict) (failed : Bool), let c := s.chip
    let job := rd Reg.LBY_JOB_STATE c
    let running := job = 1 ∨ job = 2
    let no := fun (code : Nat) => becomes s (wr Reg.LBY_CMD_RESULT code (wr Reg.LBY_CMD_BUSY 0 c))
    let turned := becomes s (wr Reg.LBY_CMD_RESULT 1 c)
    let fresh := fun (d : Chip) => rd Reg.LBY_CMD_BUSY d = 1 ∧ rd Reg.LBY_STEP d = 0 ∧ rd Reg.LBY_COMMITTED d = 0 ∧ rd Reg.LBY_DURABLE d = 0 ∧ rd Reg.LBY_CEILING d = 0xFFFFFFFFFF ∧
      rd Reg.LBY_LEADER d = l % 2 ^ 16 ∧ d.mem = c.mem ∧ d.lby.run = none ∧ d.lby.own = false
    let held := fun (n d : Chip) => rd Reg.LBY_JOB_STATE d = 2 ∧ rd Reg.LBY_CEILING d = min (rd Reg.LBY_CEILING n) (rd Reg.LBY_STEP n + 1) % 2 ^ 40
    let noticed := fun (i : Instr) (at' : Nat) => let n := wakeHosts 0 (nodeRecord 3 (wr Reg.LBY_RECLAIM_DEADLINE at' c))
      job = 1 → c.lby.own = false → rd Reg.LBY_LEADER n ≠ rd Reg.LBY_MY_RANK n →
        ∃ d, exec i s = becomes s (lbySend 0x04 (rd Reg.LBY_LEADER d) [at'] d) ∧ held n d ∧ d.lby.own = true ∧ d.lby.deadline = some at' ∧ d.mem = n.mem
    let leads := rd Reg.LBY_LEADER c = rd Reg.LBY_MY_RANK c
    (reaches p 0x78 c →
      (working 0x78 c = false → exec (.lbyStart p) s = turned ∧ exec (.lbyRestore p) s = turned ∧ exec (.endJob p) s = turned) ∧
      (working 0x78 c = true →
        (job ≠ 0 → job ≠ 5 → exec (.lbyStart p) s = turned ∧ exec (.lbyRestore p) s = turned) ∧
        (job = 0 ∨ job = 5 →
          (lbyJobOk c = false → exec (.lbyStart p) s = no 2 ∧ exec (.lbyRestore p) s = no 2) ∧
          (lbyJobOk c = true → (lbyRanks c).head? = some l → l % 2 ^ 16 ≠ rd Reg.LBY_MY_RANK c →
            (∃ d, exec (.lbyStart p) s = becomes s (lbySend 0x02 (rd Reg.LBY_LEADER d) [lbyBytes c, rd Reg.LBY_HELD_SIZE c] d) ∧ fresh d ∧ rd Reg.LBY_JOB_STATE d = job) ∧
            (∃ d, exec (.lbyRestore p) s = becomes s d ∧ fresh d ∧ rd Reg.LBY_JOB_STATE d = 6))) ∧
        (job = 0 ∨ job = 3 ∨ job = 5 → ∃ d, exec (.endJob p) s = becomes s d ∧ rd Reg.LBY_JOB_STATE d = 0 ∧ rd Reg.LBY_CMD_RESULT d = 0 ∧ d.lby = LbySt.idle) ∧
        (job ≠ 0 → job ≠ 3 → job ≠ 5 → exec (.endJob p) s = turned) ∧
        noticed (.reclaimGo p) (rd Reg.LBY_RECLAIM_DEADLINE c))) ∧
    (lbyHeeds m c = true →
      noticed (.reclaim m) m.a0 ∧
      (rdb Reg.LBY_CMD_BUSY c = true → job ≠ 6 →
        (m.a1 < rd Reg.LBY_MEMBERS c → ∃ d, exec (.partner m) s = becomes s d ∧ rd Reg.LBY_JOB_STATE d = 1 ∧ rd Reg.LBY_PARTNER d = m.a1 % 2 ^ 16 ∧ d.lby.next = m.a0 ∧ rd Reg.LBY_CMD_RESULT d = 0 ∧
          rd Reg.LBY_CMD_BUSY d = 0) ∧
        (rd Reg.LBY_MEMBERS c ≤ m.a1 → exec (.partner m) s = becomes s (raise 0x78 0x0A01 2 (wr Reg.LBY_CMD_RESULT 3 (wr Reg.LBY_CMD_BUSY 0 c))))) ∧
      (rdb Reg.LBY_CMD_BUSY c = false → exec (.startReport m) s = becomes s { c with lby := { c.lby with reports := (m.rank, m.a0, m.a1) :: c.lby.reports.filter fun x => x.1 != m.rank } }) ∧
      (running → ¬ leads → ∃ d, exec (.haltQuery m) s = becomes s (lbySend 0x05 m.rank [rd Reg.LBY_STEP d] d) ∧ held c d ∧ rd Reg.LBY_STEP d = rd Reg.LBY_STEP c ∧ d.mem = c.mem) ∧
      (running → c.lby.goHeld = false → ∃ d, exec (.haltAt m) s = becomes s d ∧ rd Reg.LBY_JOB_STATE d = 2 ∧ rd Reg.LBY_CEILING d = m.a0 % 2 ^ 40 ∧ d.lby.last = some m.a0 ∧
        (m.a0 ≤ rd Reg.LBY_STEP c + 1 → rd Reg.COL_STOP_ARM d = 1) ∧ d.mem = c.mem) ∧
      (running → ∃ d, exec (.haltNow m) s = becomes s (lbyStop d) ∧ rd Reg.LBY_JOB_STATE d = 2 ∧ d.lby.goHeld = true ∧ d.lby.wait = none ∧ d.lby.last = none ∧
        rd Reg.LBY_CEILING d = rd Reg.LBY_STEP d % 2 ^ 40) ∧
      (¬ running → exec (.haltQuery m) s = becomes s c ∧ exec (.haltAt m) s = becomes s c ∧ exec (.haltNow m) s = becomes s c) ∧
      (c.lby.steps = none → exec (.haltReport m) s = becomes s c) ∧
      (∀ rs, c.lby.steps = some rs → let all := (m.rank, m.a0) :: rs.filter fun x => x.1 != m.rank
        let n : Chip := { c with lby := { c.lby with steps := some all } }
        ((lbyRanks c).all (fun r => all.any fun x => x.1 == r) = false → exec (.haltReport m) s = becomes s n) ∧
        ((lbyRanks c).all (fun r => all.any fun x => x.1 == r) = true → c.lby.last = none → let t := (all.map (·.2)).foldl max 0 + 1
          exec (.haltReport m) s = becomes s (lbyHaltAt t (lbySendAll 0x06 [t] n)))) ∧
      (m.a0 < rd Reg.LBY_MEMBERS c → m.a0 ≠ rd Reg.LBY_MY_RANK c → ∃ d, exec (.depart m) s = becomes s d ∧ d.lby.stale = true ∧
        (rd Reg.LBY_MEMBER_TABLE c + 8 * m.a0 + 8 ≤ 2 ^ 64 → lbyDeparted m.a0 d = true))) ∧
    (lbyHeeds m c = false → exec (.startReport m) s = becomes s c ∧ exec (.partner m) s = becomes s c ∧ exec (.haltReport m) s = becomes s c ∧ exec (.depart m) s = becomes s c) ∧
    (job = 6 →
      exec (.restoreComplete none placed conflicts failed) s = becomes s (wr Reg.LBY_CMD_RESULT 4 (wr Reg.LBY_CMD_BUSY 0 (wr Reg.LBY_JOB_STATE 0 c))) ∧
      (∃ d, exec (.restoreComplete (some e) placed conflicts failed) s = becomes s d ∧ rd Reg.LBY_JOB_STATE d = 1 ∧ rd Reg.LBY_COMMITTED d = e % 2 ^ 64 ∧ d.lby.next = e + 1 ∧
        rd Reg.LBY_CMD_RESULT d = 0 ∧ rd Reg.LBY_CMD_BUSY d = 0)) ∧
    (job ≠ 6 → exec (.restoreComplete (some e) placed conflicts failed) s = becomes s c) ∧
    (job = 2 → c.lby.steps ≠ none →
      exec .stopWaitExpiry s = becomes s (lbyHaltNow (lbySendAll 0x07 [] c)) ∧
      (c.lby.last = none → exec .haltQueryTimeout s = becomes s (lbyHaltNow (lbySendAll 0x07 [] c))) ∧
      (c.lby.last = some d → exec .haltQueryTimeout s = becomes s c)) ∧
    (job ≠ 2 → exec .stopWaitExpiry s = becomes s c ∧ exec .haltQueryTimeout s = becomes s c) ∧
    (job = 4 → c.lby.shifted = false → ¬ leads → let n := raise 0x78 0x0A05 2 { c with lby := { c.lby with drains := [], shifted := true } }
      (c.lby.left = true → exec .handbackAbandon s = becomes s n) ∧
      (c.lby.left = false → exec .handbackAbandon s = becomes s (lbyDepart (rd Reg.LBY_MY_RANK n) n))) ∧
    (job ≠ 4 → exec .handbackAbandon s = becomes s c)

/-- R510–R514, R516, R519–R521: epochs. The least mark of the accelerators makes the step; a capture whose slices are read poisoned aborts the epoch; HELD_OK with every digest answered makes the member
PREPARED; the last PREPARED lets the leader commit; COMMIT makes the epoch COMMITTED and ABORT_EPOCH ends it with `COMMITTED` as it was; the timers abort it or seek a new leader; a drain that is confirmed makes the
epoch durable. -/
def Obligations.LaybyEpochs : Prop :=
  ∀ (s : State) (m : LbyMsg) (r : LbyRun) (a : Fin 8) (step t e : Nat) (ckpt : Bool) (x : Nat × List Nat), let c := s.chip
    let leads := rd Reg.LBY_LEADER c = rd Reg.LBY_MY_RANK c
    let with' := fun (r : LbyRun) => ({ c with lby := { c.lby with run := some r } } : Chip)
    let ended := fun (d : Chip) => d.lby.run = none ∧ lbyTries r.epoch d = lbyTries r.epoch c + 1 ∧ rd Reg.LBY_COMMITTED d = rd Reg.LBY_COMMITTED c ∧
      rd (Reg.LBY_CTR 1) d = (rd (Reg.LBY_CTR 1) c + 1) % 2 ^ 64 ∧ (rd (Hdr.ERR_STATUS 0x78) d).testBit 1 = true
    (lbyHeeds m c = true →
      (c.lby.run = some r → r.epoch = m.a0 →
        (r.stage = 2 →
          (r.due ≠ 0 → exec (.heldOk m) s = becomes s (with' { r with held := true })) ∧
          (r.due = 0 → ¬ leads → let n := slotMark (nearSlot r.epoch c) 2 (with' { r with held := true })
            exec (.heldOk m) s = becomes s (lbySend 0x0B (rd Reg.LBY_LEADER c) [r.epoch] { n with lby := { c.lby with run := some { r with held := true, stage := 3 } } }))) ∧
        (r.stage ≠ 2 → exec (.heldOk m) s = becomes s c) ∧
        (r.stage = 1 → exec (.digestMsg m) s = becomes s { c with lby := { c.lby with digests := c.lby.digests ++ [m] } }) ∧
        (r.stage ≠ 1 → lbyNamed m c = some x → let h := nearHeader r.epoch x.1 c
          r.held = false → hdrF h 0x28 63 0 = m.a3 → hdrF h 0x30 63 0 = m.a4 → exec (.digestMsg m) s = becomes s (with' { r with due := r.due - 1 })) ∧
        (2 ≤ r.stage → lbyNamed m c = some x → exec (.writeToo m) s = becomes s (lbyDiverged r.epoch x.1 c)) ∧
        (r.stage = 1 → exec (.writeToo m) s = becomes s c) ∧
        (r.stage = 3 → r.final = false → c.lby.query = none → c.lby.wait = none → rd Reg.LBY_COMMITTED c < m.a0 → rd Reg.LBY_DUR_KIND c = 0 → m.a0 < 2 ^ 64 →
          ∃ d, exec (.commit m) s = becomes s d ∧ rd Reg.LBY_COMMITTED d = m.a0 ∧ rd (Reg.LBY_CTR 0) d = (rd (Reg.LBY_CTR 0) c + 1) % 2 ^ 64 ∧ d.lby.run = none ∧ d.lby.next = m.a0 + 1 ∧
            (∀ h ∈ d.lby.held, h.epoch = m.a0 → h.state = 3)) ∧
        (r.stage ≠ 3 → c.lby.query = none → exec (.commit m) s = becomes s c) ∧
        (c.lby.query = none → c.lby.wait = none → rd Reg.LBY_COMMITTED c < m.a0 → ∃ d, exec (.abortEpoch m) s = becomes s d ∧ ended d)) ∧
      (c.lby.query = none → c.lby.wait = none → m.a0 ≤ rd Reg.LBY_COMMITTED c → exec (.abortEpoch m) s = becomes s c) ∧
      (c.lby.query = none → c.lby.next ≠ m.a0 → exec (.prepared m) s = becomes s c) ∧
      (c.lby.query = none → c.lby.next = m.a0 → c.lby.run = some r → r.stage = 3 → let n : Chip := { c with lby := { c.lby with ready := setAdd c.lby.ready m.rank } }
        ((lbyRanks c).all (fun q => n.lby.ready.elem q) = false → exec (.prepared m) s = becomes s n) ∧
        ((lbyRanks c).all (fun q => n.lby.ready.elem q) = true →
          exec (.prepared m) s = becomes s (lbyCommit r.epoch (lbySendAll 0x0C [r.epoch] (slotMark (nearSlot r.epoch n) 3 n))))) ∧
      (m.a0 ≤ rd Reg.LBY_COMMITTED c → exec (.decisionQuery m) s = becomes s (lbySend 0x0C m.rank [m.a0] (wr Reg.LBY_LEADER m.rank c))) ∧
      (rd Reg.LBY_COMMITTED c < m.a0 → c.lby.run = some r → r.epoch = m.a0 → r.stage = 3 → exec (.decisionQuery m) s = becomes s (lbySend 0x0B m.rank [m.a0] (wr Reg.LBY_LEADER m.rank c))) ∧
      (rd Reg.LBY_COMMITTED c < m.a0 → c.lby.run = none →
        exec (.decisionQuery m) s = becomes s (lbySend 0x0D m.rank [m.a0, (freeVal c).toNat] (useFree (wr Reg.LBY_LEADER m.rank c)))) ∧
      (rd Reg.LBY_DUR_KIND c = 1 → m.dev = rd Reg.LBY_DUR_DEV c → c.lby.drains.head? ≠ some m.a0 → exec (.drained m) s = becomes s c) ∧
      (rd Reg.LBY_DUR_KIND c ≠ 1 → ¬ leads → exec (.drained m) s = becomes s { c with lby := { c.lby with drained := (m.rank, m.a0) :: c.lby.drained.filter fun x => x.1 != m.rank } })) ∧
    (working 0x78 c = true → rd Reg.LBY_JOB_STATE c = 1 →
      (a.val ∉ lbyAccs c → exec (.stepMark a step ckpt) s = becomes s c) ∧
      (lbyAccs c = [a.val] → c.lby.acted = some t → t < step → step < 2 ^ 40 → ckpt = false → c.lby.last = none → rd Reg.LBY_MARK_AREA c + 512 ≤ 2 ^ 64 →
        ∃ d, exec (.stepMark a step ckpt) s = becomes s (lbyGo step d) ∧ rd Reg.LBY_STEP d = step ∧ d.lby.acted = some step ∧ lbyMark a.val d = step) ∧
      (lbyAccs c = [a.val] → c.lby.acted = some t → step ≤ t → step < 2 ^ 40 → rd Reg.LBY_MARK_AREA c + 512 ≤ 2 ^ 64 →
        ∃ d, exec (.stepMark a step ckpt) s = becomes s d ∧ rd Reg.LBY_STEP d = rd Reg.LBY_STEP c ∧ d.lby.acted = some t)) ∧
    (working 0x78 c = true → c.lby.run = some r → r.stage = 1 → let p := raise 0x78 0x0A07 2 c
      exec (.captureEnd true []) s = becomes s (lbyGo r.step (lbyAbortAll p))) ∧
    (c.lby.run = none → exec (.captureEnd false []) s = becomes s c ∧ exec .epochTimeout s = becomes s c ∧ exec .decisionTimeout s = becomes s c) ∧
    (c.lby.run = some r →
      (leads → 2 ≤ r.stage → exec .epochTimeout s = becomes s (lbyResume (lbyAbortAll c))) ∧
      (¬ leads ∨ r.stage = 1 → exec .epochTimeout s = becomes s c) ∧
      (r.stage = 3 → ¬ leads → let n : Chip := { c with lby := { c.lby with failed := setAdd c.lby.failed (rd Reg.LBY_LEADER c) } }
        (lbyLeaderOf n % 2 ^ 16 ≠ rd Reg.LBY_MY_RANK c → exec .decisionTimeout s = becomes s (wr Reg.LBY_LEADER (lbyLeaderOf n) n)) ∧
        (lbyLeaderOf n % 2 ^ 16 = rd Reg.LBY_MY_RANK c → ∃ d, exec .decisionTimeout s = becomes s (lbySendAll 0x10 [r.epoch] d) ∧ d.lby.query = some (r.epoch, []) ∧
          rd Reg.LBY_LEADER d = rd Reg.LBY_MY_RANK c)) ∧
      (r.stage ≠ 3 ∨ leads → exec .decisionTimeout s = becomes s c)) ∧
    (c.lby.drains = [] → exec .drainDurable s = becomes s c ∧ exec .drainRetry s = becomes s c) ∧
    (c.lby.drains = [e] →
      exec .drainRetry s = becomes s (lbyDrainStart e (raise 0x78 0x0A04 2 c)) ∧
      (working 0x78 c = true → leads → rd Reg.LBY_DUR_KIND c = 1 → c.lby.wait = none → rd Reg.LBY_JOB_STATE c ≠ 4 →
        ∃ d, exec .drainDurable s = becomes s d ∧ rd Reg.LBY_DURABLE d = e % 2 ^ 64 ∧ d.lby.drains = [] ∧ rd (Reg.LBY_CTR 4) d = (rd (Reg.LBY_CTR 4) c + ((lbyWrites e c).map (·.2)).sum) % 2 ^ 64))

/-! ### Waymark contexts (chapter 13), Toll (chapter 15), the Ethernet ports and the Separator (chapter 14) -/

/-- R50, R559, R561, R563: the commands on a Waymark context by a party with a copy of the banked registers. CLAIM takes a context without an owner and makes its sums 0; CLEAR makes the sums of an own context 0;
RELEASE frees it; another owner's context, one that is taken, a Layby context and the reserved code end with their result and change nothing else. A party without such a copy is refused with 0x03. -/
def Obligations.WaymarkContexts : Prop :=
  ∀ (s : State) (p : Party) (b j : Nat), let c := s.chip
    let k := rdB b Reg.WMK_CTX_SEL c
    let x := wmkGet k c
    let me := ownerCode p c
    let ends := fun (i : Instr) (code : Nat) => exec i s = becomes s (wrB b Reg.WMK_CTX_RESULT code c)
    let does := fun (i : Instr) (y : WmkCtx) => ∃ t, exec i s = .next t ∧ t.pending = s.pending ∧ wmkGet k t.chip = y ∧ (j ≠ k → wmkGet j t.chip = wmkGet j c) ∧
      rdB b Reg.WMK_CTX_RESULT t.chip = 0 ∧ t.chip.mem = c.mem
    reaches p 0x79 c →
    (bankOf p c = none → ∀ i ∈ [Instr.claim p, .clear p, .release p, .ctxCmdReserved p], exec i s = becomes s (refuse 0x79 0x03 0x104 c)) ∧
    (bankOf p c = some b →
      ends (.ctxCmdReserved p) 4 ∧
      (0xFF00 ≤ k → ends (.claim p) 3 ∧ ends (.clear p) 3 ∧ ends (.release p) 3) ∧
      (k < 0xFF00 →
        (x.owner = 0xFFFF → does (.claim p) { x with owner := me, spoiled := false, sum0 := 0, sum1 := 0, adds := 0 }) ∧
        (x.owner ≠ 0xFFFF → ends (.claim p) 2) ∧
        (x.owner = me → does (.clear p) { x with spoiled := false, sum0 := 0, sum1 := 0, adds := 0 } ∧ does (.release p) WmkCtx.free) ∧
        (x.owner ≠ me → ends (.clear p) 1 ∧ ends (.release p) 1)))

/-- R606, R610, R611, R621, R626, R628: the commands of the TOL page. LOAD shows a queue's or shaper's configuration in the staging registers; COMMIT is refused by the conditions of R610, else it makes the staged fields the
configuration, fills or empties the buckets and clears the deficit, of the selected queue alone; a shaper takes a burst below 9,600 B only while it is disabled; a ring is made ACTIVE after its check and RESET by its owner. -/
def Obligations.TollConfiguration : Prop :=
  ∀ (s : State) (p : Party) (b k tail : Nat) (r : Fin 8192), let c := s.chip
    let port := rdB b Reg.TOL_Q_PORT c
    let q := rdB b Reg.TOL_Q_INDEX c
    let x := tolGet port q c
    let sh := rdB b Reg.TOL_SHP_SEL c
    let y := shpGet sh c
    let g := fun (f : Fld) => rdB b f c
    let role := g Reg.TOL_ROLE
    let bad := (g Reg.TOL_METER_EN = 1 ∧ g Reg.TOL_PIR < g Reg.TOL_CIR) ∨ (role = 1 ∧ g Reg.TOL_METER_EN = 1 ∧ g Reg.TOL_PBS < rd (Reg.ETH_MAX_FRAME (port / 4) (port % 4)) c) ∨
      (g Reg.TOL_WEIGHT = 0 ∧ role = 1 ∧ 4 ≤ q) ∨ (g Reg.TOL_WEIGHT ≠ 0 ∧ q < 4) ∨ role = 3
    let mine := ownerCode p c = txOwner r c ∨ (isControl p c = true ∧ isStallCode (txOwner r c) = true)
    (ownerCode p c = txOwner r c → txActive r c = true → pageState 0x30 c ≠ 6 →
      exec (.txTail p r tail) s = becomes s { c with txTail := mapPut 0 c.txTail r.val (tail % 2 ^ 15) }) ∧
    (ownerCode p c ≠ txOwner r c ∨ txActive r c = false → exec (.txTail p r tail) s = becomes s (raise 0x40 0x040D 0 c)) ∧
    (reaches p 0x30 c →
      (tolMay p c = false →
        (∀ i ∈ [Instr.qLoad p, .qCommit p], exec i s = becomes s (refuse 0x30 0x03 0x104 c)) ∧ (∀ i ∈ [Instr.shpLoad p, .shpCommit p], exec i s = becomes s (refuse 0x30 0x03 0x184 c)) ∧
        (∀ i ∈ [Instr.txqReset p r, .txqActive p r], exec i s = becomes s (refuse 0x30 0x03 0x298 c))) ∧
      (tolMay p c = true → bankOf p c = some b →
        (∃ t, exec (.qLoad p) s = .next t ∧ t.pending = s.pending ∧ rdB b Reg.TOL_CIR t.chip = x.cir % 2 ^ 32 ∧ rdB b Reg.TOL_PIR t.chip = x.pir % 2 ^ 32 ∧ rdB b Reg.TOL_CBS t.chip = x.cbs % 2 ^ 24 ∧
          rdB b Reg.TOL_PBS t.chip = x.pbs % 2 ^ 24 ∧ rdB b Reg.TOL_WEIGHT t.chip = x.weight % 2 ^ 8 ∧ rdB b Reg.TOL_ROLE t.chip = x.role % 2 ^ 2 ∧ rdB b Reg.TOL_RESET_MODE t.chip = b2n x.zero ∧
          rdB b Reg.TOL_METER_EN t.chip = b2n x.meter ∧ rdB b Reg.TOL_COLOUR_AWARE t.chip = b2n x.aware ∧ rdB b Reg.TOL_RED_DROP t.chip = b2n x.redDrop ∧ rdB b Reg.TOL_PFC_PRIO t.chip = x.prio % 2 ^ 3 ∧
          rdB b Reg.TOL_PFC_BOUND t.chip = b2n x.bound ∧ rd Reg.TOL_Q_RESULT t.chip = 0 ∧ t.chip.tolQs = c.tolQs ∧ t.chip.mem = c.mem) ∧
        (bad → exec (.qCommit p) s = becomes s (wr Reg.TOL_Q_RESULT 1 c)) ∧
        (¬ bad → ∃ t, exec (.qCommit p) s = .next t ∧ t.pending = s.pending ∧ rd Reg.TOL_Q_RESULT t.chip = 0 ∧ t.chip.mem = c.mem ∧ (k ≠ tolKey port q → mapGet TolQ.off t.chip.tolQs k = mapGet TolQ.off c.tolQs k) ∧
          tolGet port q t.chip =
            { x with cir := g Reg.TOL_CIR, pir := g Reg.TOL_PIR, cbs := g Reg.TOL_CBS, pbs := g Reg.TOL_PBS, weight := g Reg.TOL_WEIGHT, role := role, zero := g Reg.TOL_RESET_MODE == 1, meter := g Reg.TOL_METER_EN == 1,
                     aware := g Reg.TOL_COLOUR_AWARE == 1, redDrop := g Reg.TOL_RED_DROP == 1, prio := g Reg.TOL_PFC_PRIO, bound := g Reg.TOL_PFC_BOUND == 1, deficit := 0,
                     cTok := if g Reg.TOL_RESET_MODE = 1 then 0 else 65536 * (g Reg.TOL_CBS : Int), pTok := if g Reg.TOL_RESET_MODE = 1 then 0 else 65536 * (g Reg.TOL_PBS : Int) }) ∧
        (∃ t, exec (.shpLoad p) s = .next t ∧ t.pending = s.pending ∧ rdB b Reg.TOL_SHP_RATE t.chip = y.rate % 2 ^ 32 ∧ rdB b Reg.TOL_SHP_BURST t.chip = y.burst % 2 ^ 24 ∧ rdB b Reg.TOL_SHP_WEIGHT t.chip = y.weight % 2 ^ 8 ∧
          rdB b Reg.TOL_SHP_EN t.chip = b2n y.en ∧ rdB b Reg.TOL_SHP_RESET_MODE t.chip = b2n y.zero ∧ rd Reg.TOL_SHP_RESULT t.chip = 0 ∧ t.chip.tolShp = c.tolShp ∧ t.chip.mem = c.mem) ∧
        (g Reg.TOL_SHP_EN = 1 → g Reg.TOL_SHP_BURST < 9600 → exec (.shpCommit p) s = becomes s (wr Reg.TOL_SHP_RESULT 1 c)) ∧
        (g Reg.TOL_SHP_EN ≠ 1 ∨ 9600 ≤ g Reg.TOL_SHP_BURST → ∃ t, exec (.shpCommit p) s = .next t ∧ t.pending = s.pending ∧ rd Reg.TOL_SHP_RESULT t.chip = 0 ∧ t.chip.mem = c.mem ∧
          (k ≠ sh → shpGet k t.chip = shpGet k c) ∧
          shpGet sh t.chip = { rate := g Reg.TOL_SHP_RATE, burst := g Reg.TOL_SHP_BURST, weight := g Reg.TOL_SHP_WEIGHT, en := g Reg.TOL_SHP_EN == 1, zero := g Reg.TOL_SHP_RESET_MODE == 1,
                               tok := if g Reg.TOL_SHP_RESET_MODE = 1 then 0 else 65536 * (g Reg.TOL_SHP_BURST : Int) })) ∧
      (tolMay p c = true → ¬ mine → exec (.txqReset p r) s = becomes s (wr Reg.TOL_TXQ_RESULT 1 c) ∧ exec (.txqActive p r) s = becomes s (wr Reg.TOL_TXQ_RESULT 1 c)) ∧
      (tolMay p c = true → mine → rd Reg.TOL_TXQ_TABLE c + 64 * r + 64 ≤ 2 ^ 64 →
        (∃ t, exec (.txqReset p r) s = .next t ∧ t.pending = s.pending ∧ txActive r t.chip = false ∧ txHead r t.chip = 0 ∧ mapGet 0 t.chip.txTail r.val = 0 ∧ rd Reg.TOL_TXQ_RESULT t.chip = 0) ∧
        (txActive r c = true ∨ txContextOk r c = false → exec (.txqActive p r) s = becomes s (wr Reg.TOL_TXQ_RESULT 2 c)) ∧
        (txActive r c = false → txContextOk r c = true →
          ∃ t, exec (.txqActive p r) s = .next t ∧ t.pending = s.pending ∧ txActive r t.chip = true ∧ txHead r t.chip = 0 ∧ mapGet 0 t.chip.txTail r.val = 0 ∧ rd Reg.TOL_TXQ_RESULT t.chip = 0)))

/-- R607, R612–R617, R619–R621, R627: frames of a port. The frame of the queue that R614 picks leaves its queue, its buckets pay its length and it is counted by its set; a strict queue that is eligible goes before the weighted
group; a frame of a stall waits while its shaper's bucket is not above 0; a ring's frame is on the wire until its write-back, and one read poisoned is not sent. -/
def Obligations.TollFrames : Prop :=
  ∀ (s : State) (port : Fin 16) (q : Fin 64) (f : TxFrame) (rest : List TxFrame) (d : Chip) (m sh tm : Nat) (x : TxDesc) (poisoned : Bool), let c := s.chip
    let ready := working 0x30 c = true ∧ ethUp port c = true ∧ mapGet none c.tolWire port.val = none
    let y := tolGet port m d
    let green := tolGreen port m d
    let paid := { y with
      pTok := if y.meter then y.pTok - 65536 * (f.len : Int) else y.pTok, cTok := if y.meter = true ∧ green = true then y.cTok - 65536 * (f.len : Int) else y.cTok,
      green := if green then (y.green + 1) % 2 ^ 64 else y.green, yellow := if green then y.yellow else (y.yellow + 1) % 2 ^ 64, deficit := if rest = [] then 0 else y.deficit }
    let left := tolQueueSet port m rest (tolSet port m paid d)
    (¬ ready → exec (.frameTransmitStart port) s = becomes s c) ∧
    (working 0x30 c = false → exec (.shaperAdmit port q) s = becomes s c) ∧
    (ready → c.txTail = [] → c.txWait = [] →
      (tolPick port c = (some m, d) → tolQueue port m d = f :: rest →
        (f.ring = none → exec (.frameTransmitStart port) s = becomes s (emit f.what left)) ∧
        (f.ring = some x → exec (.frameTransmitStart port) s = becomes s { left with tolWire := mapPut none left.tolWire port.val (some (f, now left)) })) ∧
      (m < 4 → tolEligible port m c = true → (∀ n < m, tolEligible port n c = false) → tolPick port c = (some m, c)) ∧
      ((∀ n < 64, tolEligible port n c = false) → (tolPick port c).1 = none)) ∧
    (working 0x30 c = true → c.txTail = [] → c.txWait = [f] → f.port = port → classQueue port f.cls c = (q.val, false) →
      (f.stall = some sh → (shpGet sh c).en = true → (shpGet sh c).tok ≤ 0 → exec (.shaperAdmit port q) s = becomes s c) ∧
      (256 ≤ (tolQueue port q c).length → exec (.shaperAdmit port q) s = becomes s c) ∧
      (f.stall = none → f.ring = none → (tolQueue port q c).length < 256 → mapGet ⟨0, true, []⟩ c.tolAdmit (tolKey port q) = ⟨0, true, []⟩ → f.len ≤ rd Reg.TOL_NONSTALL_WEIGHT c * rd Reg.TOL_QUANTUM c →
        ∃ t, exec (.shaperAdmit port q) s = .next t ∧ t.pending = s.pending ∧ tolQueue port q t.chip = tolQueue port q c ++ [f] ∧ t.chip.txWait = [] ∧ t.chip.mem = c.mem ∧ t.chip.tolShp = c.tolShp)) ∧
    (mapGet none c.tolWire port.val = none → exec (.txWriteback port poisoned) s = becomes s c) ∧
    (mapGet none c.tolWire port.val = some (f, tm) → f.ring = some x → let n : Chip := { c with tolWire := mapPut none c.tolWire port.val none }
      let o := ownRead (txOwner x.ring n) x.addr x.len n
      (poisoned = true ∨ o.2 = true → exec (.txWriteback port poisoned) s = becomes s (txBack x 3 0 (ownReach (txOwner x.ring n) x.addr x.len n))) ∧
      (poisoned = false → o.2 = false → exec (.txWriteback port poisoned) s = becomes s (txBack x 0 tm (emit (.frame port (o.1 ++ leBytes 4 (crc32 o.1))) n))))

/-- R577, R588, R597, R599–R602: changing the Separator's rules. COMMIT ends with 1 for an owner that the party may not stage, 3 outside the owner's range, 2 for an unsound rule, else the staged rule stands valid at its index with no
hits and no other rule changes; INVALIDATE takes its validity; SWAP exchanges the banks unless a shadow rule is unsound; COPY makes the shadow bank equal to the active one; a table entry is written by the table's owner alone. -/
def Obligations.SeparatorRules : Prop :=
  ∀ (s : State) (p : Party) (b v k : Nat) (tb : Fin 256) (j : Fin 512) (pr : Fin 8192), let c := s.chip
    let r := v % 2 ^ 13
    let bank := rd Reg.SEP_ACTIVE_BANK c
    let base := rd Reg.SEP_STALL_BASE c
    let x := stagedRule b c
    let old := ruleGet bank r c
    let may := fun (o : Nat) => isStallCode o = true ∨ (isControl p c = false ∧ ownerCode p c = o)
    let ends := fun (i : Instr) (code : Nat) => exec i s = becomes s (wrB b Reg.SEP_STG_RESULT code c)
    let sets := fun (i : Instr) (y : SepRule) => ∃ t, exec i s = .next t ∧ t.pending = s.pending ∧ ruleGet bank r t.chip = y ∧ rdB b Reg.SEP_STG_RESULT t.chip = 0 ∧ t.chip.mem = c.mem ∧
      (k ≠ ruleBank bank r c * 8192 + r → mapGet SepRule.none t.chip.sepRules k = mapGet SepRule.none c.sepRules k)
    let bad := fun (n : Nat) => (ruleGet (1 - bank) n c).valid = true ∧ ruleAllowed n (ruleGet (1 - bank) n c) c = false
    let own := rd (Reg.SEP_TABLE_OWNER tb) c
    (reaches p 0x28 c →
      (bankOf p c = none → exec (.stgCommit p v) s = becomes s (refuse 0x28 0x03 0x294 c) ∧ exec (.stgInvalidate p v) s = becomes s (refuse 0x28 0x03 0x294 c)) ∧
      (bankOf p c = some b →
        (¬ may x.owner ∨ (old.valid = true ∧ ¬ may old.owner) → ends (.stgCommit p v) 1) ∧
        (may x.owner → (old.valid = false ∨ may old.owner) →
          (¬ (isStallCode x.owner = true ↔ base ≤ r) → ends (.stgCommit p v) 3) ∧
          ((isStallCode x.owner = true ↔ base ≤ r) → ruleAllowed r x c = false → ends (.stgCommit p v) 2) ∧
          ((isStallCode x.owner = true ↔ base ≤ r) → ruleAllowed r x c = true → sets (.stgCommit p v) { x with valid := true, hits := 0, bad := false })) ∧
        (old.valid = true → ¬ may old.owner → ends (.stgInvalidate p v) 1) ∧
        (old.valid = false ∨ may old.owner → sets (.stgInvalidate p v) { old with valid := false })) ∧
      (rd Reg.SEP_SWAP_BUSY c = 1 → exec (.swap p) s = becomes s c) ∧
      (rd Reg.SEP_SWAP_BUSY c ≠ 1 →
        ((∀ n < base, ¬ bad n) → exec (.swap p) s = becomes s (wr Reg.SEP_SWAP_RESULT 0 (wr Reg.SEP_SWAP_BUSY 1 (wr Reg.SEP_ACTIVE_BANK (1 - bank) c)))) ∧
        (r < base → bad r → (∀ n < r, ¬ bad n) → exec (.swap p) s = becomes s (wr Reg.SEP_SWAP_RESULT 1 (wr Reg.SEP_FIRST_BAD_RULE r c)))) ∧
      (bank ≤ 1 → base ≤ 8192 → ∃ t, exec (.copy p) s = .next t ∧ t.pending = s.pending ∧ t.chip.mem = c.mem ∧ t.chip.regs = c.regs ∧
        (∀ n, n < base → ruleGet (1 - bank) n t.chip = ruleGet bank n c) ∧ (∀ n < 8192, ruleGet bank n t.chip = ruleGet bank n c)) ∧
      (own ≠ ownerCode p c ∨ (isStallCode own = true ∧ rxOwner (v % 2 ^ 13) c ≠ own) →
        exec (.tableEntryWrite p tb j v) s = becomes s (refuse 0x28 0x22 ((0x200000 + 2048 * tb + 4 * j) % 0x1000) c)) ∧
      (own = ownerCode p c → isStallCode own = false ∨ rxOwner (v % 2 ^ 13) c = own →
        exec (.tableEntryWrite p tb j v) s = becomes s { c with sepTables := mapPut 0 c.sepTables (tabKey tb j) (v % 2 ^ 13) })) ∧
    ((∀ f ∈ c.sepFrames, f.bank = bank) → exec .swapDone s = becomes s (wr Reg.SEP_SWAP_BUSY 0 c)) ∧
    ((∃ f ∈ c.sepFrames, f.bank ≠ bank) → exec .swapDone s = becomes s c) ∧
    (∃ t, exec (.ruleParity pr) s = .next t ∧ t.pending = s.pending ∧ ruleGet bank pr t.chip = { ruleGet bank pr c with bad := true } ∧ rd Reg.SEP_FIRST_BAD_RULE t.chip = pr.val ∧
      (rd (Hdr.ERR_STATUS 0x28) t.chip).testBit 4 = true ∧ (∀ key, ruleMatch key (ruleGet bank pr t.chip) = false))

/-- R567–R570, R576, R579–R582, R590–R594, R603: received frames and receive queues. The MAC drops and counts a short frame, a long one, one without room, one with a bad FCS; an accepted frame is counted and takes its first pass: with no
matching rule the port's default applies, with one the rule that decides; a queue that is not ACTIVE drops it. A frame whose ring empties is discarded whole; a stale write-back is not written. -/
def Obligations.SeparatorFrames : Prop :=
  ∀ (s : State) (p : Party) (port : Fin 16) (q : Fin 8192) (x : Frame) (id tail prios xoff n : Nat) (f : SepFrame) (w : RxPlace) (b : RxBack) (bs : List RxBack), let c := s.chip
    let g := x.port / 4
    let j := x.port % 4
    let len := x.bytes.length
    let body := x.bytes.take (len - 4)
    let ctr := fun (k : Nat) => bump (Reg.ETH_CTR g j k) 1 c
    let recv := exec (.frameReceive x) s
    let counted := bump (Reg.ETH_CTR g j 1) len (ctr 0)
    let frame : SepFrame := { id := c.sepNext, port := x.port, bytes := body, head := x.bytes.take 64, time := x.time, error := false, bank := rd Reg.SEP_ACTIVE_BANK c, pass := 0, info := 0, fallback := 0,
                              stall := none, cls := none, colour := 0, tollQ := none, hash := 0, rule := none }
    let d := bump (Reg.SEP_CTR 0) 1 { counted with sepNext := c.sepNext + 1 }
    let found := sepLookup frame.bank (passKey frame) d
    (¬ (x.port < 16 ∧ ethUp x.port c = true) → recv = becomes s c) ∧
    (x.port < 16 → ethUp x.port c = true →
      (len < 64 → recv = becomes s (ctr 4)) ∧
      (64 ≤ len →
        (rd (Reg.ETH_MAX_FRAME g j) c < len → recv = becomes s (ctr 5)) ∧
        (len ≤ rd (Reg.ETH_MAX_FRAME g j) c →
          (x.full = true → recv = becomes s (raise (0x20 + g) 0x0D03 0 (ctr 6))) ∧
          (x.full = false →
            (x.fec = true → x.begun = false → recv = becomes s (raise (0x20 + g) 0x0D02 0 (ctr 3))) ∧
            (x.fec = false → x.bytes.drop (len - 4) ≠ leBytes 4 (crc32 body) → x.begun = false → recv = becomes s (ctr 2)) ∧
            (x.fec = false → x.bytes.drop (len - 4) = leBytes 4 (crc32 body) →
              (macAccepts x.port x.bytes c = false → recv = becomes s c) ∧
              (macAccepts x.port x.bytes c = true →
                (working 0x28 c = false → recv = becomes s counted) ∧
                (working 0x28 c = true →
                  (found = none → let e := bump (Reg.SEP_CTR 2) 1 d
                    (rd (Reg.SEP_DEF_KIND x.port) c = 0 → recv = becomes s e) ∧
                    (rd (Reg.SEP_DEF_KIND x.port) c = 1 → recv = becomes s (rxEnter (rd (Reg.SEP_DEF_QUEUE x.port) c) false none frame e)) ∧
                    (rd (Reg.SEP_DEF_KIND x.port) c = 1 → rxActive (rd (Reg.SEP_DEF_QUEUE x.port) c) c = false → recv = becomes s (raise 0x28 0x0C04 0 (bump (Reg.SEP_CTR 5) 1 e)))) ∧
                  (found = some n → let y := ruleGet frame.bank n d
                    let e := ruleSet frame.bank n { y with hits := (y.hits + 1) % 2 ^ 64 } d
                    actF y 77 77 ≠ 1 →
                      (actF y 2 0 = 0 → recv = becomes s e) ∧
                      (actF y 2 0 = 1 → recv = becomes s (rxEnter (actF y 20 8) false (if rd Reg.SEP_STALL_BASE c ≤ n then some y.owner else none) (ruleMarks y n frame) e)))))))))) ∧
    (c.sepFrames = [f] →
      (f.id ≠ id → exec (.recirculatePass id) s = becomes s c) ∧
      (f.id = id → working 0x28 c = true → exec (.recirculatePass id) s = becomes s (pfcUpdate (f.port / 4) (sepPass f { c with sepFrames := [] })))) ∧
    (ownerCode p c = rxOwner q c → rxActive q c = true → pageState 0x28 c ≠ 6 → (getRx q c).frames = [] →
      exec (.rxTail p q tail) s = becomes s (setRx q { getRx q c with tail := tail % 2 ^ 15 } c)) ∧
    (ownerCode p c ≠ rxOwner q c ∨ rxActive q c = false → exec (.rxTail p q tail) s = becomes s (raise 0x40 0x040D 0 c)) ∧
    ((getRx q c).backs = [] → exec (.rxWriteback q) s = becomes s c) ∧
    ((getRx q c).backs = b :: bs → let e := setRx q { getRx q c with backs := bs } c
      (b.gen ≠ rxGen q c → exec (.rxWriteback q) s = becomes s e) ∧
      (b.gen = rxGen q c → b.last = false →
        exec (.rxWriteback q) s = becomes s (ownWrite (rxOwner q c) (rxSlot q b.ix c + 28) (leBytes 4 b.phase) (ownWrite (rxOwner q c) (rxSlot q b.ix c) b.body e)))) ∧
    (c.rxQs = [(q.val, ⟨tail, [w], bs⟩)] →
      (w.frame.id = id → w.frame.error = false → ∃ t, exec (.rxRingEmptyDiscard id) s = .next t ∧ t.pending = s.pending ∧ getRx q t.chip = ⟨tail, [], bs ++ rxBacks w true⟩ ∧
        rd (Reg.SEP_CTR 4) t.chip = (rd (Reg.SEP_CTR 4) c + 1) % 2 ^ 64 ∧ (rd (Hdr.ERR_STATUS 0x28) t.chip).testBit 2 = true ∧ t.chip.mem = c.mem) ∧
      (w.frame.id ≠ id → exec (.rxRingEmptyDiscard id) s = becomes s c)) ∧
    (reaches p 0x28 c →
      (ownerCode p c ≠ rxOwner q c → isStallCode (rxOwner q c) = false → exec (.rxqReset p q) s = becomes s (wr Reg.SEP_RXQ_RESULT 1 c) ∧ exec (.rxqActive p q) s = becomes s (wr Reg.SEP_RXQ_RESULT 1 c)) ∧
      (ownerCode p c = rxOwner q c → rd Reg.SEP_RXQ_TABLE c + 64 * q + 64 ≤ 2 ^ 64 →
        (getRx q c = RxQ.idle → ∃ t, exec (.rxqReset p q) s = .next t ∧ t.pending = s.pending ∧ rxActive q t.chip = false ∧ rxHead q t.chip = 0 ∧ getRx q t.chip = RxQ.idle ∧ rd Reg.SEP_RXQ_RESULT t.chip = 0) ∧
        (rxActive q c = true ∨ rxContextOk q c = false → exec (.rxqActive p q) s = becomes s (wr Reg.SEP_RXQ_RESULT 2 c)) ∧
        (rxActive q c = false → rxContextOk q c = true →
          ∃ t, exec (.rxqActive p q) s = .next t ∧ t.pending = s.pending ∧ rxActive q t.chip = true ∧ rxHead q t.chip = 0 ∧ getRx q t.chip = RxQ.idle ∧ rd Reg.SEP_RXQ_RESULT t.chip = 0))) ∧
    (ethUp port c = false → exec (.pfcFrame port prios xoff) s = becomes s c) ∧
    (ethUp port c = true → rd (Reg.ETH_PFC_EN (port / 4) (port % 4)) c < 256 → ∃ t, exec (.pfcFrame port prios xoff) s = .next t ∧ t.pending = s.pending ∧ rd (Reg.ETH_CTR (port / 4) (port % 4) 7) t.chip = (rd (Reg.ETH_CTR (port / 4) (port % 4) 7) c + 1) % 2 ^ 64 ∧
      ∀ i < 8, (mapGet 0 t.chip.pfcOff port.val).testBit i =
        if prios.testBit i = true ∧ (rd (Reg.ETH_PFC_EN (port / 4) (port % 4)) c).testBit i = true then xoff.testBit i else (mapGet 0 c.pfcOff port.val).testBit i) ∧
    (rd (Reg.ETH_LINK_UP (port / 4) (port % 4)) c ≠ 1 → exec (.ethLinkDown port) s = becomes s c) ∧
    (rd (Reg.ETH_LINK_UP (port / 4) (port % 4)) c = 1 → mapGet none c.tolWire port.val = none → (∀ k < 64, tolQueue port k c = []) → working (0x20 + port / 4) c = false →
      ∃ t, exec (.ethLinkDown port) s = .next t ∧ t.pending = s.pending ∧ rd (Reg.ETH_LINK_UP (port / 4) (port % 4)) t.chip = 0 ∧ mapGet 0 t.chip.pfcOff port.val = 0 ∧ t.chip.mem = c.mem) ∧
    (let up := working (0x20 + port / 4) c = true ∧ portExists port c = true ∧ rd (Reg.ETH_PORT_EN (port / 4) (port % 4)) c = 1;
      (up → exec (.ethLinkUp port) s = becomes s (wr (Reg.ETH_LINK_UP (port / 4) (port % 4)) 1 c)) ∧ (¬ up → exec (.ethLinkUp port) s = becomes s c))

/-! ### Pail (chapter 16) -/

/-- R641, R646–R651, R653, R655–R660, R663: an entry that Pail takes in its turn is decoded, counted, and pauses running self-tests; a stale one is passed over; one that fails a check is answered with its status and nothing else;
a sound one is outstanding, is done at once (IDENTIFY, SET_POWER, `ABORT_TEST`), or answered BUSY. A segment that ends has its effect and frees its staging; a FLUSH ends when every SSD has flushed; a self-test ends with the stripes it checked. -/
def Obligations.PailCommands : Prop :=
  ∀ (s : State) (q : Fin 4096) (tag : Fin 32) (v : Fin 64) (n : Fin 8) (res : SegResult) (checked : Nat) (bads : List (Nat × Nat)) (w y : PalCmd), let c := s.chip
    let ops := [(1, Instr.pailRead q), (2, .pailWrite q), (3, .flush q), (4, .trim q), (5, .verify q), (6, .identify q), (7, .selftestShort q), (8, .selftestExtended q), (9, .setPower q)]
    let takes := working 0x80 c = true ∧ palWaits q c = true ∧ palMyTurn q c = true ∧ (c.palCmds.filter fun x => isRangeOp x.op).length < 4096
    let head := palF q 0x20 27 16 c
    let o := palOwner q c
    let at' := palF q 0 63 12 c * 4096 + 64 * (head % 2 ^ palF q 0 3 0 c)
    let r := palParse (ldBytes (ownerSpace o c) at' 64 c)
    let bad := r.2.2.2 || anyPoison (ownerSpace o c) at' 64 c
    let named := 1 ≤ r.1.op ∧ r.1.op ≤ 9
    let c0 := palPut q 0x20 27 16 (head + 1) { c with palTurn := q }
    let x : PalCmd := { r.1 with n := c0.palNext, queue := q, owner := o, base := rd (Reg.PAL_BASE_STRIPE r.1.vol) c0 }
    let c1 := bump (Reg.PAL_CTR 0) 1 { c0 with palNext := c0.palNext + 1 }
    let cost : Int := ((4096 * max 1 x.blocks : Nat) : Int)
    let c2 := if isStallCode o then { c1 with stallPail := mapPut (0 : Int) c1.stallPail o (mapGet (0 : Int) c1.stallPail o - cost * 65536) } else c1
    let d := palPause (wr Reg.PAL_PS_CUR (if r.1.op = 9 then rd Reg.PAL_PS_CUR c2 else 0) c2)
    let st := palStatus x bad d
    let out := palPut q 0x28 31 0 (palF q 0x28 31 0 { d with palCmds := d.palCmds ++ [x] } ||| 2 ^ x.tag) { d with palCmds := d.palCmds ++ [x] }
    let test := palTest x.vol d
    (¬ takes → ∀ e ∈ ops, exec e.2 s = becomes s c) ∧
    (takes → ∀ k i, (k, i) ∈ ops →
      (named → r.1.op ≠ k → exec i s = becomes s c) ∧
      (r.1.op = k ∨ ¬ named →
        (r.1.gen ≠ palGen q c0 → exec i s = becomes s c0) ∧
        (r.1.gen = palGen q c0 → st ≠ 0 → exec i s = becomes s (palRecord q x.cmdId x.tag x.gen st 0 d)) ∧
        (¬ named → bad = true) ∧ (bad = true → st = 1)) ∧
      (r.1.op = k → r.1.gen = palGen q c0 → st = 0 →
        (k = 1 ∨ k = 2 ∨ k = 4 ∨ k = 5 → exec i s = becomes s (palRun out)) ∧
        (k = 3 → exec i s = becomes s out) ∧
        (k = 6 → exec i s = becomes s (palEnd x 0 (bufWrite o x.target x.port x.addr (palIdentity x.vol d) d))) ∧
        (k = 9 → r.2.1 ≤ rd Reg.PAL_PS_CUR (wr Reg.PAL_PS_MAX r.2.1 d) → exec i s = becomes s (palEnd x 0 (wr Reg.PAL_PS_MAX r.2.1 d))) ∧
        (k = 7 ∨ k = 8 →
          (r.2.2.1 = true → test = none → exec i s = becomes s (palEnd x 0 d)) ∧
          (r.2.2.1 = true → test = some y → exec i s = becomes s (palEnd x 0 (palEnd y 7 (wr (Reg.PAL_TEST_STATE x.vol) 0 d)))) ∧
          (r.2.2.1 = false → test = some y → exec i s = becomes s (palEnd x 8 d)) ∧
          (r.2.2.1 = false → test = none → ∃ t, exec i s = .next t ∧ t.pending = s.pending ∧ t.chip.palCmds = d.palCmds ++ [x] ∧ rd (Reg.PAL_TEST_STATE x.vol) t.chip = 1 ∧ rd (Reg.PAL_TEST_DONE x.vol) t.chip = 0)))) ∧
    (c.palCmds = [] → exec (.segmentDone q tag res) s = becomes s c ∧ exec (.ssdFlushComplete v n) s = becomes s c ∧ exec (.selftestComplete v checked bads) s = becomes s c) ∧
    (c.palCmds = [w] →
      (w.queue = q → w.tag = tag → (∃ a ∈ w.active, a.1 = res.seg) → let g := (palSegs w).getD res.seg (0, 0)
        let e := segEffect w g (((w.active.find? fun a => a.1 == res.seg).map (·.2)).getD []) res.bad c
        exec (.segmentDone q tag res) s = becomes s (palRun (setPalCmd { w with active := w.active.filter (fun a => a.1 != res.seg), done := w.done + g.2, status := if e.1 = true ∧ w.status = 0 then 5 else w.status } e.2))) ∧
      ((w.queue ≠ q ∨ w.tag ≠ tag ∨ ∀ a ∈ w.active, a.1 ≠ res.seg) → exec (.segmentDone q tag res) s = becomes s c) ∧
      (w.op = 3 → w.vol = v → let w' := { w with flushed := setAdd w.flushed n.val }
        ((∀ k < 8, ssdMissing k c = true ∨ k ∈ w'.flushed) → exec (.ssdFlushComplete v n) s = becomes s (palEnd w' 0 { c with palCmds := [w'] })) ∧
        ((∃ k < 8, ssdMissing k c = false ∧ k ∉ w'.flushed) → exec (.ssdFlushComplete v n) s = becomes s { c with palCmds := [w'] })) ∧
      (w.op = 7 ∨ w.op = 8 → w.vol = v →
        (rd (Reg.PAL_TEST_STATE v) c ≠ 1 → exec (.selftestComplete v checked bads) s = becomes s c) ∧
        (rd (Reg.PAL_TEST_STATE v) c = 1 → let all := testStripes v (w.op == 7) c
          let l := if w.op = 7 then all.take checked else all
          let e := stripesCheck bads l c
          exec (.selftestComplete v checked bads) s =
            becomes s (palEnd { w with done := l.length } (if e.1 = true then 5 else 0) (wr (Reg.PAL_TEST_DONE v) l.length (wr (Reg.PAL_TEST_STATE v) 0 e.2))))))

/-- R632–R634, R639–R644, R650, R659, R661, R662, R664: the array and the queues. Doorbells of an ACTIVE queue's owner count, others are dropped and counted; a queue enters RESET and ACTIVE on its owner's command; a volume becomes valid when
it lies in the array and overlaps none; a failed SSD is missing and the array's state follows their number; a rebuild starts on a missing slot that holds a fitting SSD and ends with the slot in service; idle time deepens the power state. -/
def Obligations.PailArray : Prop :=
  ∀ (s : State) (p : Party) (q : Fin 4096) (v : Fin 64) (n : Fin 8) (k tail : Nat), let c := s.chip
    let rings := ownerCode p c = palOwner q c ∧ palActive q c = true
    let mine := ownerCode p c = palOwner q c ∨ (isControl p c = true ∧ isStallCode (palOwner q c) = true)
    let base := fun (v : Nat) => rd (Reg.PAL_BASE_STRIPE v) c
    let size := fun (v : Nat) => rd (Reg.PAL_STRIPES v) c
    let off := 0x810 + 0x20 * v.val
    let clash := ∃ w < 64, rd (Reg.PAL_VALID w) c = 1 ∧ base v < base w + size w ∧ base w < base v + size v
    let counts := fun (t : Chip) => let m := popCount 8 (rd Reg.PAL_MISSING t)
      rd Reg.PAL_ARRAY_STATE t = if m = 0 then 1 else if m = 1 then 2 else if m = 2 then 3 else 4
    (¬ rings → exec (.pailSqTail p q tail) s = becomes s (bump (Reg.PAL_CTR 7) 1 c) ∧ exec (.pailCqHead p q tail) s = becomes s (bump (Reg.PAL_CTR 7) 1 c)) ∧
    (rings → pageState 0x80 c ≠ 6 →
      exec (.pailSqTail p q tail) s = becomes s (setPalQ q { getPalQ q c with sqTail := tail % 4096 } c) ∧
      ((getPalQ q c).recs = [] → exec (.pailCqHead p q tail) s = becomes s (setPalQ q { getPalQ q c with cqHead := tail % 4096 } c))) ∧
    (reaches p 0x80 c →
      (¬ mine → exec (.pqReset p q) s = becomes s (wr Reg.PAL_PQ_RESULT 1 c) ∧ exec (.pqActive p q) s = becomes s (wr Reg.PAL_PQ_RESULT 1 c)) ∧
      (mine → rd Reg.PAL_QUEUE_TABLE c + 64 * q + 64 ≤ 2 ^ 64 →
        (c.palCmds = [] → ∃ t, exec (.pqReset p q) s = .next t ∧ t.pending = s.pending ∧ palActive q t.chip = false ∧ palF q 0x20 27 16 t.chip = 0 ∧ palF q 0x24 11 0 t.chip = 0 ∧ palF q 0x24 31 31 t.chip = 1 ∧
          palF q 0x28 31 0 t.chip = 0 ∧ getPalQ q t.chip = PalQ.idle ∧ rd Reg.PAL_PQ_RESULT t.chip = 0) ∧
        (palActive q c = true ∨ palContextOk q c = false → exec (.pqActive p q) s = becomes s (wr Reg.PAL_PQ_RESULT 2 c)) ∧
        (palActive q c = false → palContextOk q c = true →
          ∃ t, exec (.pqActive p q) s = .next t ∧ t.pending = s.pending ∧ palActive q t.chip = true ∧ palF q 0x24 31 31 t.chip = 1 ∧ getPalQ q t.chip = PalQ.idle ∧ rd Reg.PAL_PQ_RESULT t.chip = 0)) ∧
      (isHost p = false → exec (.volumeValidate p v) s = becomes s (refuse 0x80 0x03 off c)) ∧
      (isHost p = true → rd (Reg.PAL_VALID v) c = 1 → exec (.volumeValidate p v) s = becomes s c) ∧
      (isHost p = true → rd (Reg.PAL_VALID v) c ≠ 1 →
        (rd Reg.PAL_ARRAY_STRIPES c < base v + size v → exec (.volumeValidate p v) s = becomes s (refuse 0x80 0x04 off c)) ∧
        (base v + size v ≤ rd Reg.PAL_ARRAY_STRIPES c → clash → exec (.volumeValidate p v) s = becomes s (refuse 0x80 0x05 off c)) ∧
        (base v + size v ≤ rd Reg.PAL_ARRAY_STRIPES c → ¬ clash → exec (.volumeValidate p v) s = becomes s (wr (Reg.PAL_VALID v) 1 c))) ∧
      (let may := working 0x80 c = true ∧ ssdMissing n c = true ∧ c.palRebuild = none ∧ portUp (0x18 + n.val) c = true ∧ ssdFits n = true;
        (¬ may → exec (.rebuildGo p n) s = becomes s (refuse 0x80 0x22 0x124 c)) ∧ (may → exec (.rebuildGo p n) s = becomes s (wr Reg.PAL_REBUILD_DONE 0 { c with palRebuild := some n.val })))) ∧
    (c.palRebuild = none → exec .rebuildDone s = becomes s c) ∧
    (c.palRebuild = some k → ∃ t, exec .rebuildDone s = .next t ∧ t.pending = s.pending ∧ t.chip.palRebuild = none ∧ rd Reg.PAL_MISSING t.chip = setBits (rd Reg.PAL_MISSING c) k 1 0 % 2 ^ 8 ∧ counts t.chip ∧
      rd Reg.PAL_REBUILD_DONE t.chip = rd Reg.PAL_ARRAY_STRIPES c % 2 ^ 40 ∧ (rd (Hdr.ERR_STATUS 0x80) t.chip).testBit 5 = true) ∧
    (working 0x80 c = true → c.palCmds = [] → ssdMissing n c = false ∨ c.palRebuild = some n.val →
      ∃ t, exec (.ssdFailed n) s = .next t ∧ t.pending = s.pending ∧ ssdMissing n t.chip = true ∧ (∀ j < 8, j ≠ n.val → ssdMissing j t.chip = ssdMissing j c) ∧ counts t.chip ∧ t.chip.palRebuild ≠ some n.val ∧
        (rd (Hdr.ERR_STATUS 0x80) t.chip).testBit 0 = true ∧ (rd Reg.PAL_ARRAY_STATE t.chip = 4 → (rd (Hdr.ERR_STATUS 0x80) t.chip).testBit 4 = true ∧ t.chip.palRebuild = none)) ∧
    (working 0x80 c = true → ssdMissing n c = true → c.palRebuild ≠ some n.val → exec (.ssdFailed n) s = becomes s c) ∧
    (let idle := running 0x80 c = true ∧ c.palCmds = [] ∧ c.palRebuild = none ∧ rd Reg.PAL_PS_CUR c < rd Reg.PAL_PS_MAX c;
      (idle → exec .psEntry s = becomes s (wr Reg.PAL_PS_CUR (rd Reg.PAL_PS_CUR c + 1) c)) ∧ (¬ idle → exec .psEntry s = becomes s c)) ∧
    (let may := rd (Reg.PAL_TEST_STATE v) c = 2 ∧ ∀ x ∈ c.palCmds, x.op = 7 ∨ x.op = 8;
      (may → exec (.selftestResume v) s = becomes s (wr (Reg.PAL_TEST_STATE v) 1 c)) ∧ (¬ may → exec (.selftestResume v) s = becomes s c))

/-! ### PCI Express ports (chapter 18) -/

/-- R691, R696, R701, R705, R725, R726, R728: requests that arrive. An aperture read of what the aperture reaches answers the bytes, a read elsewhere or in FLR answers Unsupported Request, a write in FLR is dropped; a request that needs a
sleeping page wakes it and waits. A request of an accelerator goes through an inbound window that permits it, else answers Unsupported Request, and outside windows and peers to the bound host; AtomicOps are of 4 or 8 bytes. A timeout is counted and told. -/
def Obligations.PortRequests : Prop :=
  ∀ (s : State) (h : Fin 2) (a : Fin 8) (off len addr v page written w z : Nat) (bs : List Nat) (poisoned : Bool) (op : AccOp), let c := s.chip
    let at' := (rd (Reg.HEP_APERTURE_BASE h) c + off) % 2 ^ 64
    let reachesAll := fun (n : Nat) => ∀ p ∈ route apertureCode at' n c, p.dest ≠ .outside
    let busy := (rd (Reg.HEP_FLR_BUSY h) c).testBit 0 = true
    let ur := raise (8 + h.val) 0x1105 0 (bump (Reg.HEP_CTR h 4) 1 c)
    let rxBad := raise (8 + h.val) 0x1104 2 (bump (Reg.HEP_CTR h 3) 1 c)
    (∀ g, rangeAsleep apertureCode at' len c = some g → exec (.apertureAccess h off none len poisoned) s = becomes s (requestWake (pageDomain g) (.aperture h off none len poisoned) c)) ∧
    (rangeAsleep apertureCode at' len c = none →
      (busy ∨ ¬ reachesAll len → exec (.apertureAccess h off none len poisoned) s = becomes s (emit (.unsupported (8 + h.val)) ur)) ∧
      (¬ busy → reachesAll len → let r := readRange apertureCode at' len c
        exec (.apertureAccess h off none len poisoned) s = becomes s (emit (.apertureData h r.1 r.2) c))) ∧
    (rangeAsleep apertureCode at' bs.length c = none →
      (busy → exec (.apertureAccess h off (some bs) len false) s = becomes s c ∧ exec (.apertureAccess h off (some bs) len true) s = becomes s rxBad) ∧
      (¬ busy → reachesAll bs.length → exec (.apertureAccess h off (some bs) len false) s = becomes s (writeRange apertureCode at' bs c))) ∧
    (pageState (0x10 + a.val) c = 6 → exec (.accelRequest a op addr) s = becomes s (requestWake (pageDomain (0x10 + a.val)) (.accel a op addr) c)) ∧
    (pageState (0x10 + a.val) c ≠ 6 → portUp (0x10 + a.val) c = false → exec (.accelRequest a op addr) s = becomes s c) ∧
    (pageState (0x10 + a.val) c ≠ 6 → portUp (0x10 + a.val) c = true →
      (accWindow a addr c = some w → let o := windowCode a w c
        let d := rd (Reg.SPR_IW_TARGET a w) c + (addr - rd (Reg.SPR_IW_BASE a w) c)
        (rd (Reg.SPR_IW_READ a w) c ≠ 1 → exec (.accelRequest a (.read len) addr) s = becomes s (raise (0x10 + a.val) 0x1203 0 (emit (.unsupported (0x10 + a.val)) (bump (Reg.SPR_CTR a 4) 1 c)))) ∧
        (rd (Reg.SPR_IW_READ a w) c = 1 → rangeAsleep o d len c = none → let r := readRange o d len (bump (Reg.SPR_CTR a 1) 1 c)
          exec (.accelRequest a (.read len) addr) s = becomes s (emit (.accData a r.1 r.2) (bump (Reg.SPR_CTR a 1) 1 c))) ∧
        (rd (Reg.SPR_IW_WRITE a w) c = 1 → rangeAsleep o d bs.length c = none → exec (.accelRequest a (.write bs false) addr) s = becomes s (writeRange o d bs (bump (Reg.SPR_CTR a 2) 1 c))) ∧
        (rd (Reg.SPR_IW_READ a w) c ≠ 1 ∨ rd (Reg.SPR_IW_WRITE a w) c ≠ 1 →
          exec (.accelRequest a (.fetchAdd len v) addr) s = becomes s (raise (0x10 + a.val) 0x1203 0 (emit (.unsupported (0x10 + a.val)) (bump (Reg.SPR_CTR a 4) 1 c))))) ∧
      (accWindow a addr c = none → accPeer a addr c = none → let sp := spHost (rd (Reg.SPR_BIND_HOST a) c)
        (exec (.accelRequest a (.read len) addr) s = becomes s (emit (.accData a (ldBytes sp addr len c) (anyPoison sp addr len c)) c)) ∧
        (exec (.accelRequest a (.write bs false) addr) s = becomes s (put sp addr bs c)) ∧
        (len ≠ 4 → len ≠ 8 → ∀ o ∈ [AccOp.fetchAdd len v, .swap len v, .cas len v z], exec (.accelRequest a o addr) s = becomes s (emit (.unsupported (0x10 + a.val)) (bump (Reg.SPR_CTR a 4) 1 c))) ∧
        (len = 4 ∨ len = 8 → anyPoison sp addr len c = false → let old := ldBytes sp addr len c
          let sets := fun (o : AccOp) (y : Nat) => exec (.accelRequest a o addr) s = becomes s (emit (.accData a old false) (put sp addr (leBytes len y) c))
          sets (.fetchAdd len v) ((leNat old + v) % 2 ^ (8 * len)) ∧ sets (.swap len v) (v % 2 ^ (8 * len)) ∧
          sets (.cas len v z) (if leNat old = v % 2 ^ (8 * len) then z % 2 ^ (8 * len) else leNat old)))) ∧
    (page < 8 → exec (.completionTimeout page none written) s = becomes s c) ∧
    (exec (.completionTimeout (8 + h.val) none written) s = becomes s (raise (8 + h.val) 0x1106 2 (bump (Reg.HEP_CTR h 5) 1 c))) ∧
    (exec (.completionTimeout (0x10 + a.val) none written) s = becomes s (raise (0x10 + a.val) 0x1205 2 (bump (Reg.SPR_CTR a 6) 1 c))) ∧
    (exec (.completionTimeout (0x18 + a.val) none written) s = becomes s (raise (0x18 + a.val) 0x1304 2 (bump (Reg.SSD_CTR a 3) 1 c)))

/-- R690, R713–R716, R718–R726: resets, links and power states of the ports. An FLR sets its bit in `FLR_BUSY`, is counted, and acts on what the function's port owns; its completion puts the function in D0 unless it is in D3cold; link-down, hot
reset and PERST# act as FLRs of the four functions and on the stalls of the port; PERST# of both ports at one time resets the chip; a link comes up and falls, a falling RUNNING Spur page is FENCED; `BIND_HOST` needs semaphore 0 and a page that is OFF. -/
def Obligations.PortResets : Prop :=
  ∀ (s : State) (p : Party) (h : Fin 2) (f : Fin 4) (a : Fin 8) (page speed width v : Nat), let c := s.chip
    let told := raise (8 + h.val) 0x1103 0 (bump (Reg.HEP_CTR h 2) 1 c)
    let busy := rd (Reg.HEP_FLR_BUSY h) c
    let acts := fun (d : Chip) => let e := homeReset h ((List.range 4).foldl (fun c f => flrRun h f c) d)
      if rd (Reg.HEP_PROPAGATE h) e = 1 then propagate h e else e
    let fallen := fun (d : Chip) => wr (Reg.HEP_LINK_UP h) 0 (wr (Reg.HEP_SPEED h) 0 (wr (Reg.HEP_WIDTH h) 0 (wr (Reg.HEP_LINK_STATE h) 0 d)))
    (busy.testBit f = true → exec (.flr h f) s = becomes s told) ∧
    (busy.testBit f = false → ∃ d, exec (.flr h f) s = becomes s (flrEffect h f d) ∧ rd (Reg.HEP_FLR_BUSY h) d = (busy ||| 2 ^ f.val) % 2 ^ 4 ∧ rd (Reg.HEP_CTR h 2) d = (rd (Reg.HEP_CTR h 2) c + 1) % 2 ^ 64 ∧
      (rd (Hdr.ERR_STATUS (8 + h)) d).testBit 2 = true ∧ d.mem = c.mem) ∧
    (busy.testBit f = false → exec (.flrComplete h f) s = becomes s c) ∧
    (busy.testBit f = true → busy < 16 → rd (Reg.HEP_DSTATE h) c < 256 → ∃ t, exec (.flrComplete h f) s = .next t ∧ t.pending = s.pending ∧
      (∀ g : Fin 4, (rd (Reg.HEP_FLR_BUSY h) t.chip).testBit g = (busy.testBit g && decide (g ≠ f)) ∧
        dState h g t.chip = if g = f ∧ dState h g c ≠ 2 then 0 else dState h g c) ∧ t.chip.mem = c.mem) ∧
    (rd (Reg.HEP_LINK_UP h) c ≠ 1 → exec (.hostReset h .linkDown) s = becomes s c) ∧
    (rd (Reg.HEP_LINK_UP h) c = 1 → exec (.hostReset h .linkDown) s = becomes s (acts (raise (8 + h.val) 0x1101 0 (bump (Reg.HEP_CTR h 0) 1 (fallen c))))) ∧
    (exec (.hostReset h .hotReset) s = becomes s (acts (raise (8 + h.val) 0x1102 0 (bump (Reg.HEP_CTR h 1) 1 c)))) ∧
    (mapGet none c.perstAt h.val ≠ none → exec (.hostReset h .perst) s = becomes s c) ∧
    (mapGet none c.perstAt h.val = none → ∃ d, rd (Reg.HEP_DSTATE h) d = 0xAA ∧ (rd Reg.SBI_PERST_IN d).testBit h = false ∧ mapGet none d.perstAt h.val = some (now d) ∧ rd (Reg.HEP_LINK_UP h) d = 0 ∧
      exec (.hostReset h .perst) s = becomes s (if mapGet none d.perstAt (1 - h.val) = some (now d) then chipReset d else acts d)) ∧
    (exec (.dStateChange h f 2) s = exec (.hostReset h .perst) s) ∧
    (rd (Reg.HEP_DSTATE h) c < 256 → ∀ d : Fin 3, d.val < 2 → ∃ t, exec (.dStateChange h f d) s = .next t ∧ t.pending = s.pending ∧ t.chip.mem = c.mem ∧ ∀ g : Fin 4, dState h g t.chip = if g = f then d.val else dState h g c) ∧
    (rd (Reg.HEP_DSTATE h) c < 256 → ∃ t, exec (.hostLinkUp h speed width) s = .next t ∧ t.pending = s.pending ∧ rd (Reg.HEP_LINK_UP h) t.chip = 1 ∧ rd (Reg.HEP_SPEED h) t.chip = speed % 2 ^ 3 ∧ rd (Reg.HEP_WIDTH h) t.chip = width % 2 ^ 5 ∧
      rd (Reg.HEP_LINK_STATE h) t.chip = 1 ∧ (rd Reg.SBI_PERST_IN t.chip).testBit h = true ∧ mapGet none t.chip.perstAt h.val = none ∧ t.chip.mem = c.mem ∧
      ∀ g : Fin 4, dState h g t.chip = if dState h g c = 2 then 0 else dState h g c) ∧
    (let may := 0x10 ≤ page ∧ page < 0x20 ∧ pageState page c ≠ 0 ∧ pageState page c ≠ 4;
      (may → exec (.linkUp page speed width) s = becomes s (wr (linkFld page) (1 + 2 * (speed % 8) + 16 * (width % 32) + 512) c)) ∧ (¬ may → exec (.linkUp page speed width) s = becomes s c)) ∧
    (¬ (0x10 ≤ page ∧ page < 0x20 ∧ portUp page c = true) → exec (.spurLinkDown page) s = becomes s c) ∧
    (0x10 ≤ page → page < 0x20 → portUp page c = true →
      (running page c = false → exec (.spurLinkDown page) s = becomes s (linkFall page c)) ∧
      (running page c = true → exec (.spurLinkDown page) s = becomes s (fencePage page (raise page (if page < 0x18 then 0x1201 else 0x1301) 2 (linkFall page c))))) ∧
    (reaches p (0x10 + a.val) c →
      (holdsSem p 0 c = false → exec (.bindHostWrite p a v) s = becomes s (refuse (0x10 + a.val) 0x07 0x100 c)) ∧
      (holdsSem p 0 c = true → rd (Hdr.EN (0x10 + a)) c = 1 → exec (.bindHostWrite p a v) s = becomes s (refuse (0x10 + a.val) 0x06 0x100 c)) ∧
      (holdsSem p 0 c = true → rd (Hdr.EN (0x10 + a)) c ≠ 1 → exec (.bindHostWrite p a v) s = becomes s (wr (Reg.SPR_BIND_HOST a) v c))) ∧
    (0x10 ≤ page → page < 0x20 → pageState page c = 6 → exec (.linkWake page) s = becomes s (requestWake (pageDomain page) .work c)) ∧
    (pageState page c ≠ 6 → exec (.linkWake page) s = becomes s c)

/-! ### Stalls (chapter 19) -/

/-- R731–R733, R738, R744–R746, R748–R753, R755: the commands of the STL page. They come from PF0 of a host port; those on a stall wait while image 0 is not running, and end with 0x01 for another port than `HOME` and 0x02 in a state that does not
take them; a service image needs semaphore 0. An accepted one has its effect and its result; FREEZE answers when the stall is idle or its limit passes. -/
def Obligations.StallCommands : Prop :=
  ∀ (s : State) (p : Party) (h : Fin 2) (n : Fin 2048) (img : Nat) (e : Chip), let c := s.chip
    let cmds := fun (p : Party) => [(0, Instr.stallCreate p n), (1, .stallRemove p n), (2, .stallReset p n), (3, .logStart p n), (4, .logStop p n), (5, .freeze p n), (6, .save p n), (7, .stallRestore p n), (8, .thaw p n), (9, .setLimits p n)]
    let services := fun (p : Party) => [Instr.loadService p img, .stopService p img]
    let me := Party.host h
    let st := stallState n c
    let accepts := fun (k : Nat) => n.val ∉ c.freezing ∧ (if k = 0 ∨ k = 7 then st = 0 else if k = 5 then st = 1 else if k = 6 ∨ k = 8 then st = 3 else st = 1 ∨ st = 3)
    let ends := fun (i : Instr) (code detail : Nat) (c : Chip) => exec i s = becomes s (stlPump (stlEnd h code detail c))
    let addr := rdB (1 + h) Reg.STL_CMD_ADDR c
    let fits := fun (d : Chip) => rd Reg.STL_STALL_TABLE d + 512 * n + 512 ≤ 2 ^ 64
    (isHost p = false → reaches p 0x90 c → (∀ x ∈ cmds p, exec x.2 s = becomes s (refuse 0x90 0x03 0x200 c)) ∧ (∀ i ∈ services p, exec i s = becomes s (refuse 0x90 0x03 0x200 c))) ∧
    (reaches me 0x90 c →
      (working 0x90 c = false → (∀ x ∈ cmds me, exec x.2 s = becomes s (stlEnd h 2 0 c)) ∧ ∀ i ∈ services me, exec i s = becomes s (stlEnd h 2 0 c)) ∧
      (working 0x90 c = true →
        (holdsSem me 0 c = false → ∀ i ∈ services me, ends i 10 0 c) ∧
        (holdsSem me 0 c = true → let r := serviceLoad h (img % 256) c
          ends (.loadService me img) r.1 r.2.1 r.2.2 ∧ ends (.stopService me img) 0 0 (serviceStop (img % 256) c)) ∧
        (controlRuns c = false → ∀ x ∈ cmds me, ∃ t, exec x.2 s = .next t ∧ t.pending = s.pending ∧ t.chip.stlWait = c.stlWait ++ [(h.val, x.1, n.val)] ∧ rdB (1 + h) Reg.STL_CMD_BUSY t.chip = 1 ∧ t.chip.mem = c.mem) ∧
        (controlRuns c = true →
          (st ≠ 0 → stallHome n c ≠ h → ∀ x ∈ cmds me, ends x.2 1 0 c) ∧
          (st = 0 ∨ stallHome n c = h →
            (∀ x ∈ cmds me, ¬ accepts x.1 → ends x.2 2 0 c) ∧
            (accepts 0 → let r := stallMake h n 1 (ldBytes (spHost h) addr 240 c) (anyPoison (spHost h) addr 240 c) c
              ends (.stallCreate me n) r.1 r.2.1 r.2.2 ∧ (anyPoison (spHost h) addr 240 c = true ∨ recordClean (leNat (ldBytes (spHost h) addr 240 c)) = false → r.1 = 4) ∧
              (r.1 = 0 → fits r.2.2 → stallState n r.2.2 = 1) ∧ (r.1 ≠ 0 → r.2.2 = c)) ∧
            (accepts 1 → ends (.stallRemove me n) 0 0 (stallRemove n c) ∧ (fits (stallRemove n c) → stallState n (stallRemove n c) = 0)) ∧
            (accepts 2 → ends (.stallReset me n) 0 0 (stallReset n c) ∧ (fits (stallReset n c) → stallState n (stallReset n c) = 1 ∧ stallF n 0 4 4 (stallReset n c) = 0)) ∧
            (accepts 3 → let big := 0x1000000000 < ((stallMaps n c).map (·.2)).sum
              (big → ends (.logStart me n) 5 0 c) ∧ (¬ big → ends (.logStart me n) 0 0 (stallPut n 0 4 4 1 { c with stallLog := mapPut 0 c.stallLog n.val addr }))) ∧
            (accepts 4 → ends (.logStop me n) 0 0 (stallPut n 0 4 4 0 { c with stallLog := mapPut 0 c.stallLog n.val 0 })) ∧
            (accepts 5 → exec (.freeze me n) s = becomes s (stlPump (wrB (1 + h) Reg.STL_CMD_BUSY 1 (freezeStart n c)))) ∧
            (accepts 6 → ends (.save me n) 0 0 (put (spHost h) addr (stallImage n c) c)) ∧
            (accepts 7 → let r := stallRestore h n c
              ends (.stallRestore me n) r.1 r.2.1 r.2.2 ∧ (let bytes := leNat (ldBytes (spHost h) (addr + 0x10) 8 c); bytes < 592 ∨ 0x4000000 < bytes → addr + 64 ≤ 2 ^ 64 → r = (7, 0, c)) ∧
              (r.1 = 0 → fits r.2.2 → stallState n r.2.2 = 3)) ∧
            (accepts 8 → ends (.thaw me n) 0 0 (membersGo n (stallPut n 0 2 0 1 c))) ∧
            (accepts 9 → let e := put spDev (stallBase n c + 0xC0) (ldBytes (spHost h) (addr + 0xC0) 0x1C c) c
              let bad := anyPoison (spHost h) (addr + 0xC0) 0x1C c = true ∨ stallF n 0xC4 31 24 e ≠ 0 ∨ stallF n 0xCC 31 26 e ≠ 0 ∨ stallF n 0xD8 31 2 e ≠ 0 ∨ recordOk n h e = false
              (bad → ends (.setLimits me n) 4 0 c) ∧ (¬ bad → ends (.setLimits me n) 0 0 (stallRates n e))))))) ∧
    (let idle := n.val ∈ c.freezing ∧ stallIdle n c = true;
      (¬ idle → exec (.freezeComplete n) s = becomes s c) ∧
      (idle → exec (.freezeComplete n) s = becomes s (stlEnd (stallHome n c) 0 0 (stallPut n 0 2 0 3 { c with freezing := setDel c.freezing n.val })))) ∧
    (n.val ∉ c.freezing → exec (.freezeTimeout n) s = becomes s c) ∧
    (n.val ∈ c.freezing → e = membersGo n { c with freezing := setDel c.freezing n.val } → exec (.freezeTimeout n) s = becomes s (raise 0x90 0x1404 0 (stlEnd (stallHome n c) 6 0 e)))

/-- R732, R736, R740, R749, R754: a stall's doorbell page and control ring. A doorbell on another port than `HOME` has no effect, one while the stall resets or leaves and one beyond its counts is dropped and counted, any other rings the resource of its
local index. Image 0 takes the request at the head of an ACTIVE stall's ring: a stale one silently, a malformed one with BAD_REQUEST, one beyond the counts with NOT_OWNED, one whose argument is poisoned with POISON, any other runs and its completion tells the result. -/
def Obligations.StallRings : Prop :=
  ∀ (s : State) (h : Fin 2) (n : Fin 2048) (f off v k i j : Nat) (row : Instr), let c := s.chip
    let bell := exec (.stallDoorbell h n f off v) s
    let me := Party.stall n
    let dropped := becomes s (raise 0x90 0x1402 0 (bump (Reg.STL_CTR 0) 1 c))
    let rows := [(0, Instr.writeContext n), (1, .queueCmd n), (2, .ctlRegion n), (3, .ctlRule n), (4, .ctlTable n), (5, .ctlKey n), (6, .ctlWmk n), (7, .ctlPool n)]
    let x := mapGet StallCtl.idle c.stallCtl n.val
    let e := ownRead n (ctlBase n c + 64 * (x.head % ctlSize n c)) 64 c
    let r := ctlParse e.1
    let replies := fun (status : Nat) => exec row s = becomes s (ctlComplete n r.id (status, 0, c))
    (working 0x90 c = false → bell = becomes s c) ∧
    (stallState n c ≠ 0 → stallHome n c ≠ h → bell = becomes s c) ∧
    (working 0x90 c = true → stallState n c ≠ 0 → stallHome n c = h →
      (stallState n c = 2 ∨ stallState n c = 4 → bell = dropped) ∧
      (stallState n c = 1 ∨ stallState n c = 3 →
        (f = 1 → off < 0x800 → stallCount n 0 c ≤ off / 64 → bell = dropped) ∧ (f = 2 → off < 0x800 → stallCount n 5 c ≤ off / 64 → bell = dropped) ∧
        (f = 3 → off < 0x800 → stallCount n 6 c ≤ off / 64 → bell = dropped) ∧
        (f = 1 → off = 64 * j → j < 32 → j < stallCount n 0 c → bell = becomes s (qpSqTail me (stallFirst n 0 c + j) v c)) ∧
        (f = 1 → off = 0x800 + 8 * j → j < 64 → j < stallCount n 1 c → bell = becomes s (rxTail me (stallFirst n 1 c + j) v c)) ∧
        (f = 1 → off = 0xA00 + 8 * j → j < 64 → j < stallCount n 2 c → bell = becomes s (txTail me (stallFirst n 2 c + j) v c)) ∧
        (f = 1 → off = 0xC00 + 8 * j → j < 64 → j < stallCount n 3 c → bell = becomes s (movTail me (stallChan n j c / 64) (stallChan n j c % 64) v c)) ∧
        (f = 1 → off = 0xE00 + 8 * j → j < 4 → j < stallCount n 4 c → bell = becomes s (colTailWrite me (stallFirst n 4 c + j) v c)) ∧
        (f = 2 → off = 64 * j → j < 32 → j < stallCount n 5 c → bell = becomes s (palSqTail me (stallFirst n 5 c + j) v c)) ∧
        (f = 3 → off = 64 * j + 4 → j < 32 → j < stallCount n 6 c → bell = becomes s (intakeDoorbell me (stallFirst n 6 c + j) false v c)) ∧
        (f = 1 → off = 0xF80 → bell = becomes s { c with stallCtl := mapPut StallCtl.idle c.stallCtl n.val { x with tail := v % 2 ^ 15 } }) ∧
        (f = 1 → off = 0xF88 → bell = becomes s { c with stallCtl := mapPut StallCtl.idle c.stallCtl n.val { x with cqHead := v % 2 ^ 15 } }))) ∧
    ((k, row) ∈ rows →
      (ctlReady n c = false → exec row s = becomes s c) ∧
      (ctlReady n c = true →
        (e.2 = false → r.gen ≠ stallGen n c → exec row s = becomes s { c with stallCtl := mapPut StallCtl.idle c.stallCtl n.val { x with head := (x.head + 1) % 2 ^ 15 } }) ∧
        (e.2 = false → r.gen = stallGen n c → r.op ≠ k → r.op ≤ 7 → exec row s = becomes s c) ∧
        (e.2 = false → r.gen = stallGen n c → r.op = k ∨ (k = 0 ∧ 7 < r.op) →
          (ctlFormOk r = false → replies 1) ∧ (7 < r.op → ctlFormOk r = false) ∧
          (ctlFormOk r = true → ctlTarget n r.kind r.ix c = none → replies 2) ∧
          (ctlFormOk r = true → ctlTarget n r.kind r.ix c = some i → pageState (ctlPage r.kind i) c ≠ 6 → (r.kind = 12 → domAwake (pageDomain (ctlPage r.kind i)) c = true) →
            let b := ownRead n r.addr r.len c
            (b.2 = true → exec row s = becomes s (ctlComplete n r.id (5, 0, ownReach n r.addr r.len c))) ∧
            (b.2 = false → exec row s = becomes s (ctlComplete n r.id (ctlRun n r b.1 i c)) ∧ (k = 0 → ctlResting r.kind i c = false → replies 4))))))

/-! ### Boot and firmware (chapter 20) -/

/-- R58, R764–R768, R770, R780: boot. POWER_ON of a device not booted runs the ROM, which runs the first candidate that passes the checks of R762 and holds FAULT_N when none does; the loader's image runs only when it passes; READY brings the pages
of R58 to RUNNING and every domain awake; the watchdog reboots the Steward alone, or ends a handover as failed. -/
def Obligations.BootSequence : Prop :=
  ∀ (s : State) (img : List Nat) (k : Nat) (ks : List Nat) (d : Nat), let c := s.chip
    let st := rd Reg.BOOT_BOOT_STATE c
    let runs := fun (src : Nat) (img : List Nat) (t : Chip) => rd Reg.BOOT_BOOT_STATE t = 2 ∧ rd Reg.BOOT_BOOT_SOURCE t = src ∧ rd Reg.BOOT_FW_VERSION t = hdrBits img 8 31 0 % 2 ^ 32 ∧ rd Reg.BOOT_FW_SVN t = imgSvn img % 2 ^ 8 ∧
      rd Reg.BOOT_FW_KEY_SLOT t = imgKey img % 2 ^ 2 ∧ (getCore .steward t).pc = imgEntry img ∧ t.boot.romFault = false
    (¬ (c.module.good = true ∧ st = 0) → exec .powerOn s = becomes s c) ∧
    (c.module.good = true → st = 0 → exec .powerOn s = becomes s (romBoot 0 c)) ∧
    (k ≤ 2 → imgCheck (some (k / 2)) (imgBytes k c) c = 0 → runs k (imgBytes k c) (romTry (k :: ks) c) ∧ rd (Reg.BOOT_IMG_VALID k) (romTry (k :: ks) c) = 1) ∧
    (k ≤ 2 → imgCheck (some (k / 2)) (imgBytes k c) c ≠ 0 → ∃ e, romTry (k :: ks) c = romTry ks e ∧ (rd Reg.BOOT_FAILED_SOURCES e).testBit k = true ∧ rd (Reg.BOOT_IMG_VALID k) e = 0 ∧ (rd (Hdr.ERR_STATUS 5) e).testBit 0 = true ∧ e.mem = c.mem) ∧
    (rd Reg.BOOT_BOOT_STATE (romTry [] c) = 6 ∧ rd Reg.RST_FAULT_PIN (romTry [] c) = 1) ∧
    (st = 6 → imgCheck none img c = 0 → ∃ t, exec (.loaderImage img) s = .next t ∧ t.pending = s.pending ∧ runs 3 img t.chip) ∧
    (st ≠ 6 ∨ imgCheck none img c ≠ 0 → exec (.loaderImage img) s = becomes s c) ∧
    (st ≠ 2 → exec .bootReady s = becomes s c) ∧
    (st = 2 → ∃ t, exec .bootReady s = .next t ∧ t.pending = s.pending ∧ rd Reg.BOOT_BOOT_STATE t.chip = 3 ∧ t.chip.mem = c.mem ∧
      (rd Reg.BOOT_BOOT_CAUSE c ≠ 2 → rd Reg.PWR_PLL_ON t.chip = 15 ∧ rd Reg.BOOT_BOOT_TIME_US t.chip ≤ 180000 ∧ (d < 431 → domAwake d t.chip = true) ∧
        ∀ p ∈ bootPages, pageState p c = 0 → pageState p t.chip = 2 ∧ rd (Hdr.EN p) t.chip = 1)) ∧
    (c.boot.hold = false → st = 2 ∨ st = 3 ∨ st = 4 → exec .stewardWdog s = becomes s (romBoot 2 (raise 5 0x1505 2 c))) ∧
    (c.boot.hold = false → st ≠ 2 → st ≠ 3 → st ≠ 4 → exec .stewardWdog s = becomes s c) ∧
    (c.boot.hold = true → exec .stewardWdog s = becomes s (handoverRollback ((freeVal c).toNat % 50001) (useFree c)))

/-- R771–R776, R778, R780: the update commands. A writer without semaphore 0 gets 0x01, one while a command runs 0x02; STAGE checks the image that it reads and its end programs the place or tells a flash error; ACTIVATE_RESET puts the staged slot on trial,
CONFIRM makes the running slot `ACTIVE`, COMMIT_SVN raises the counter, REVOKE_KEY revokes a slot that signs nothing in use; a live update holds, and ends with the new image taken over or the old one rolled back. -/
def Obligations.FirmwareUpdates : Prop :=
  ∀ (s : State) (p : Party) (h : Fin 2) (readErr : Bool) (us j : Nat) (slot : Fin 4) (img : List Nat), let c := s.chip
    let all := fun (p : Party) => [Instr.stage p readErr, .activateLive p, .activateReset p, .confirm p, .commitSvn p, .revokeKey p slot]
    let me := Party.host h
    let k := spareSlot c
    let ends := fun (i : Instr) (code : Nat) (more : Chip → Prop) => ∃ t, exec i s = .next t ∧ t.pending = s.pending ∧ rd Reg.BOOT_UPD_RESULT t.chip = code ∧ rd Reg.BOOT_UPD_BUSY t.chip = 0 ∧ more t.chip
    let fails := fun (i : Instr) (code : Nat) => ends i code fun t => t.mem = c.mem ∧ t.cores = c.cores
    let running := rd Reg.BOOT_BOOT_SOURCE c
    let spare := match dirCopy c with | some k => 1 - k | none => 0
    let words := match dirCopy c with | some k => dirWords k c | none => (0, 0, 0)
    let directory := fun (flags : Nat) (t : Chip) => dirWords spare t = ((words.1 + 1) % 2 ^ 32, flags % 2 ^ 32, words.2.2 % 2 ^ 32)
    let addr := rd Reg.BOOT_UPD_ADDR c
    let len := rd Reg.BOOT_UPD_LEN c
    let staged := ldBytes (spHost h) addr len c
    let place := if hdrBits staged 4 23 16 = 1 then 2 else k
    let next := imgBytes k c
    let v := Config.handoverVersion (rd Reg.BOOT_FW_VERSION c)
    let version := hdrBits next 0x14 15 0 ≤ v ∧ v ≤ hdrBits next 0x14 31 16
    (isHost p = false ∨ holdsSem p 0 c = false → reaches p 5 c → ∀ i ∈ all p, exec i s = becomes s (wr Reg.BOOT_UPD_RESULT 1 c)) ∧
    (reaches me 5 c → holdsSem me 0 c = true → rd Reg.BOOT_UPD_BUSY c = 1 → ∀ i ∈ all me, exec i s = becomes s (wr Reg.BOOT_UPD_RESULT 2 c)) ∧
    (reaches me 5 c → holdsSem me 0 c = true → rd Reg.BOOT_UPD_BUSY c ≠ 1 →
      (let sound := addr % 4096 = 0 ∧ 512 ≤ len ∧ len ≤ 0x400000;
        let bad := readErr = true ∨ anyPoison (spHost h) addr len c = true
        let code := imgCheck none staged c
        (¬ sound → fails (.stage me readErr) 3) ∧ (sound → bad → fails (.stage me readErr) 0x0B) ∧ (sound → ¬ bad → code ≠ 0 → fails (.stage me readErr) code) ∧
        (sound → ¬ bad → code = 0 → ∃ t, exec (.stage me readErr) s = .next t ∧ t.pending = s.pending ∧ t.chip.boot.job = some (place, staged) ∧ rd Reg.BOOT_UPD_BUSY t.chip = 1 ∧ t.chip.mem = c.mem ∧
          rd Reg.BOOT_BOOT_STATE t.chip = if rd Reg.BOOT_BOOT_STATE c = 3 then 4 else rd Reg.BOOT_BOOT_STATE c)) ∧
      (rd (Reg.BOOT_IMG_VALID k) c ≠ 1 → fails (.activateReset me) 0x0A) ∧
      (rd (Reg.BOOT_IMG_VALID k) c = 1 → ends (.activateReset me) 0 fun t => directory (dirActive c + 2 + 4 * k + 2 ^ 8) t ∧ rd (Reg.BOOT_IMG_TRIAL k) t = 1) ∧
      (2 ≤ running → fails (.confirm me) 0x0A) ∧
      (running < 2 → ends (.confirm me) 0 fun t => directory (setBits (setBits (dirFlags c) 0 1 running) 1 1 0) t ∧ rd (Reg.BOOT_IMG_TRIAL 0) t = 0 ∧ rd (Reg.BOOT_IMG_TRIAL 1) t = 0) ∧
      (let may := runsOnTrial c = false ∧ rd Reg.BOOT_FW_SVN c ≤ imgSvn (imgBytes 2 c);
        (¬ may → fails (.commitSvn me) 0x0A) ∧
        (may → ends (.commitSvn me) 0 fun t => rd Reg.BOOT_ROLLBACK_COUNT t = max (rd Reg.BOOT_ROLLBACK_COUNT c) (min 64 (rd Reg.BOOT_FW_SVN c)) % 2 ^ 7 ∧ t.mem = c.mem)) ∧
      (let used := rd Reg.BOOT_FW_KEY_SLOT c = slot ∨ (rd (Reg.BOOT_IMG_VALID k) c = 1 ∧ imgKey next = slot) ∨ imgKey (imgBytes 2 c) = slot ∨ ∀ n < 4, keySlotLive n c = true ↔ n = slot.val;
        (used → fails (.revokeKey me slot) 0x0A) ∧ (¬ used → ends (.revokeKey me slot) 0 fun t => (rd Reg.BOOT_KEY_REVOKED t).testBit slot = true ∧ t.mem = c.mem)) ∧
      (let code := imgCheck (some 0) next c;
        (code ≠ 0 → fails (.activateLive me) code) ∧ (code = 0 → ¬ version → fails (.activateLive me) 7) ∧
        (code = 0 → version → ∃ t, exec (.activateLive me) s = .next t ∧ t.pending = s.pending ∧ t.chip.boot.hold = true ∧ rd Reg.BOOT_BOOT_STATE t.chip = 5 ∧ rd Reg.BOOT_UPD_BUSY t.chip = 1 ∧
          (getCore .steward t.chip).pc = aonHalf (1 - c.boot.half) + imgEntry next))) ∧
    (c.boot.job = none → exec (.stageDone false) s = becomes s c) ∧
    (c.boot.job = some (j, img) → j ≤ 2 →
      (ends (.stageDone false) 0 fun t => rd (Reg.BOOT_IMG_VALID j) t = 1 ∧ t.boot.job = none ∧ t.mem = (put (imgFlash j).1 (imgFlash j).2 img c).mem) ∧
      (ends (.stageDone true) 9 fun t => rd (Reg.BOOT_IMG_VALID j) t = 0 ∧ t.boot.job = none ∧ (rd (Hdr.ERR_STATUS 5) t).testBit 2 = true)) ∧
    (c.boot.hold = false → exec (.handoverTakeover us) s = becomes s c ∧ exec (.handoverRollback us) s = becomes s c) ∧
    (c.boot.hold = true → c.boot.kept = [] →
      (ends (.handoverTakeover us) 0 fun t => t.boot.hold = false ∧ t.boot.half = 1 - c.boot.half ∧ rd Reg.BOOT_BOOT_STATE t = 3 ∧ rd Reg.BOOT_BOOT_CAUSE t = 3 ∧ rd Reg.BOOT_HANDOVER_US t = us % 2 ^ 32 ∧
        rd Reg.BOOT_BOOT_SOURCE t = k % 2 ^ 2 ∧ rd Reg.BOOT_FW_VERSION t = hdrBits next 8 31 0 % 2 ^ 32 ∧ rd (Reg.BOOT_IMG_TRIAL k) t = 1 ∧ t.mem = c.mem) ∧
      (ends (.handoverRollback us) 8 fun t => t.boot.hold = false ∧ t.boot.half = c.boot.half ∧ rd Reg.BOOT_BOOT_STATE t = 3 ∧ rd Reg.BOOT_BOOT_CAUSE t = 4 ∧ rd Reg.BOOT_HANDOVER_US t = us % 2 ^ 32 ∧
        (getCore .steward t).pc = aonHalf c.boot.half + c.boot.entry ∧ (rd (Hdr.ERR_STATUS 5) t).testBit 1 = true ∧ t.mem = c.mem))

/-! ### Power and thermal management (chapter 21) -/

/-- R29–R31, R78, R787, R789, R792, R798, R799: PLLs and wakes. A start locks or fails after its second attempt; a PLL stops when no domain awake or waking needs it; WAKE_GRANT grants the lowest domain that a request waits for, its cluster's first, and
starts the PLLs that it needs; a refused access ends with code 0x0A; WAKE_COMPLETE makes the domain awake and its page RUNNING, and what waited goes on; WAKE_TIMEOUT is recorded once for each item. -/
def Obligations.PowerWakes : Prop :=
  ∀ (s : State) (i : Fin 4) (d : Fin 431) (p : Party) (page off z v : Nat) (w : Option Nat) (item : HeldItem), let c := s.chip
    let tries := mapGet 0 c.pllTries i
    let others := fun (t : Chip) => ∀ j : Fin 4, j ≠ i → pllOn j t = pllOn j c
    let quiet := ∀ r ∈ c.wakes, wakeRefusal r.dom r.item c = 0
    let wants := fun (e : Nat) => (∃ r ∈ c.wakes, grantDomain r c = e) ∧ domAwake e c = false ∧ e ∉ c.waking
    let ready := d.val ∈ c.waking ∧ clusterAsleep d c = false ∧ ∀ j ∈ domainPlls d, pllOn j c = true
    let awake := fun (t : Chip) => domAwake d t = true ∧ d.val ∉ t.waking ∧ t.mem = c.mem ∧ rd (Reg.PWR_CTR 0) t = (rd (Reg.PWR_CTR 0) c + 1) % 2 ^ 64
    (tries = 0 → exec (.pllLock i) s = becomes s c ∧ exec (.pllLockTimeout i) s = becomes s c) ∧
    (tries ≠ 0 → ∃ t, exec (.pllLock i) s = .next t ∧ t.pending = s.pending ∧ pllOn i t.chip = true ∧ others t.chip ∧ mapGet 0 t.chip.pllTries i.val = 0 ∧ onlyFields [Reg.PWR_PLL_ON] c t.chip) ∧
    (tries = 1 → exec (.pllLockTimeout i) s = becomes s { c with pllTries := mapPut 0 c.pllTries i 2 }) ∧
    (2 ≤ tries → ∃ t, exec (.pllLockTimeout i) s = .next t ∧ t.pending = s.pending ∧ mapGet 0 t.chip.pllTries i.val = 0 ∧ i.val ∈ t.chip.pllFailed ∧ (rd (Hdr.ERR_STATUS 2) t.chip).testBit 2 = true ∧
      ∀ e, e ∈ t.chip.waking ↔ e ∈ c.waking ∧ i.val ∉ domainPlls e) ∧
    ((∃ e < 431, i.val ∈ domainPlls e ∧ (domAwake e c = true ∨ e ∈ c.waking)) → exec (.pllStop i) s = becomes s c) ∧
    ((∀ e < 431, i.val ∈ domainPlls e → domAwake e c = false ∧ e ∉ c.waking) → ∃ t, exec (.pllStop i) s = .next t ∧ t.pending = s.pending ∧ pllOn i t.chip = false ∧ others t.chip ∧ onlyFields [Reg.PWR_PLL_ON] c t.chip) ∧
    (quiet → (∀ e, ¬ wants e) → exec .wakeGrant s = becomes s c) ∧
    (quiet → ∀ e, wants e → (∀ f, wants f → e ≤ f) → ∃ t, exec .wakeGrant s = .next t ∧ t.pending = s.pending ∧ t.chip.waking = c.waking ++ [e] ∧ t.chip.wakes = c.wakes ∧ t.chip.regs = c.regs ∧
      ∀ j ∈ domainPlls e, pllOn j c = false → mapGet 0 t.chip.pllTries j ≠ 0) ∧
    (let r : WakeReq := ⟨d, .access p page off v w, z⟩
      let cause := wakeRefusal d r.item c
      c.wakes = [r] → cause ≠ 0 → ∃ t, exec .wakeGrant s = .next t ∧ t.pending = s.pending ∧ t.chip.wakes = [] ∧ t.chip.waking = c.waking ∧ rd Reg.PWR_LAST_REFUSED t.chip = d ∧ rd Reg.PWR_REFUSE_CAUSE t.chip = cause ∧
        (hasHeader page = true → page < 0x3000 → rd (Hdr.REFUSAL_CODE page) t.chip = 0x0A) ∧ t.chip.mem = c.mem) ∧
    (¬ ready → exec (.wakeComplete d) s = becomes s c) ∧
    (ready → (∀ r ∈ c.wakes, r.dom ≠ d.val) → ∃ t, exec (.wakeComplete d) s = .next t ∧ t.pending = s.pending ∧ (domainPage d = none → awake t.chip) ∧
      ∀ q, domainPage d = some q → (pageState q c = 6 → rd (Hdr.FENCE q) c ≠ 1 → rd (Hdr.QUIESCE q) c ≠ 1 → awake t.chip ∧ pageState q t.chip = 2) ∧
        (pageState q c ≠ 6 → awake t.chip ∧ pageState q t.chip = pageState q c)) ∧
    (∀ q, ready → domainPage d = some q → c.wakes = [⟨d, .access p page off 32 w, z⟩] → wakeRefusal d (.access p page off 32 w) c = 0 → pageState q c = 6 → rd (Hdr.FENCE q) c ≠ 1 → rd (Hdr.QUIESCE q) c ≠ 1 →
      ∃ e, exec (.wakeComplete d) s = becomes s (regTouch p page off 32 w e) ∧ awake e ∧ pageState q e = 2 ∧ e.wakes = []) ∧
    (d.val ∈ c.waking ∨ domAwake d c = true → exec (.wakeTimeout d) s = becomes s c) ∧
    (d.val ∉ c.waking → domAwake d c = false → (∀ r ∈ c.wakes, r.dom ≠ d.val ∨ r.refused.testBit 1 = true ∨ ∃ p page off n w, r.item = .access p page off n w) → exec (.wakeTimeout d) s = becomes s c) ∧
    (d.val ∉ c.waking → domAwake d c = false → c.wakes = [⟨d, item, z⟩] → z.testBit 1 = false → (∀ p page off n w, item ≠ .access p page off n w) →
      ∃ t, exec (.wakeTimeout d) s = .next t ∧ t.pending = s.pending ∧ t.chip.wakes = [⟨d, item, z ||| 2⟩] ∧ rd Reg.PWR_LAST_REFUSED t.chip = d ∧ rd Reg.PWR_REFUSE_CAUSE t.chip = 1 ∧
        rd (Reg.PWR_CTR 2) t.chip = (rd (Reg.PWR_CTR 2) c + 1) % 2 ^ 64 ∧ (rd (Hdr.ERR_STATUS 2) t.chip).testBit 1 = true ∧ t.chip.mem = c.mem)

/-- R552, R553, R607, R620, R725, R792–R797, R801, R845: sleep, edge faults and the Milestone edge. A page sleeps when it is RUNNING, allowed to, idle, and nothing waits for it; a cluster when its cores are ASLEEP or OFF; a Wayside core in WFI. An edge fault
is told, acts on the domain's blocks and realigns its PLL. A Milestone edge advances time by 10, lets every bucket gain, and lets the cores that are not gated go on. -/
def Obligations.SleepAndEdges : Prop :=
  ∀ (s : State) (page : Nat) (k : Fin 21) (w : Fin 24) (i : Fin 4) (q : Nat), let c := s.chip
    let d := pageDomain page
    let asleep := fun (e : Nat) (t : Chip) => domAwake e t = false ∧ rd (Reg.PWR_CTR 1) t = (rd (Reg.PWR_CTR 1) c + 1) % 2 ^ 64 ∧ t.mem = c.mem ∧ t.cores = c.cores
    let may := running page c = true ∧ rd (Hdr.SLEEP_OK page) c = 1 ∧ rd (Hdr.IDLE_US page) c ≠ 0 ∧ pageIdle page c = true ∧ wakeWaits d c = false ∧ d < 430 ∧ (blockType page = some 0xA0 → memMaySleep (page - 0xA0) c = true)
    let cores := fun (P : Nat → Prop) => ∀ n, 16 * k.val ≤ n → n < 16 * k.val + 16 → P n
    let mayCluster := rd Reg.PWR_CLUSTER_IDLE_US c ≠ 0 ∧ domAwake (336 + k) c = true ∧ wakeWaits (336 + k) c = false ∧
      cores fun n => (pageState (0x2000 + n) c = 6 ∨ pageState (0x2000 + n) c = 0) ∧ n ∉ c.waking ∧ wakeWaits n c = false
    let core := getCore (.wayside w) c
    let mayWayside := rd Reg.PWR_WAYSIDE_IDLE_US c ≠ 0 ∧ domAwake (357 + w) c = true ∧ wakeWaits (357 + w) c = false ∧ core.wfi = true ∧ core.irqPending &&& core.irqEnable = 0
    let realigned := fun (t : Chip) => let u := setPll i false t
      if mapGet 0 u.pllTries i = 0 then { u with pllTries := mapPut 0 u.pllTries i 1 } else u
    let fast := (List.range 336).filter fun n => (domainPlls n).elem i.val
    let stop := fun (t : Chip) (n : Nat) => if coreRuns n t then coreReissue (coreFin n) 0 t else fencePage (0x2000 + n) t
    (¬ may → exec (.sleepEntry page) s = becomes s c) ∧
    (may → ∃ t, exec (.sleepEntry page) s = .next t ∧ t.pending = s.pending ∧ asleep d t.chip ∧ pageState page t.chip = 6 ∧ (isPort page = true → portUp page c = true → rd (linkFld page) t.chip / 2 ^ 9 % 2 ^ 3 = 4)) ∧
    (¬ mayCluster → exec (.clusterSleep k) s = becomes s c) ∧
    (mayCluster → ∃ t, exec (.clusterSleep k) s = .next t ∧ t.pending = s.pending ∧ asleep (336 + k) t.chip ∧ cores fun n => domAwake n t.chip = false) ∧
    (¬ mayWayside → exec (.waysideSleep w) s = becomes s c) ∧
    (mayWayside → ∃ t, exec (.waysideSleep w) s = .next t ∧ t.pending = s.pending ∧ asleep (357 + w) t.chip) ∧
    (pllOn i c = false → exec (.edgeFault i) s = becomes s c) ∧
    (pllOn i c = true → ∃ e, (rd (Hdr.ERR_STATUS 2) e).testBit 0 = true ∧ rd (Reg.PWR_CTR 3) e = (rd (Reg.PWR_CTR 3) c + 1) % 2 ^ 64 ∧ e.mem = c.mem ∧ e.cores = c.cores ∧
      exec (.edgeFault i) s = becomes s (realigned (if i = 0 then fabricPages.foldl (fun t p => fencePage p t) e else fast.foldl stop e))) ∧
    (∃ e, rd Reg.MST_MS_TIME e = (rd Reg.MST_MS_TIME c + 10) % 2 ^ 64 ∧ e.mem = c.mem ∧ e.cores = c.cores ∧ onlyFields [Reg.MST_MS_TIME] c e ∧
      (let a := mapGet TolQ.off c.tolQs q
        let b := mapGet TolQ.off e.tolQs q
        (a.meter = false → b = a) ∧ (a.meter = true → b.cTok = min (tolUnits a.cbs) (a.cTok + a.cir) ∧ b.pTok = min (tolUnits a.pbs) (a.pTok + a.pir))) ∧
      (let a := mapGet Shaper.off c.tolShp q
        let b := mapGet Shaper.off e.tolShp q
        (a.en = false → b = a) ∧ (a.en = true → b.tok = min (tolUnits a.burst) (a.tok + a.rate))) ∧
      (rd Reg.STL_STALLS_USED c ≠ 0 → q < 2048 → stallState q c ≠ 0 → mapGet (0 : Int) e.stallMov q = min (tolUnits (stallF q 0xC4 23 0 c)) (mapGet (0 : Int) c.stallMov q + stallF q 0xC0 31 0 c) ∧
        mapGet (0 : Int) e.stallPail q = min (tolUnits (stallF q 0xCC 25 0 c)) (mapGet (0 : Int) c.stallPail q + stallF q 0xC8 31 0 c)) ∧
      exec .milestoneEdge s = becomes s (wakesJudge ((List.range 336).foldl (fun t n => if gated (coreStep n t) (now t / 10) then t else edgeCore (coreFin n) t) e)))

/-- R800–R810, R888, R900: throttling and sensors. Each region's hardware step rises by 1 where a sensor reads 105 °C, by 2 where the module draws more than 1,000 W, and falls where R804 lets it; the effective step is the greater of the two parts and is
taken at a period with p mod 16 = 0; a failed sensor is not valid and the fifth of a die forces step 12; the second sample at 115 °C trips; the loops set the firmware steps. -/
def Obligations.Throttling : Prop :=
  ∀ (s : State) (avg50 volts amps avg10 : Nat) (temps : List (Nat × Int × Bool)) (x : Int) (i : Fin 76) (g : Fin 64) (n so w f : Nat) (vs : List Nat), let c := s.chip
    let hw := fun (r : Nat) => rd (Reg.THM_HW_STEP r) c
    let top := fun (r : Nat) => if r = 3 then 4 else 12
    let serves := fun (r i : Nat) => rd (Reg.THM_VALID i) c = 1 ∧ (if r = 0 then i < 24 else if r = 1 then 24 ≤ i ∧ i < 48 else 48 ≤ i ∧ i < 58)
    let hot := fun (r : Nat) => ∃ i, serves r i ∧ 16 * 105 ≤ sensorTemp i c
    let cool := fun (r : Nat) => (∀ i, serves r i → sensorTemp i c < 16 * 100) ∧ c.powerRise ≠ some (now c) ∧ (r = 3 ∨ rd Reg.THM_AVG10_W c < rd Reg.THM_POWER_CAP_W c)
    let runs := c.boot.hold = false ∧ (rd Reg.BOOT_BOOT_STATE c = 3 ∨ rd Reg.BOOT_BOOT_STATE c = 4)
    let asks := fun (k r : Nat) (l : List Nat) => l.getD r (mapGet 0 c.loopStep (k + r))
    let firmware := fun (a b : Nat → Nat) (t : Chip) => ∀ r < 4, let v := if c.module.noFlow then top r else min (top r) (max (a r) (b r))
      rd (Reg.THM_FW_STEP r) t = v ∧ rd (Reg.THM_STEP r) t = max v (hw r) % 2 ^ 4
    let rising := fun (r : Nat) => hot r ∧ stepForced r c = false ∧ hw r < top r
    (∃ t, exec .throttleTempCheck s = .next t ∧ t.pending = s.pending ∧ t.chip.mem = c.mem ∧ (∀ r < 4,
      (rising r → rd (Reg.THM_HW_STEP r) t.chip = hw r + 1 ∧ rd (Reg.THM_STEP r) t.chip = max (rd (Reg.THM_FW_STEP r) c) (hw r + 1) % 2 ^ 4 ∧ (rd (Hdr.ERR_STATUS 3) t.chip).testBit 0 = true) ∧
      (¬ hot r → stepForced r c = false → cool r → hw r < 16 → rd (Reg.THM_HW_STEP r) t.chip = hw r - 1 ∧ rd (Reg.THM_STEP r) t.chip = max (rd (Reg.THM_FW_STEP r) c) (hw r - 1) % 2 ^ 4) ∧
      (stepForced r c = true ∨ (hot r ∧ top r ≤ hw r) ∨ (¬ hot r ∧ ¬ cool r) → rd (Reg.THM_HW_STEP r) t.chip = hw r ∧ rd (Reg.THM_STEP r) t.chip = rd (Reg.THM_STEP r) c)) ∧
      ((∀ r < 4, ¬ rising r) → rd (Hdr.ERR_STATUS 3) t.chip = rd (Hdr.ERR_STATUS 3) c)) ∧
    (avg50 ≤ 1000 → exec (.throttlePowerCheck avg50) s = becomes s c) ∧
    (1000 < avg50 → ∃ t, exec (.throttlePowerCheck avg50) s = .next t ∧ t.pending = s.pending ∧ t.chip.powerRise = some (now c) ∧ t.chip.mem = c.mem ∧ ∀ r < 4,
      rd (Reg.THM_HW_STEP r) t.chip = if r < 3 ∧ stepForced r c = false ∧ hw r < 12 then min 12 (hw r + 2) else hw r) ∧
    (now c / 10 % 16 ≠ 0 → exec .stepChange s = becomes s c) ∧
    (now c / 10 % 16 = 0 → ∃ m, exec .stepChange s = becomes s { c with stepNow := m } ∧ ∀ r < 4, mapGet 0 m r = rd (Reg.THM_STEP r) c) ∧
    (i.val ∈ c.sensorFailed → exec (.sensorFail i) s = becomes s c) ∧
    (i.val ∉ c.sensorFailed → ∃ t, exec (.sensorFail i) s = .next t ∧ t.pending = s.pending ∧ (∀ j, j ∈ t.chip.sensorFailed ↔ j = i ∨ j ∈ c.sensorFailed) ∧ rd (Reg.THM_VALID i) t.chip = 0 ∧
      (rd (Hdr.ERR_STATUS 3) t.chip).testBit 2 = true ∧ t.chip.mem = c.mem ∧ ∀ r < 2, rd (Reg.THM_HW_STEP r) t.chip = if stepForced r t.chip then 12 else hw r) ∧
    (∃ t, exec (.sensorSample temps volts amps avg10) s = .next t ∧ t.pending = s.pending ∧ rd Reg.SBI_INPUT_V t.chip = volts % 2 ^ 16 ∧ rd Reg.SBI_INPUT_A t.chip = amps % 2 ^ 16 ∧
      rd Reg.THM_INPUT_W t.chip = volts * amps / 10000 % 2 ^ 16 ∧ rd Reg.THM_AVG10_W t.chip = avg10 % 2 ^ 16 ∧ t.chip.mem = c.mem ∧
      (temps = [(i.val, x, true)] → i.val ∉ c.sensorFailed → rd (Reg.THM_TEMP i) t.chip = ofSigned 16 x % 2 ^ 16 ∧ rd (Reg.THM_VALID i) t.chip = 1 ∧
        mapGet 0 t.chip.hotSamples i.val = if 16 * 115 ≤ x then mapGet 0 c.hotSamples i + 1 else 0) ∧
      (temps = [(i.val, x, false)] → i.val ∉ c.sensorFailed → rd (Reg.THM_VALID i) t.chip = 0 ∧ i.val ∈ t.chip.sensorFailed)) ∧
    (rd Reg.THM_TRIPPED c = 1 ∨ mapGet 0 c.hotSamples g < 2 → exec (.thermalTrip g) s = becomes s c) ∧
    (rd Reg.THM_TRIPPED c ≠ 1 → 2 ≤ mapGet 0 c.hotSamples g → ∃ t, exec (.thermalTrip g) s = .next t ∧ t.pending = s.pending ∧ rd Reg.THM_TRIPPED t.chip = 1 ∧ rd Reg.THM_TRIP_SENSOR t.chip = g ∧ rd Reg.RST_SAFE_STATE t.chip = 1 ∧
      (rd Reg.RST_FATAL_CAUSE t.chip).testBit 0 = true ∧ rd Reg.RST_FAULT_PIN t.chip = 1 ∧ rd Reg.PWR_PLL_ON t.chip = 0 ∧ (∀ e < 431, domAwake e t.chip = false) ∧ t.chip.waking = [] ∧ t.chip.mem = c.mem ∧
      ∀ p ∈ dataPages, pageState p c = 2 ∨ pageState p c = 6 → pageState p t.chip = 4) ∧
    (¬ runs → exec (.thermalLoop n so w f) s = becomes s c ∧ exec (.powerLoop n so w) s = becomes s c ∧ exec (.voltageLoop vs) s = becomes s c) ∧
    (runs → ∃ t, exec (.thermalLoop n so w f) s = .next t ∧ t.pending = s.pending ∧ t.chip.mem = c.mem ∧ firmware (fun r => asks 0 r [n, so, w, f]) (fun r => mapGet 0 c.loopStep (4 + r)) t.chip) ∧
    (runs → ∃ t, exec (.powerLoop n so w) s = .next t ∧ t.pending = s.pending ∧ t.chip.mem = c.mem ∧ firmware (fun r => mapGet 0 c.loopStep r) (fun r => asks 4 r [n, so, w]) t.chip) ∧
    (runs → exec (.voltageLoop vs) s = becomes s { c with setpoints := vs })

/-! ### Faults and resets (chapter 22) -/

/-- R817–R825: fatal errors and FAULT_N. A fatal error is recorded and puts the device in the safe state: every page of the data plane that works is FENCED, no descriptor runs on, FAULT_N is pulsed and held. FAULT_N follows the pulse, the hold and the
ROM; a clear of the hold within the pulse takes effect at its end; `FAULT_HOLD` needs semaphore 0. -/
def Obligations.FatalErrors : Prop :=
  ∀ (s : State) (p : Party), let c := s.chip
    let safe := fun (i : Instr) (cause err : Nat) => ∃ t, exec i s = .next t ∧ t.pending = s.pending ∧ rd Reg.RST_SAFE_STATE t.chip = 1 ∧ (rd Reg.RST_FATAL_CAUSE t.chip).testBit cause = true ∧
      rd Reg.RST_FAULT_HOLD t.chip = 1 ∧ rd Reg.RST_FAULT_PULSE t.chip = 1 ∧ rd Reg.RST_FAULT_PIN t.chip = 1 ∧ (rd (Hdr.ERR_STATUS 4) t.chip).testBit err = true ∧ t.chip.movRun = [] ∧ t.chip.mem = c.mem ∧
      (∀ q ∈ dataPages, pageState q c ∈ [1, 2, 6] → pageState q t.chip = 4) ∧ (∀ q, q ∉ dataPages ∨ pageState q c ∈ [0, 3, 4] → pageState q t.chip = pageState q c)
    let pin := fun (on : Prop) (t : Chip) => (on → rd Reg.RST_FAULT_PIN t = 1) ∧ (¬ on → rd Reg.RST_FAULT_PIN t = 0)
    let pulse := rd Reg.RST_FAULT_PULSE c = 1
    let rom := c.boot.romFault = true
    let sets := fun (on : Bool) (P : Chip → Prop) => ∃ t, exec (.faultHoldWrite p on) s = .next t ∧ t.pending = s.pending ∧ t.chip.mem = c.mem ∧ onlyFields [Reg.RST_FAULT_HOLD, Reg.RST_FAULT_PIN] c t.chip ∧
      (isSteward p = true → t.chip.boot.romFault = false) ∧ (isSteward p = false → t.chip.boot.romFault = c.boot.romFault) ∧ P t.chip
    safe .fabricParity 2 0 ∧ safe .d2dFail 3 1 ∧
    (¬ pulse → exec .faultPulseEnd s = becomes s c) ∧
    (pulse → let hold := if c.holdClear then 0 else rd Reg.RST_FAULT_HOLD c
      ∃ t, exec .faultPulseEnd s = .next t ∧ t.pending = s.pending ∧ rd Reg.RST_FAULT_PULSE t.chip = 0 ∧ rd Reg.RST_FAULT_HOLD t.chip = hold ∧ pin (hold = 1 ∨ rom) t.chip ∧ t.chip.mem = c.mem ∧
        onlyFields [Reg.RST_FAULT_PULSE, Reg.RST_FAULT_HOLD, Reg.RST_FAULT_PIN] c t.chip) ∧
    (reaches p 4 c → (holdsSem p 0 c = false → ∀ on, exec (.faultHoldWrite p on) s = becomes s (refuse 4 0x07 0x108 c)) ∧
      (holdsSem p 0 c = true → sets true (fun t => rd Reg.RST_FAULT_HOLD t = 1 ∧ rd Reg.RST_FAULT_PIN t = 1) ∧
        (pulse → sets false fun t => rd Reg.RST_FAULT_HOLD t = rd Reg.RST_FAULT_HOLD c ∧ rd Reg.RST_FAULT_PIN t = 1 ∧ t.holdClear = true) ∧
        (¬ pulse → sets false fun t => rd Reg.RST_FAULT_HOLD t = 0 ∧ pin (rom ∧ isSteward p = false) t)))

/-- R826–R830, R841–R843: the resets of RST_CMD. Without semaphore 0 refused with 0x07; in the safe state result 4 except for a chip reset; result 1 for a target that does not exist, 3 where an automatic reset of the same engine is under way, 2 for a chip
reset above 95 °C; else result 0, and the reset acts on its target and is the latest. A chip reset erases keys, ends the safe state, forgets device memory and boots. -/
def Obligations.ResetCommands : Prop :=
  ∀ (s : State) (p : Party) (v written : Nat), let c := s.chip
    let all := [(0, Instr.rstChannel p v written), (1, .rstStall p v), (2, .rstCore p v), (3, .rstEngine p v), (4, .rstCluster p v), (5, .rstPort p v)]
    let given := fun (k target : Nat) (d : Chip) => rd Reg.RST_RST_KIND d = k ∧ rd Reg.RST_RST_TARGET d = target % 2 ^ 20 ∧ d.mem = c.mem ∧ d.cores = c.cores ∧ d.movRun = c.movRun
    let latest := fun (k : Nat) (d : Chip) => given k v d ∧ rd Reg.RST_LAST_KIND d = k ∧ rd Reg.RST_LAST_TARGET d = v % 2 ^ 20 ∧ rd Reg.RST_LAST_TIME d = rd Reg.MST_MS_TIME c % 2 ^ 64 ∧ rd (Reg.RST_CTR k) d = (rd (Reg.RST_CTR k) c + 1) % 2 ^ 64
    let result := fun (i : Instr) (k code : Nat) => ∃ t, exec i s = .next t ∧ t.pending = s.pending ∧ given k v t.chip ∧ rd Reg.RST_RST_RESULT t.chip = code
    let runs := fun (i : Instr) (k : Nat) (f : Chip → Chip) => ∃ d, latest k d ∧ exec i s = becomes s (wr Reg.RST_RST_RESULT 0 (f d))
    let e := v / 64
    let n := v % 64
    reaches p 4 c →
    (holdsSem p 0 c = false → (∀ i ∈ all, exec i.2 s = becomes s (refuse 4 0x07 0x100 c)) ∧ exec (.rstChip p) s = becomes s (refuse 4 0x07 0x100 c)) ∧
    (holdsSem p 0 c = true → rd Reg.RST_SAFE_STATE c = 1 → ∀ i ∈ all, result i.2 i.1 4) ∧
    (holdsSem p 0 c = true → rd Reg.RST_SAFE_STATE c ≠ 1 →
      (12 ≤ e → result (.rstChannel p v written) 0 1) ∧
      (e < 12 → (0x50 + e) ∈ c.recovering → result (.rstChannel p v written) 0 3) ∧
      (e < 12 → (0x50 + e) ∉ c.recovering → movRunOf e n c = none → movOwner e n c ≠ 0x9001 → ∃ t, exec (.rstChannel p v written) s = .next t ∧ t.pending = s.pending ∧ latest 0 t.chip ∧ rd Reg.RST_RST_RESULT t.chip = 0 ∧
        rd (Reg.MOV_CH_EN e n) t.chip = 0 ∧ rd (Reg.MOV_CH_STATE e n) t.chip = 0 ∧ rd (Reg.MOV_HEAD e n) t.chip = 0 ∧ rd (Reg.MOV_TAIL e n) t.chip = 0 ∧ rd (Reg.MOV_DONE e n) t.chip = 0) ∧
      (e < 12 → (0x50 + e) ∉ c.recovering → movOwner e n c ≠ 0x9001 → ∀ r, movRunOf e n c = some r → ∃ t, exec (.rstChannel p v written) s = .next t ∧ t.pending = s.pending ∧ rd Reg.RST_RST_RESULT t.chip = 0 ∧
        movRunOf e n t.chip = none ∧ rd (Reg.MOV_CH_EN e n) t.chip = 0 ∧ rd (Reg.MOV_CH_STATE e n) t.chip = 0 ∧ (rd (Hdr.ERR_STATUS (0x50 + e)) t.chip).testBit 1 = true) ∧
      (2048 ≤ v ∨ stallState v c = 0 → result (.rstStall p v) 1 1) ∧ (v < 2048 → stallState v c ≠ 0 → runs (.rstStall p v) 1 (stallReset v)) ∧
      (coreRuns v c = false → result (.rstCore p v) 2 1) ∧
      (coreRuns v c = true → ∃ d, given 2 v d ∧ exec (.rstCore p v) s = becomes s (wr Reg.RST_RST_RESULT 0 (coreReissue (coreFin v) 0 d))) ∧
      (isEngine v = false → result (.rstEngine p v) 3 1) ∧ (isEngine v = true → v ∈ c.recovering → result (.rstEngine p v) 3 3) ∧
      (isEngine v = true → v ∉ c.recovering → runs (.rstEngine p v) 3 (pageReset v)) ∧
      (21 ≤ v → result (.rstCluster p v) 4 1) ∧
      (v < 21 → runs (.rstCluster p v) 4 fun d => ((List.range 16).map (16 * v + ·)).foldl (fun d n => if coreRuns n d then coreReissue (coreFin n) 0 d else d) d) ∧
      (v < 8 ∨ (9 < v ∧ v < 0x10) ∨ 0x24 ≤ v → result (.rstPort p v) 5 1) ∧
      (v = 8 ∨ v = 9 → runs (.rstPort p v) 5 (hostReset (v - 8) .linkDown)) ∧ (0x10 ≤ v → v < 0x24 → runs (.rstPort p v) 5 (pageReset v))) ∧
    (holdsSem p 0 c = true → tooHot c = true → ∃ t, exec (.rstChip p) s = .next t ∧ t.pending = s.pending ∧ given 6 0 t.chip ∧ rd Reg.RST_RST_RESULT t.chip = 2 ∧ rd (Hdr.REFUSAL_CODE 4) t.chip = 0x20) ∧
    (holdsSem p 0 c = true → tooHot c = false → ∃ t, exec (.rstChip p) s = .next t ∧ t.pending = s.pending ∧ rd Reg.RST_RST_RESULT t.chip = 0 ∧ rd Reg.RST_SAFE_STATE t.chip = 0 ∧ rd Reg.RST_FATAL_CAUSE t.chip = 0 ∧
      rd Reg.THM_TRIPPED t.chip = 0 ∧ rd Reg.PWR_PLL_ON t.chip = 0 ∧ (∀ d < 431, domAwake d t.chip = false) ∧ rd Reg.RST_LAST_KIND t.chip = 6 ∧ rd (Reg.RST_CTR 6) t.chip = (rd (Reg.RST_CTR 6) c + 1) % 2 ^ 64 ∧
      rd Reg.MST_MS_TIME t.chip = 0 ∧ rd Reg.BOOT_BOOT_CAUSE t.chip = 1 ∧ rd Reg.SBI_JTAG_STATE t.chip = 0 ∧ t.chip.keys = [] ∧ ∀ a < 2 ^ 64, ld spDev a 1 t.chip = 0)

/-- R810, R831–R835, R838–R842, R850, R898: recovery and memory errors. A watchdog on an engine that holds work is told and fences the engine, automatically reset where `AUTO_RECOVER` is 1; the end of an automatic reset enables and checks the page anew;
a parity error of a cluster reissues its members. A corrected error counts, and at the threshold the row is spared or its block retired; an uncorrected one poisons its line and does so at once. -/
def Obligations.ErrorRecovery : Prop :=
  ∀ (s : State) (page : Nat) (k : Fin 21) (addr : Nat) (kind : MemErr) (m n j : Nat), let c := s.chip
    let latest := fun (kind target : Nat) (d : Chip) => rd Reg.RST_LAST_KIND d = kind ∧ rd Reg.RST_LAST_TARGET d = target % 2 ^ 20 ∧ rd (Reg.RST_CTR kind) d = (rd (Reg.RST_CTR kind) c + 1) % 2 ^ 64
    let watched := isEngine page = true ∧ (page < 0x50 ∨ 0x5C ≤ page) ∧ pageIdle page c = false ∧ (working page c = true ∨ pageState page c = 5)
    let told := fun (d : Chip) => rd Reg.RST_WDOG_BLOCK d = page % 2 ^ 16 ∧ (rd (Hdr.ERR_STATUS 4) d).testBit 2 = true ∧ d.mem = c.mem ∧ d.recovering = c.recovering ∧ pageState page d = pageState page c
    let auto := rd Reg.RST_AUTO_RECOVER c = 1 ∧ rd Reg.RST_SAFE_STATE c ≠ 1
    let row := addr - addr % (if m = 6 then 2048 else 1024)
    let spares := rd (Reg.MEM_SPARES_LEFT m n) c
    let bit := fun (b : Nat) (t : Chip) => (rd (Hdr.ERR_STATUS (0xA0 + m)) t).testBit b = true
    let repaired := fun (t : Chip) => (spares ≠ 0 → rd (Reg.MEM_SPARES_LEFT m n) t = (spares - 1) % 2 ^ 6 ∧ bit 2 t) ∧
      (spares = 0 → j < 128 → (∀ i < j, rd (Reg.MEM_RETIRED_VALID m i) c = 1) → rd (Reg.MEM_RETIRED_VALID m j) c ≠ 1 → rd (Reg.MEM_RETIRED_VALID m j) t = 1 ∧ rd (Reg.MEM_RETIRED_ADDR m j) t = (row - row % 0x10000) % 2 ^ 48 ∧
        rd (Reg.MEM_RETIRED_ACTIVITY m j) t = rd (Reg.MEM_ACTIVITY m n) c % 2 ^ 4 ∧ bit 3 t) ∧
      (spares = 0 → (∀ i < 128, rd (Reg.MEM_RETIRED_VALID m i) c = 1) → bit 4 t)
    let recent := (c.rowCorr.filter fun e => e.1 == row && decide (now c ≤ e.2 + 3600000000000)).length + 1
    let limit := rd (Reg.MEM_CORR_THRESHOLD m) c
    let ends := fun (k : MemErr) (P : Chip → Prop) => ∃ t, exec (.memoryReadError addr k) s = .next t ∧ t.pending = s.pending ∧ t.chip.mem = c.mem ∧ P t.chip
    (∃ d, latest 4 k d ∧ d.mem = c.mem ∧ d.cores = c.cores ∧ exec (.clusterParity k) s =
      becomes s (((List.range 16).map (16 * k.val + ·)).foldl (fun d n => if coreRuns n d then coreReissue (coreFin n) 0 d else d) d)) ∧
    (¬ watched → exec (.engWdog page) s = becomes s c) ∧
    (watched → ∃ d, told d ∧ (working page c = false → exec (.engWdog page) s = becomes s d) ∧ (working page c = true → ¬ auto → exec (.engWdog page) s = becomes s (fencePage page d)) ∧
      (working page c = true → auto → exec (.engWdog page) s = becomes s (fenceOne page { d with recovering := setAdd c.recovering page }))) ∧
    (page ∉ c.recovering → exec (.autoRecoveryEnd page) s = becomes s c) ∧
    (page ∈ c.recovering → rd Reg.RST_SAFE_STATE c = 1 → exec (.autoRecoveryEnd page) s = becomes s { c with recovering := setDel c.recovering page }) ∧
    (page ∈ c.recovering → rd Reg.RST_SAFE_STATE c ≠ 1 → let e := wr (Hdr.EN page) 1 (pageOff true page (wr (Hdr.EN page) 0 c))
      (pageCheck page e = none → ∃ t, exec (.autoRecoveryEnd page) s = .next t ∧ t.pending = s.pending ∧ rd Reg.RST_LAST_KIND t.chip = 3 ∧ rd Reg.RST_LAST_TARGET t.chip = page % 2 ^ 20 ∧ page ∉ t.chip.recovering) ∧
      (∀ code off, pageCheck page e = some (code, off) → ∃ d, rd (Hdr.EN page) d = 0 ∧ pageState page d = 3 ∧ (hasHeader page = true → rd (Hdr.REFUSAL_CODE page) d = code % 2 ^ 8 ∧ rd (Hdr.REFUSAL_OFFSET page) d = off % 2 ^ 24) ∧
        page ∉ d.recovering ∧ (rd (Hdr.ERR_STATUS 4) d).testBit 3 = true ∧ exec (.autoRecoveryEnd page) s = becomes s (pageLost page d))) ∧
    (devChannel addr = none ∨ retiredHit addr 1 c = true → exec (.memoryReadError addr kind) s = becomes s c) ∧
    (devChannel addr = some (m, n) → retiredHit addr 1 c = false →
      ends .uncorrectable (fun t => bit 1 t ∧ anyPoison spDev (addr - addr % 64) 64 t = true ∧ repaired t) ∧
      (limit = 0 ∨ recent < limit → ends .corrected fun t => bit 0 t ∧ rd (Reg.MEM_SPARES_LEFT m n) t = spares ∧ t.rowCorr = c.rowCorr ++ [(row, now c)] ∧ t.poison = c.poison) ∧
      (limit ≠ 0 → limit ≤ recent → ends .corrected fun t => bit 0 t ∧ repaired t ∧ t.rowCorr = c.rowCorr.filter (fun e => e.1 != row) ∧ t.poison = c.poison))

/-! ### Management and the module (chapters 23 and 24) -/

/-- R845–R849, R872: the time base and the management port. `STEP_NS` is a nonzero multiple of 160, not of a host, and not negative while HRD, COL or LBY is not OFF; it acts at a period whose number is a multiple of 16. The selected source trims the frequency
within 200 ppm and takes the state through ACQUIRING to LOCKED; its loss is told. In a live update's hold frames wait, 256 at most. A datagram that is no notice of this job's peer is dropped and told. -/
def Obligations.TimeAndFrames : Prop :=
  ∀ (s : State) (p : Party) (x : Int) (v trim err time src : Nat) (locked : Bool) (m : Option LbyMsg) (data : List Nat), let c := s.chip
    let st := rd Reg.MST_TIME_STATE c
    let disc := rd Reg.MST_DISC_SRC c
    let next := if locked = true ∧ (st = 1 ∨ st = 2) then 2 else 1
    let tr := toSigned 32 trim
    let cut := if tr < -13107200 then -13107200 else if 13107200 < tr then 13107200 else tr
    let off := fun (q : Nat) => pageState q c = 0
    let step := (BitVec.ofInt 64 x).toNat
    let late := fun (f : MgmtFrame) => if c.boot.kept.length < 256 then becomes s { c with boot := { c.boot with kept := c.boot.kept ++ [f] } } else becomes s { c with boot := { c.boot with dropped := c.boot.dropped + 1 } }
    let ours := fun (y : LbyMsg) => m = some y ∧ src = rd Reg.SBI_MGMT_PEER c ∧ y.jobId = rd Reg.LBY_JOB_ID c
    (reaches p 6 c →
      (isHost p = true → exec (.stepNsWrite p v) s = becomes s (refuse 6 0x03 0x110 c)) ∧
      (isHost p = false → -2 ^ 63 ≤ x → x < 2 ^ 63 →
        (x = 0 ∨ x % 160 ≠ 0 → exec (.stepNsWrite p step) s = becomes s (refuse 6 0x20 0x110 c)) ∧
        (x ≠ 0 → x % 160 = 0 → x < 0 → ¬ (off 0x70 ∧ off 0x61 ∧ off 0x78) → exec (.stepNsWrite p step) s = becomes s (refuse 6 0x21 0x110 c)) ∧
        (x ≠ 0 → x % 160 = 0 → 0 < x ∨ (off 0x70 ∧ off 0x61 ∧ off 0x78) → exec (.stepNsWrite p step) s = becomes s { c with timeStep := some step }))) ∧
    (c.timeStep = none ∨ now c / 10 % 16 ≠ 0 → exec .timeStepApply s = becomes s c) ∧
    (c.timeStep = some v → now c / 10 % 16 = 0 → ∃ t, exec .timeStepApply s = .next t ∧ t.pending = s.pending ∧ now t.chip = (now c + v) % 2 ^ 64 ∧ t.chip.timeStep = none ∧ t.chip.mem = c.mem ∧ t.chip.cores = c.cores) ∧
    (∃ t, exec (.ppsEdge time trim locked) s = .next t ∧ t.pending = s.pending ∧ rd Reg.MST_PPS_CAPTURE t.chip = time % 2 ^ 64 ∧ rd Reg.SBI_PPS_SEEN t.chip = 1 ∧ t.chip.mem = c.mem ∧
      (disc = 2 → rd Reg.MST_TIME_STATE t.chip = next ∧ toSigned 32 (rd Reg.MST_FREQ_TRIM t.chip) = cut) ∧ (disc ≠ 2 → rd Reg.MST_TIME_STATE t.chip = st ∧ rd Reg.MST_FREQ_TRIM t.chip = rd Reg.MST_FREQ_TRIM c)) ∧
    (disc = 0 ∨ (st ≠ 1 ∧ st ≠ 2) → exec .timeSourceLost s = becomes s c) ∧
    (disc ≠ 0 → st = 1 ∨ st = 2 → ∃ t, exec .timeSourceLost s = .next t ∧ t.pending = s.pending ∧ rd Reg.MST_TIME_STATE t.chip = 3 ∧ (rd (Hdr.ERR_STATUS 6) t.chip).testBit 0 = true ∧ t.chip.mem = c.mem) ∧
    (c.boot.hold = true → exec (.ptpSync trim err locked) s = late (.sync trim err locked) ∧ exec (.icmpEcho src data) s = late (.echo src data) ∧ exec (.mgmtDatagram src m) s = late (.datagram src m)) ∧
    (c.boot.hold = false →
      exec (.icmpEcho src data) s = becomes s (emit (.icmp src data) c) ∧
      (disc ≠ 1 → exec (.ptpSync trim err locked) s = becomes s c) ∧
      (disc = 1 → ∃ t, exec (.ptpSync trim err locked) s = .next t ∧ t.pending = s.pending ∧ rd Reg.MST_TIME_STATE t.chip = next ∧ toSigned 32 (rd Reg.MST_FREQ_TRIM t.chip) = cut ∧ rd Reg.MST_TIME_ERR_NS t.chip = err % 2 ^ 32 ∧ t.chip.mem = c.mem) ∧
      (∀ y, ours y → exec (.mgmtDatagram src m) s = becomes s (lbyNotice y.a0 (bump (Reg.MST_CTR 4) 1 c))) ∧
      ((∀ y, ¬ ours y) → ∃ t, exec (.mgmtDatagram src m) s = .next t ∧ t.pending = s.pending ∧ rd (Reg.MST_CTR 5) t.chip = (rd (Reg.MST_CTR 5) c + 1) % 2 ^ 64 ∧ (rd (Hdr.ERR_STATUS 0xB0) t.chip).testBit 5 = true ∧
        t.chip.mem = c.mem ∧ t.chip.lby = c.lby)) ∧
    (∃ t, exec .mgmtLinkDown s = .next t ∧ t.pending = s.pending ∧ rd Reg.SBI_MGMT_LINK t.chip = 0 ∧ (rd (Hdr.ERR_STATUS 0xB0) t.chip).testBit 2 = true ∧ t.chip.mem = c.mem)

/-- R850–R855: telemetry. A datagram takes the oldest whole records that fit in 1,452 B behind its header of 16 B; the sensors' and the counters' records hold the registers as they stand; a publish ring is read from `PUB_CONSUMED` while the `PHASE` of its slot is
the expected one, and the count goes back to the ring's header; a slot that cannot be read is counted and told. -/
def Obligations.Telemetry : Prop :=
  ∀ (s : State) (bad : List Nat) (r : Fin 32) (k : Nat), let c := s.chip
    let size := fun (n : Nat) => 16 + ((c.tel.take n).map telBytes).sum
    let exports := rd Reg.MST_EXPORT_EN c = 1 ∧ c.boot.hold = false ∧ (rd Reg.BOOT_BOOT_STATE c = 3 ∨ rd Reg.BOOT_BOOT_STATE c = 4) ∧ c.tel ≠ [] ∧ size 1 ≤ 1452
    let n := rd (Reg.MST_PUB_CONSUMED r) c
    let slots := 2 ^ rd (Reg.MST_PUB_LOG2 r) c
    let reach := pubReach r c
    let slot := fun (n : Nat) => readRange reach.1 (reach.2 + 64 + 64 * (n % slots)) 64 c
    let unread := fun (n : Nat) => (slot n).2 = true ∨ r * 4096 + n % slots ∈ bad
    let fresh := fun (n : Nat) => leNat (((slot n).1.drop 60).take 1) % 2 = (n / slots + 1) % 2
    let consumed := bump (Reg.MST_PUB_CONSUMED r) 1
    let header := leBytes 8 ((n + 1) % 2 ^ 32)
    (¬ exports → exec .exportDatagram s = becomes s c) ∧
    (exports → ∃ t b j, exec .exportDatagram s = .next t ∧ t.pending = s.pending ∧ t.chip.out = c.out ++ [.telemetry b] ∧ 1 ≤ j ∧ j ≤ c.tel.length ∧ t.chip.tel = c.tel.drop j ∧ b.length = size j ∧ size j ≤ 1452 ∧
      (j < c.tel.length → 1452 < size (j + 1)) ∧ leNat (b.take 2) = 1 ∧ leNat ((b.drop 2).take 2) = j % 2 ^ 16 ∧ leNat ((b.drop 4).take 4) = c.dgramSeq % 2 ^ 32 ∧
      t.chip.dgramSeq = (c.dgramSeq + 1) % 2 ^ 32 ∧ t.chip.telLostSince = 0 ∧ rd (Reg.MST_CTR 1) t.chip = (rd (Reg.MST_CTR 1) c + 1) % 2 ^ 64 ∧ t.chip.mem = c.mem) ∧
    (rd Reg.MST_SENSOR_PERIOD_MS c = 0 → exec .sensorsSample s = becomes s c) ∧
    (rd Reg.MST_SENSOR_PERIOD_MS c ≠ 0 → ∃ b, exec .sensorsSample s = becomes s (telemetry 3 3 0 b c) ∧ b.length = 536 ∧
      (k < 76 → rd (Reg.THM_TEMP k) c < 2 ^ 16 → rd (Reg.THM_VALID k) c < 2 → leNat ((b.drop (4 * k)).take 4) = rd (Reg.THM_TEMP k) c + 2 ^ 31 * rd (Reg.THM_VALID k) c)) ∧
    (rd Reg.MST_COUNTER_PERIOD_S c = 0 → exec .countersSample s = becomes s c) ∧
    (rd Reg.MST_COUNTER_PERIOD_S c ≠ 0 → ∃ q b, exec .countersSample s = becomes s (telemetry 4 q 0 b { c with ctrPage := (c.ctrPage + 1) % counterPages.length }) ∧
      (c.ctrPage % counterPages.length = 0 → q = 2 ∧ b = [0, 1, 2, 3].flatMap fun k => leBytes 8 (rd (Reg.PWR_CTR k) c))) ∧
    exec (.pubPoll bad) s = becomes s ((List.range 32).foldl (pubRing bad) c) ∧
    (rd (Reg.MST_PUB_EN r) c ≠ 1 → pubRing bad c r = c) ∧
    (rd (Reg.MST_PUB_EN r) c = 1 → rd (Reg.MST_PUB_LOC r) c < 2 → funcLive (rd (Reg.MST_PUB_LOC r) c) 0 c = false → pubRing bad c r = c) ∧
    (rd (Reg.MST_PUB_EN r) c = 1 → rd (Reg.MST_PUB_LOC r) c < 2 → reach = (0x8000 + rd (Reg.MST_PUB_LOC r) c, 2 ^ 62 * (rd (Reg.MST_PUB_LOC r) c + 1) + rd (Reg.MST_PUB_BASE r) c % 2 ^ 62)) ∧
    (pubPolled r c = true → ¬ unread n → ¬ fresh n → pubRing bad c r = c) ∧
    (pubPolled r c = true → n + 1 < 2 ^ 32 → ¬ unread n → fresh n → ¬ unread (n + 1) → ¬ fresh (n + 1) →
      pubRing bad c r = writeRange reach.1 reach.2 header (telemetry 7 r 0 ((slot n).1.take 60) (consumed c))) ∧
    (pubPolled r c = true → n + 1 < 2 ^ 32 → unread n → ¬ unread (n + 1) → ¬ fresh (n + 1) →
      pubRing bad c r = writeRange reach.1 reach.2 header (raise 6 0x1A03 0 (consumed c)))

/-- R857–R859, R779: MCTP and PLDM. A request on a port whose PF0 is not in D0 or is in FLR is dropped; in a live update's hold a PLDM request is answered ERROR_NOT_READY; else it is counted and answered with what it asks for. The encodings and completion codes are the named standards' (log entry 42); PDRs and versions are the implementation's (log entry 39). R863–R870: the UART and JTAG. A character enters the receive FIFO with its framing, and is lost and told when 64 wait; a read takes the oldest; only the Steward transmits. A nonce stands until an attempt fails; a valid token unlocks and erases the keys; a third failure locks the port until a chip reset; EXTEST acts in the ROM's states alone. -/
def Obligations.ManagementPorts : Prop :=
  -- PlatformManagement
  (∀ (s : State) (ep : Fin 3) (v : Nat), let c := s.chip
    let all := [Instr.getTid ep, .setTid ep v, .getPldmVersion ep v, .getPldmTypes ep, .getPldmCommands ep v, .getPdr ep v, .getSensorReading ep v, .getStateSensorReadings ep v, .setEventReceiver ep v]
    let live := ep.val = 0 ∨ funcLive (ep - 1) 0 c = true
    let counted := fun (d : Chip) => bump (Reg.MST_CTR 2) 1 d
    let answers := fun (i : Instr) (code : Nat) (data : List Nat) => exec i s = becomes s (emit (.pldm ep code data) (counted c))
    let known := v = 0 ∨ v = 2 ∨ v = 4
    let reading := fun (state value : Nat) => [3, state, 0, 0, 0, 0, value % 256, value / 256 % 256]
    (¬ live → (∀ i ∈ all, exec i s = becomes s c) ∧ exec (.setEndpointId ep v) s = becomes s c) ∧
    (live → c.boot.hold = true → (∀ i ∈ all, exec i s = becomes s (emit (.pldm ep 4 []) (bump (Reg.MST_CTR 3) 1 (counted c)))) ∧ exec (.setEndpointId ep v) s = becomes s (emit (.pldm ep 4 []) c)) ∧
    (live → c.boot.hold = false →
      answers (.getTid ep) 0 [mapGet 0 c.tids ep.val] ∧
      (0 < v → v < 255 → ∃ t, exec (.setTid ep v) s = .next t ∧ t.pending = s.pending ∧ mapGet 0 t.chip.tids ep.val = v ∧ (∀ e, e ≠ ep.val → mapGet 0 t.chip.tids e = mapGet 0 c.tids e) ∧ t.chip.out = c.out ++ [.pldm ep 0 []]) ∧
      (v = 0 ∨ 255 ≤ v → answers (.setTid ep v) 2 []) ∧
      (known → answers (.getPldmVersion ep v) 0 (leBytes 4 (Config.pldmVersion v))) ∧ (¬ known → answers (.getPldmVersion ep v) 0x83 [] ∧ answers (.getPldmCommands ep v) 0x83 []) ∧
      answers (.getPldmTypes ep) 0 [0x15, 0, 0, 0, 0, 0, 0, 0] ∧
      (known → ∃ b, answers (.getPldmCommands ep v) 0 b ∧ b.length = 32 ∧ ∀ k < 256, (leNat b).testBit k = true ↔ k ∈ (if v = 0 then [1, 2, 3, 4, 5] else if v = 2 then [0x04, 0x0A, 0x11, 0x21, 0x51] else [1, 2])) ∧
      answers (.getPdr ep v) 0 (Config.pdr v) ∧
      (v < 76 → answers (.getSensorReading ep v) 0 (reading (if rd (Reg.THM_VALID v) c = 1 then 0 else 4) (rd (Reg.THM_TEMP v) c))) ∧
      (v = 76 → answers (.getSensorReading ep v) 0 (reading 0 (rd Reg.THM_INPUT_W c))) ∧ (v = 77 → answers (.getSensorReading ep v) 0 (reading 0 (rd Reg.THM_AVG10_W c))) ∧
      (77 < v → answers (.getSensorReading ep v) 0x80 []) ∧
      (v < 4 → answers (.getStateSensorReadings ep v) 0 [1, 0, rd (Reg.THM_STEP v) c, 0, 0]) ∧ (4 ≤ v → answers (.getStateSensorReadings ep v) 0x80 []) ∧
      (∃ t, exec (.setEventReceiver ep v) s = .next t ∧ t.pending = s.pending ∧ mapGet 0 t.chip.evtReceiver ep.val = v % 256 ∧ t.chip.out = c.out ++ [.pldm ep 0 []]) ∧
      (8 ≤ v → v ≤ 254 → ∃ t, exec (.setEndpointId ep v) s = .next t ∧ t.pending = s.pending ∧ mapGet 0 t.chip.eids ep.val = v ∧ t.chip.out = c.out ++ [.pldm ep 0 [v]] ∧ t.chip.regs = c.regs) ∧
      (v < 8 ∨ 254 < v → exec (.setEndpointId ep v) s = becomes s (emit (.pldm ep 2 []) c)))) ∧
  -- UartAndJtag
  (∀ (s : State) (p : Party) (v : Nat) (stop line par : Bool) (tok : Token), let c := s.chip
    let shows := fun (t : Chip) => rd Reg.SBI_RX_LEVEL t = t.uartRx.length % 2 ^ 7 ∧ rd Reg.SBI_DATA t = t.uartRx.headD 0 % 2 ^ 8 ∧ rd Reg.SBI_RX_VALID t = t.uartRx.headD 0 / 2 ^ 31 % 2
    let char := v % (if rd Reg.SBI_DATA7 c = 1 then 128 else 256) + (if stop then 2 ^ 8 else 0) + (if stop && line then 2 ^ 9 else 0) + (if par = true ∧ rd Reg.SBI_PARITY c ≠ 0 then 2 ^ 10 else 0) + 2 ^ 31
    let err := fun (b : Nat) (t : Chip) => (rd (Hdr.ERR_STATUS 0xB0) t).testBit b = true
    let fails := rd Reg.SBI_JTAG_FAILS c
    let rom := (rd Reg.BOOT_BOOT_STATE c = 0 ∨ rd Reg.BOOT_BOOT_STATE c = 6) ∧ rd Reg.SBI_PERST_IN c = 0
    let free := becomes s (emit (.jtag (freeVal c).toNat) (useFree c))
    (∃ t, exec (.uartRxChar v stop line par) s = .next t ∧ t.pending = s.pending ∧ t.chip.mem = c.mem ∧ (stop = true → err 1 t.chip) ∧
      (c.uartRx.length < 64 → t.chip.uartRx = c.uartRx ++ [char] ∧ shows t.chip) ∧ (64 ≤ c.uartRx.length → t.chip.uartRx = c.uartRx ∧ err 0 t.chip)) ∧
    (∃ t, exec (.uartRxPop p) s = .next t ∧ t.pending = s.pending ∧ t.chip.uartRx = c.uartRx.drop 1 ∧ t.chip.out = c.out ++ [.readData p (c.uartRx.headD 0)] ∧ shows t.chip ∧ t.chip.mem = c.mem) ∧
    (reaches p 0xB0 c → (isSteward p = true → exec (.uartTx p v) s = becomes s (emit (.uart (v % 256)) c)) ∧ (isSteward p = false → exec (.uartTx p v) s = becomes s (refuse 0xB0 0x03 0x104 c))) ∧
    (∀ x : Word, c.nonce = some x → exec .unlockChallenge s = becomes s (emit (.jtag x.toNat) c)) ∧
    (c.nonce = none → ∃ t x, exec .unlockChallenge s = .next t ∧ t.pending = s.pending ∧ t.chip.nonce = some x ∧ t.chip.out = c.out ++ [.jtag x.toNat] ∧ t.chip.regs = c.regs) ∧
    (3 ≤ fails → exec (.unlockResponse tok) s = becomes s c) ∧
    (fails < 3 → tokenOk tok c = false → ∃ t, exec (.unlockResponse tok) s = .next t ∧ t.pending = s.pending ∧ rd Reg.SBI_JTAG_FAILS t.chip = fails + 1 ∧ t.chip.nonce = none ∧ err 4 t.chip ∧ t.chip.mem = c.mem ∧
      rd Reg.SBI_JTAG_STATE t.chip = rd Reg.SBI_JTAG_STATE c) ∧
    (fails < 3 → tokenOk tok c = true → ∃ d, rd Reg.SBI_JTAG_STATE d = 1 ∧ rd Reg.SBI_JTAG_SCOPE d = tok.scope ∧ err 3 d ∧ exec (.unlockResponse tok) s = becomes s (nodeRecord 5 d)) ∧
    (tok.serial ≠ ownSerial c ∨ c.nonce ≠ some (BitVec.ofNat 64 tok.nonce) ∨ (rd Reg.BOOT_KEY_REVOKED c).testBit tok.slot = true ∨ 16 ≤ tok.scope → tokenOk tok c = false) ∧
    (rom → exec .extest s = free) ∧ (¬ rom → exec .extest s = becomes s (emit (.jtag 0) c)) ∧
    exec .bypass s = becomes s (emit (.jtag 0) c) ∧ exec .idcode s = becomes s (emit (.jtag Config.idcode) c) ∧ exec .samplePreload s = free)

/-- R875, R880–R888: the module's supply. The rails come up when PWR_EN and COOLANT_OK are high, P1 is in range and the 100 ms of low PWR_EN are over; they go with PWR_EN or P1, and with them all but OTP, flash and what the pins and the outside hold; without
rails PWR_EN falls, or with it low P1 goes. Low coolant sets every firmware step to its maximum. -/
def Obligations.ModulePower : Prop :=
  ∀ (s : State) (mv : Nat) (h : Fin 2), let c := s.chip
    let m := c.module
    let en := rd Reg.SBI_PWR_EN_IN c = 1
    let flow := rd Reg.SBI_COOLANT_OK_IN c = 1
    let module := fun (i : Instr) (n : ModuleSt) => exec i s = becomes s { c with module := n }
    let runs := c.boot.hold = false ∧ (rd Reg.BOOT_BOOT_STATE c = 3 ∨ rd Reg.BOOT_BOOT_STATE c = 4)
    let warns := fun (mv : Nat) => 36000 ≤ mv ∧ mv < 40000
    (en → exec .pwrEnRise s = becomes s c) ∧
    (¬ en → ∃ t, exec .pwrEnRise s = .next t ∧ t.pending = s.pending ∧ rd Reg.SBI_PWR_EN_IN t.chip = 1 ∧ onlyFields [Reg.SBI_PWR_EN_IN] c t.chip ∧ t.chip.mem = c.mem ∧
      t.chip.module = if m.low then { m with held := true } else if flow ∧ m.input = true then { m with good := true } else m) ∧
    (m.held = false → module .pwrEnHoldEnd { m with low := false, held := false }) ∧
    (m.held = true → module .pwrEnHoldEnd { m with low := false, held := false, good := if en ∧ flow ∧ m.input = true then true else m.good }) ∧
    (∃ t, exec .coolantOkRise s = .next t ∧ t.pending = s.pending ∧ rd Reg.SBI_COOLANT_OK_IN t.chip = 1 ∧ onlyFields [Reg.SBI_COOLANT_OK_IN] c t.chip ∧ t.chip.mem = c.mem ∧
      t.chip.module = if m.good = false ∧ en ∧ m.input = true ∧ m.low = false then { m with good := true } else m) ∧
    module .inputPowerUp { m with input := true } ∧
    (m.good = true → ∃ t, exec .powerOff s = .next t ∧ t.pending = s.pending ∧ t.chip.module = ⟨m.input, false, true, false, false⟩ ∧ rd Reg.SBI_PWR_EN_IN t.chip = 0 ∧ rd Reg.BOOT_BOOT_STATE t.chip = 0 ∧ t.chip.keys = [] ∧ t.chip.cores = [] ∧
      rd Reg.BOOT_KEY_REVOKED t.chip = rd Reg.BOOT_KEY_REVOKED c ∧ rd Reg.BOOT_ROLLBACK_COUNT t.chip = rd Reg.BOOT_ROLLBACK_COUNT c ∧
      ∀ a < 2 ^ 64, ld spDev a 1 t.chip = 0 ∧ ld spAon a 1 t.chip = 0 ∧ ld (spHost h) a 1 t.chip = ld (spHost h) a 1 c ∧ ld (spFlash h) a 1 t.chip = ld (spFlash h) a 1 c) ∧
    (m.good = false → en → ∃ t, exec .powerOff s = .next t ∧ t.pending = s.pending ∧ rd Reg.SBI_PWR_EN_IN t.chip = 0 ∧ t.chip.module = { m with low := true, held := false } ∧ onlyFields [Reg.SBI_PWR_EN_IN] c t.chip ∧ t.chip.mem = c.mem) ∧
    (m.good = false → ¬ en → module .powerOff { m with input := false }) ∧
    (¬ warns mv → exec (.inputVLow mv) s = becomes s c) ∧
    (warns mv → ∃ t, exec (.inputVLow mv) s = .next t ∧ t.pending = s.pending ∧ rd Reg.SBI_INPUT_V t.chip = mv / 10 ∧ (rd (Hdr.ERR_STATUS 0xB0) t.chip).testBit 7 = true ∧ t.chip.mem = c.mem) ∧
    (∃ t, exec .coolantLost s = .next t ∧ t.pending = s.pending ∧ rd Reg.SBI_COOLANT_OK_IN t.chip = 0 ∧ t.chip.mem = c.mem ∧ (m.good = false → t.chip.module = m ∧ onlyFields [Reg.SBI_COOLANT_OK_IN] c t.chip) ∧
      (m.good = true → t.chip.module.noFlow = true ∧ (rd (Hdr.ERR_STATUS 0xB0) t.chip).testBit 6 = true ∧ (runs → ∀ r < 4, rd (Reg.THM_FW_STEP r) t.chip = if r = 3 then 4 else 12))) ∧
    (m.noFlow = false → exec .coolantRestore s = becomes s c) ∧
    (m.noFlow = true → ∃ t, exec .coolantRestore s = .next t ∧ t.pending = s.pending ∧ rd Reg.SBI_COOLANT_OK_IN t.chip = 1 ∧ t.chip.module = { m with noFlow := false } ∧ t.chip.mem = c.mem ∧
      (runs → ∀ r < 4, rd (Reg.THM_FW_STEP r) t.chip = min (if r = 3 then 4 else 12) (max (mapGet 0 c.loopStep r) (mapGet 0 c.loopStep (4 + r)))))
end

