-- ==== Sys2Proof/Laws/Map.lean ====
section
/-! SUPPORT. The laws of the sparse maps: a read after a write, writes elsewhere, and that every operation keeps the canonical form. -/

namespace Sys2Proof.Machine

variable {α : Type}

theorem mapGet_drop_same (d : α) (m : SMap α) (k : Nat) : mapGet d (mapDrop m k) k = d := by
  induction m with
  | nil => rfl
  | cons e t ih =>
    obtain ⟨a, v⟩ := e
    by_cases h : a = k
    · simpa [mapDrop, h] using ih
    · simpa [mapDrop, mapGet, h] using ih

theorem mapGet_drop_ne (d : α) (m : SMap α) {k k' : Nat} (h : k' ≠ k) : mapGet d (mapDrop m k) k' = mapGet d m k' := by
  induction m with
  | nil => rfl
  | cons e t ih =>
    obtain ⟨a, v⟩ := e
    by_cases ha : a = k
    · have : ¬ a = k' := by omega
      simpa [mapDrop, mapGet, ha, show ¬ k = k' by omega] using ih
    · by_cases hk : a = k'
      · simp [mapDrop, mapGet, hk, h]
      · simpa [mapDrop, mapGet, ha, hk] using ih

theorem mapGet_insert_ne (d : α) (m : SMap α) {k k' : Nat} (v : α) (h : k' ≠ k) :
    mapGet d (mapInsert m k v) k' = mapGet d m k' := by
  induction m with
  | nil => simp [mapInsert, mapGet, show ¬ k = k' by omega]
  | cons e t ih =>
    obtain ⟨a, w⟩ := e
    by_cases hk : k < a
    · simp [mapInsert, mapGet, hk, show ¬ k = k' by omega]
    · by_cases ha : a = k'
      · simp [mapInsert, mapGet, ha, show ¬ k < k' by omega]
      · simp [mapInsert, mapGet, hk, ha, ih]

theorem mapGet_insert_same (d : α) (m : SMap α) (k : Nat) (v : α) (h : ∀ e ∈ m, e.1 ≠ k) :
    mapGet d (mapInsert m k v) k = v := by
  induction m with
  | nil => simp [mapInsert, mapGet]
  | cons e t ih =>
    obtain ⟨a, w⟩ := e
    have ha : ¬ a = k := h (a, w) (by simp)
    have ht := ih fun e he => h e (by simp [he])
    by_cases hk : k < a
    · simp [mapInsert, mapGet, hk]
    · simp [mapInsert, mapGet, hk, ha, ht]

/-- A read after a write to the same key gives the value written. -/
theorem mapGet_put_same [DecidableEq α] (d : α) (m : SMap α) (k : Nat) (v : α) : mapGet d (mapPut d m k v) k = v := by
  unfold mapPut
  split
  · simp_all [mapGet_drop_same]
  · exact mapGet_insert_same d _ k v fun e he => by simpa [mapDrop] using (List.mem_filter.mp he).2

/-- A write leaves every other key alone. -/
theorem mapGet_put_ne [DecidableEq α] (d : α) (m : SMap α) {k k' : Nat} (v : α) (h : k' ≠ k) :
    mapGet d (mapPut d m k v) k' = mapGet d m k' := by
  unfold mapPut
  split
  · exact mapGet_drop_ne d m h
  · rw [mapGet_insert_ne d _ v h, mapGet_drop_ne d m h]

theorem mapGet_put [DecidableEq α] (d : α) (m : SMap α) (k k' : Nat) (v : α) :
    mapGet d (mapPut d m k v) k' = if k' = k then v else mapGet d m k' := by
  by_cases h : k' = k
  · simp [h, mapGet_put_same]
  · simp [h, mapGet_put_ne d m v h]

/-! ### Ranges -/

theorem mapGet_append (d : α) (l r : SMap α) (k : Nat) (h : ∀ e ∈ r, e.1 ≠ k) : mapGet d (l ++ r) k = mapGet d l k := by
  induction l with
  | nil =>
    induction r with
    | nil => rfl
    | cons e t ih =>
      have he : ¬ e.1 = k := h e (by simp)
      have := ih fun x hx => h x (by simp [hx])
      simpa [mapGet, he] using this
  | cons e t ih => obtain ⟨a, v⟩ := e; simp only [List.cons_append, mapGet, ih]

theorem mapGet_append_left (d : α) (l r : SMap α) (k : Nat) (h : ∀ e ∈ l, e.1 ≠ k) : mapGet d (l ++ r) k = mapGet d r k := by
  induction l with
  | nil => rfl
  | cons e t ih =>
    have he : ¬ e.1 = k := h e (by simp)
    have := ih fun x hx => h x (by simp [hx])
    simpa [mapGet, he] using this

theorem mapGet_filter (d : α) (p : Nat → Bool) (m : SMap α) (k : Nat) :
    mapGet d (m.filter fun e => p e.1) k = if p k then mapGet d m k else d := by
  induction m with
  | nil => simp [mapGet]
  | cons e t ih =>
    obtain ⟨a, v⟩ := e
    by_cases ha : a = k
    · subst ha
      cases hp : p a <;> simp [hp, mapGet, ih]
    · cases hp : p a <;> simp [hp, mapGet, ha, ih]

theorem mapGet_below (d : α) (lo : Nat) (m : SMap α) (k : Nat) : mapGet d (mapBelow lo m) k = if k < lo then mapGet d m k else d := by
  simpa [mapBelow] using mapGet_filter d (fun a => decide (a < lo)) m k

theorem mapGet_above (d : α) (hi : Nat) (m : SMap α) (k : Nat) : mapGet d (mapAbove hi m) k = if hi ≤ k then mapGet d m k else d := by
  simpa [mapAbove] using mapGet_filter d (fun a => decide (hi ≤ a)) m k

theorem mapGet_slice (d : α) (lo hi : Nat) (m : SMap α) (k : Nat) :
    mapGet d (mapSlice lo hi m) k = if lo ≤ k ∧ k < hi then mapGet d m k else d := by
  simpa [mapSlice, Bool.and_eq_true] using mapGet_filter d (fun a => decide (lo ≤ a) && decide (a < hi)) m k

theorem mapBelow_lt {lo : Nat} {m : SMap α} {e : Nat × α} (h : e ∈ mapBelow lo m) : e.1 < lo := by simpa using (List.mem_filter.mp h).2
theorem mapAbove_le {hi : Nat} {m : SMap α} {e : Nat × α} (h : e ∈ mapAbove hi m) : hi ≤ e.1 := by simpa using (List.mem_filter.mp h).2
theorem mapSlice_mem {lo hi : Nat} {m : SMap α} {e : Nat × α} (h : e ∈ mapSlice lo hi m) : lo ≤ e.1 ∧ e.1 < hi := by
  simpa using (List.mem_filter.mp h).2

/-- A cleared range reads the default, every other key as before. -/
theorem mapGet_clear (d : α) (lo hi : Nat) (m : SMap α) (k : Nat) :
    mapGet d (mapClear lo hi m) k = if lo ≤ k ∧ k < hi then d else mapGet d m k := by
  unfold mapClear
  by_cases h : k < lo
  · rw [mapGet_append _ _ _ _ fun e he => by have := mapAbove_le he; omega, mapGet_below]
    simp [h, show ¬ lo ≤ k by omega]
  · rw [mapGet_append_left _ _ _ _ fun e he => by have := mapBelow_lt he; omega, mapGet_above]
    by_cases h' : k < hi
    · simp [h', show lo ≤ k by omega, show ¬ max lo hi ≤ k by omega]
    · simp [h', show lo ≤ k by omega, show max lo hi ≤ k by omega]

theorem mapRun_mem [DecidableEq α] (d : α) (vs : List α) (k : Nat) {e : Nat × α} (h : e ∈ mapRun d k vs) :
    k ≤ e.1 ∧ e.1 < k + vs.length := by
  induction vs generalizing k with
  | nil => simp [mapRun] at h
  | cons v r ih =>
    unfold mapRun at h
    split at h
    · have := ih (k + 1) h; simp; omega
    · rcases List.mem_cons.mp h with rfl | h
      · simp
      · have := ih (k + 1) h; simp; omega

theorem mapGet_run [DecidableEq α] (d : α) (vs : List α) (k i : Nat) : mapGet d (mapRun d k vs) (k + i) = vs.getD i d := by
  induction vs generalizing k i with
  | nil => simp [mapRun, mapGet]
  | cons v r ih =>
    unfold mapRun
    cases i with
    | zero =>
      have hr : mapGet d (mapRun d (k + 1) r) k = d := by
        have := mapGet_append_left d (mapRun d (k + 1) r) [] k fun e he => by have := mapRun_mem d r (k + 1) he; omega
        simpa [mapGet] using this
      split <;> simp_all [mapGet]
    | succ j =>
      have := ih (k + 1) j
      rw [show k + 1 + j = k + (j + 1) by omega] at this
      split <;> simp [mapGet, this]

/-- A written run reads the values written, every other key as before. -/
theorem mapGet_putRun [DecidableEq α] (d : α) (m : SMap α) (k : Nat) (vs : List α) (j : Nat) :
    mapGet d (mapPutRun d m k vs) j = if k ≤ j ∧ j < k + vs.length then vs.getD (j - k) d else mapGet d m j := by
  unfold mapPutRun
  by_cases h : j < k
  · rw [List.append_assoc, mapGet_append _ _ _ _ fun e he => by
      rcases List.mem_append.mp he with he | he
      · have := mapRun_mem d vs k he; omega
      · have := mapAbove_le he; omega, mapGet_below]
    simp [h, show ¬ k ≤ j by omega]
  · by_cases h' : j < k + vs.length
    · rw [mapGet_append _ _ _ _ fun e he => by have := mapAbove_le he; omega,
        mapGet_append_left _ _ _ _ fun e he => by have := mapBelow_lt he; omega]
      have := mapGet_run d vs k (j - k)
      rw [show k + (j - k) = j by omega] at this
      simp [this, h', show k ≤ j by omega]
    · rw [mapGet_append_left _ _ _ _ fun e he => by
        rcases List.mem_append.mp he with he | he
        · have := mapBelow_lt he; omega
        · have := mapRun_mem d vs k he; omega, mapGet_above]
      simp [h', show k + vs.length ≤ j by omega]

/-- A read of a range reads each key. -/
theorem mapRead_eq (d : α) (m : SMap α) (k n : Nat) : mapRead d m k n = (List.range n).map fun i => mapGet d m (k + i) := by
  have walk : ∀ (n k : Nat) (s : SMap α), mapRises k s = true → mapWalk d k n s = (List.range n).map fun i => mapGet d s (k + i) := by
    intro n
    induction n with
    | zero => intro k s _; cases s <;> rfl
    | succ n ih =>
      intro k s hs
      have low : ∀ (s : SMap α) (lo : Nat), mapRises lo s = true → ∀ e ∈ s, lo ≤ e.1 := by
        intro s
        induction s with
        | nil => simp
        | cons e t iht =>
          intro lo h x hx
          simp only [mapRises, Bool.and_eq_true, decide_eq_true_eq] at h
          rcases List.mem_cons.mp hx with rfl | hx
          · exact h.1
          · have := iht _ h.2 x hx; omega
      rw [List.range_succ_eq_map]
      cases s with
      | nil =>
        have := ih (k + 1) [] (by simp [mapRises])
        simp only [mapWalk, this, List.map_cons, List.map_map]
        rfl
      | cons e t =>
        obtain ⟨a, v⟩ := e
        simp only [mapRises, Bool.and_eq_true, decide_eq_true_eq] at hs
        by_cases ha : a = k
        · subst ha
          have := ih (a + 1) t hs.2
          simp only [mapWalk, if_true, this, List.map_cons, List.map_map, Nat.add_zero, mapGet]
          congr 1
          apply List.map_congr_left
          intro i _
          simp [show a + 1 + i = a + (i + 1) by omega]
        · have := ih (k + 1) ((a, v) :: t) (by simp [mapRises, hs.2]; omega)
          simp only [mapWalk, ha, if_false, this, List.map_cons, List.map_map, Nat.add_zero]
          congr 1
          · have hz := mapGet_append_left d ((a, v) :: t) [] k fun e he => by
              rcases List.mem_cons.mp he with rfl | he
              · exact ha
              · have := low t _ hs.2 e he; omega
            simpa [mapGet] using hz.symm
          · apply List.map_congr_left
            intro i _
            simp [show k + 1 + i = k + (i + 1) by omega]
  unfold mapRead
  simp only
  split
  · next h =>
    rw [walk n k _ h]
    apply List.map_congr_left
    intro i hi
    rw [mapGet_slice]
    simp [List.mem_range.mp hi]
  · apply List.map_congr_left
    intro i hi
    rw [mapGet_slice]
    simp [List.mem_range.mp hi]

/-- A copied range reads what its source read, every other key as before. -/
theorem mapGet_copy (d : α) (src dst n : Nat) (m : SMap α) (k : Nat) :
    mapGet d (mapCopy src dst n m) k = if dst ≤ k ∧ k < dst + n then mapGet d m (k - dst + src) else mapGet d m k := by
  have shift : ∀ (s : SMap α), (∀ e ∈ s, src ≤ e.1) → dst ≤ k →
      mapGet d (s.map fun e => (e.1 - src + dst, e.2)) k = mapGet d s (k - dst + src) := by
    intro s
    induction s with
    | nil => intros; rfl
    | cons e t ih =>
      obtain ⟨a, v⟩ := e
      intro hs hk
      have ha : src ≤ a := hs (a, v) (by simp)
      have := ih (fun e he => hs e (by simp [he])) hk
      by_cases h : a - src + dst = k
      ·
        have h2 : a = k - dst + src := by omega
        simp only [mapGet, List.map_cons, if_pos h, if_pos h2]
      · simp [mapGet, h, show ¬ a = k - dst + src by omega, this]
  have inS : ∀ e ∈ mapShift src (src + n) dst m, dst ≤ e.1 ∧ e.1 < dst + n := by
    intro e he
    obtain ⟨x, hx, rfl⟩ := List.mem_map.mp he
    have := mapSlice_mem hx
    simp; omega
  unfold mapCopy
  by_cases h : k < dst
  · rw [List.append_assoc, mapGet_append _ _ _ _ fun e he => by
      rcases List.mem_append.mp he with he | he
      · have := inS e he; omega
      · have := mapAbove_le he; omega, mapGet_below]
    simp [h, show ¬ dst ≤ k by omega]
  · by_cases h' : k < dst + n
    · rw [mapGet_append _ _ _ _ fun e he => by have := mapAbove_le he; omega,
        mapGet_append_left _ _ _ _ fun e he => by have := mapBelow_lt he; omega]
      unfold mapShift
      rw [shift _ (fun e he => (mapSlice_mem he).1) (by omega), mapGet_slice]
      simp [show dst ≤ k by omega, h', show k - dst < n by omega, Nat.add_comm src n]
    · rw [mapGet_append_left _ _ _ _ fun e he => by
        rcases List.mem_append.mp he with he | he
        · have := mapBelow_lt he; omega
        · have := inS e he; omega, mapGet_above]
      simp [h', show dst + n ≤ k by omega]

/-! ### The canonical form -/

theorem mapWfFrom_mono [DecidableEq α] {d : α} {m : SMap α} {lo lo' : Nat} (h : mapWfFrom d lo m = true) (hl : lo' ≤ lo) :
    mapWfFrom d lo' m = true := by
  cases m with
  | nil => rfl
  | cons e t =>
    obtain ⟨a, v⟩ := e
    simp only [mapWfFrom, Bool.and_eq_true, decide_eq_true_eq] at h ⊢
    exact ⟨⟨by omega, h.1.2⟩, h.2⟩

theorem mapWfFrom_filter [DecidableEq α] {d : α} (p : Nat × α → Bool) {m : SMap α} {lo : Nat} (h : mapWfFrom d lo m = true) :
    mapWfFrom d lo (m.filter p) = true := by
  induction m generalizing lo with
  | nil => rfl
  | cons e t ih =>
    obtain ⟨a, v⟩ := e
    simp only [mapWfFrom, Bool.and_eq_true, decide_eq_true_eq] at h
    rw [List.filter_cons]
    split
    · simp only [mapWfFrom, Bool.and_eq_true, decide_eq_true_eq]
      exact ⟨h.1, ih h.2⟩
    · exact mapWfFrom_mono (ih h.2) (by omega)

/-- Two canonical parts, the second above the first, make a canonical whole. -/
theorem mapWfFrom_append [DecidableEq α] {d : α} {l r : SMap α} {lo mid : Nat} (hl : mapWfFrom d lo l = true)
    (hm : ∀ e ∈ l, e.1 < mid) (hr : mapWfFrom d mid r = true) (hlo : lo ≤ mid) : mapWfFrom d lo (l ++ r) = true := by
  induction l generalizing lo with
  | nil => exact mapWfFrom_mono hr hlo
  | cons e t ih =>
    obtain ⟨a, v⟩ := e
    simp only [List.cons_append, mapWfFrom, Bool.and_eq_true, decide_eq_true_eq] at hl ⊢
    have ha : a < mid := hm (a, v) (by simp)
    exact ⟨hl.1, ih hl.2 (fun e he => hm e (by simp [he])) (by omega)⟩

theorem mapWfFrom_raise [DecidableEq α] {d : α} {m : SMap α} {lo hi : Nat} (h : mapWfFrom d lo m = true) (hm : ∀ e ∈ m, hi ≤ e.1) :
    mapWfFrom d hi m = true := by
  cases m with
  | nil => rfl
  | cons e t =>
    obtain ⟨a, v⟩ := e
    simp only [mapWfFrom, Bool.and_eq_true, decide_eq_true_eq] at h ⊢
    exact ⟨⟨hm (a, v) (by simp), h.1.2⟩, h.2⟩

theorem mapWf_drop [DecidableEq α] {d : α} {m : SMap α} (k : Nat) (h : mapWf d m = true) : mapWf d (mapDrop m k) = true :=
  mapWfFrom_filter _ h

theorem mapWf_insert [DecidableEq α] {d : α} {m : SMap α} {lo k : Nat} {v : α} (h : mapWfFrom d lo m = true) (hk : ∀ e ∈ m, e.1 ≠ k)
    (hv : v ≠ d) (hlo : lo ≤ k) : mapWfFrom d lo (mapInsert m k v) = true := by
  induction m generalizing lo with
  | nil => simp [mapInsert, mapWfFrom, hv, hlo]
  | cons e t ih =>
    obtain ⟨a, w⟩ := e
    have hak : a ≠ k := hk (a, w) (by simp)
    unfold mapInsert
    simp only [mapWfFrom, Bool.and_eq_true, decide_eq_true_eq, Bool.not_eq_true', decide_eq_false_iff_not] at h
    split
    · simp [mapWfFrom, hv, hlo, h.1.2, h.2]; omega
    · simp only [mapWfFrom, Bool.and_eq_true, decide_eq_true_eq, Bool.not_eq_true', decide_eq_false_iff_not]
      exact ⟨h.1, ih h.2 (fun e he => hk e (by simp [he])) (by omega)⟩

/-- A write keeps the canonical form. -/
theorem mapWf_put [DecidableEq α] {d : α} {m : SMap α} (k : Nat) (v : α) (h : mapWf d m = true) : mapWf d (mapPut d m k v) = true := by
  unfold mapPut
  split
  · exact mapWf_drop k h
  · next hv => exact mapWf_insert (mapWf_drop k h) (fun e he => by simpa [mapDrop] using (List.mem_filter.mp he).2) hv (Nat.zero_le k)

/-- Clearing a range keeps the canonical form. -/
theorem mapWf_clear [DecidableEq α] {d : α} {m : SMap α} (lo hi : Nat) (h : mapWf d m = true) : mapWf d (mapClear lo hi m) = true :=
  mapWfFrom_append (mapWfFrom_filter _ h) (fun e he => by have := mapBelow_lt he; omega : ∀ e ∈ mapBelow lo m, e.1 < max lo hi)
    (mapWfFrom_raise (mapWfFrom_filter _ h) fun _ he => mapAbove_le he) (Nat.zero_le _)

theorem mapWfFrom_run [DecidableEq α] (d : α) (vs : List α) (k : Nat) : mapWfFrom d k (mapRun d k vs) = true := by
  induction vs generalizing k with
  | nil => rfl
  | cons v r ih =>
    unfold mapRun
    split
    · exact mapWfFrom_mono (ih (k + 1)) (by omega)
    · next hv => simp [mapWfFrom, hv, ih (k + 1)]

/-- Writing a run keeps the canonical form. -/
theorem mapWf_putRun [DecidableEq α] {d : α} {m : SMap α} (k : Nat) (vs : List α) (h : mapWf d m = true) :
    mapWf d (mapPutRun d m k vs) = true := by
  unfold mapPutRun
  refine mapWfFrom_append (mid := k + vs.length) ?_ ?_ (mapWfFrom_raise (mapWfFrom_filter _ h) fun _ he => mapAbove_le he) (Nat.zero_le _)
  · exact mapWfFrom_append (mapWfFrom_filter _ h) (fun e he => mapBelow_lt he) (mapWfFrom_run d vs k) (Nat.zero_le _)
  · intro e he
    rcases List.mem_append.mp he with he | he
    · have := mapBelow_lt he; omega
    · exact (mapRun_mem d vs k he).2

theorem mapWfFrom_shift [DecidableEq α] {d : α} {s : SMap α} {lo src dst : Nat} (h : mapWfFrom d lo s = true) (hs : src ≤ lo) :
    mapWfFrom d (lo - src + dst) (s.map fun e => (e.1 - src + dst, e.2)) = true := by
  induction s generalizing lo with
  | nil => rfl
  | cons e t ih =>
    obtain ⟨a, v⟩ := e
    simp only [mapWfFrom, List.map_cons, Bool.and_eq_true, decide_eq_true_eq] at h ⊢
    refine ⟨⟨by omega, h.1.2⟩, ?_⟩
    have := ih h.2 (by omega)
    rwa [show a + 1 - src + dst = a - src + dst + 1 by omega] at this

/-- A copy keeps the canonical form. -/
theorem mapWf_copy [DecidableEq α] {d : α} {m : SMap α} (src dst n : Nat) (h : mapWf d m = true) : mapWf d (mapCopy src dst n m) = true := by
  unfold mapCopy
  have inS : ∀ e ∈ mapShift src (src + n) dst m, dst ≤ e.1 ∧ e.1 < dst + n := by
    intro e he
    obtain ⟨x, hx, rfl⟩ := List.mem_map.mp he
    have := mapSlice_mem hx
    simp; omega
  have hw : mapWfFrom d dst (mapShift src (src + n) dst m) = true := by
    have := mapWfFrom_shift (dst := dst) (mapWfFrom_raise (mapWfFrom_filter _ h) fun e he => (mapSlice_mem (lo := src) (hi := src + n) (m := m) he).1) (Nat.le_refl src)
    simpa [mapShift, mapSlice] using this
  refine mapWfFrom_append (mid := dst + n) ?_ ?_ (mapWfFrom_raise (mapWfFrom_filter _ h) fun _ he => mapAbove_le he) (Nat.zero_le _)
  · exact mapWfFrom_append (mapWfFrom_filter _ h) (fun e he => mapBelow_lt he) hw (Nat.zero_le _)
  · intro e he
    rcases List.mem_append.mp he with he | he
    · have := mapBelow_lt he; omega
    · exact (inS e he).2

end Sys2Proof.Machine
end

