-- ==== Sys2Proof/Laws/State.lean ====
section
/-! SUPPORT. The fields of the block after each plain update: true by definition, one simp lemma each. -/

namespace Sys2Proof.Machine

@[simp] theorem wr_mem (f : Fld) (v : Nat) (c : Chip) : (wr f v c).mem = c.mem := rfl
@[simp] theorem wr_poison (f : Fld) (v : Nat) (c : Chip) : (wr f v c).poison = c.poison := rfl
@[simp] theorem wr_cores (f : Fld) (v : Nat) (c : Chip) : (wr f v c).cores = c.cores := rfl
@[simp] theorem wr_out (f : Fld) (v : Nat) (c : Chip) : (wr f v c).out = c.out := rfl
@[simp] theorem wr_free (f : Fld) (v : Nat) (c : Chip) : (wr f v c).free = c.free := rfl
@[simp] theorem wr_tel (f : Fld) (v : Nat) (c : Chip) : (wr f v c).tel = c.tel := rfl
@[simp] theorem wr_wakes (f : Fld) (v : Nat) (c : Chip) : (wr f v c).wakes = c.wakes := rfl
@[simp] theorem wr_keys (f : Fld) (v : Nat) (c : Chip) : (wr f v c).keys = c.keys := rfl
@[simp] theorem wr_producers (f : Fld) (v : Nat) (c : Chip) : (wr f v c).producers = c.producers := rfl
@[simp] theorem wr_consumers (f : Fld) (v : Nat) (c : Chip) : (wr f v c).consumers = c.consumers := rfl
@[simp] theorem wr_held (f : Fld) (v : Nat) (c : Chip) : (wr f v c).held = c.held := rfl

@[simp] theorem wrB_mem (b : Nat) (f : Fld) (v : Nat) (c : Chip) : (wrB b f v c).mem = c.mem := rfl
@[simp] theorem wrB_poison (b : Nat) (f : Fld) (v : Nat) (c : Chip) : (wrB b f v c).poison = c.poison := rfl
@[simp] theorem wrB_cores (b : Nat) (f : Fld) (v : Nat) (c : Chip) : (wrB b f v c).cores = c.cores := rfl
@[simp] theorem wrB_out (b : Nat) (f : Fld) (v : Nat) (c : Chip) : (wrB b f v c).out = c.out := rfl
@[simp] theorem wrB_free (b : Nat) (f : Fld) (v : Nat) (c : Chip) : (wrB b f v c).free = c.free := rfl
@[simp] theorem wrB_tel (b : Nat) (f : Fld) (v : Nat) (c : Chip) : (wrB b f v c).tel = c.tel := rfl
@[simp] theorem wrB_wakes (b : Nat) (f : Fld) (v : Nat) (c : Chip) : (wrB b f v c).wakes = c.wakes := rfl
@[simp] theorem wrB_keys (b : Nat) (f : Fld) (v : Nat) (c : Chip) : (wrB b f v c).keys = c.keys := rfl
@[simp] theorem wrB_producers (b : Nat) (f : Fld) (v : Nat) (c : Chip) : (wrB b f v c).producers = c.producers := rfl
@[simp] theorem wrB_consumers (b : Nat) (f : Fld) (v : Nat) (c : Chip) : (wrB b f v c).consumers = c.consumers := rfl
@[simp] theorem wrB_held (b : Nat) (f : Fld) (v : Nat) (c : Chip) : (wrB b f v c).held = c.held := rfl

@[simp] theorem wrb_mem (f : Fld) (v : Bool) (c : Chip) : (wrb f v c).mem = c.mem := rfl
@[simp] theorem wrb_poison (f : Fld) (v : Bool) (c : Chip) : (wrb f v c).poison = c.poison := rfl
@[simp] theorem wrb_cores (f : Fld) (v : Bool) (c : Chip) : (wrb f v c).cores = c.cores := rfl
@[simp] theorem wrb_out (f : Fld) (v : Bool) (c : Chip) : (wrb f v c).out = c.out := rfl
@[simp] theorem wrb_free (f : Fld) (v : Bool) (c : Chip) : (wrb f v c).free = c.free := rfl
@[simp] theorem wrb_tel (f : Fld) (v : Bool) (c : Chip) : (wrb f v c).tel = c.tel := rfl
@[simp] theorem wrb_wakes (f : Fld) (v : Bool) (c : Chip) : (wrb f v c).wakes = c.wakes := rfl
@[simp] theorem wrb_keys (f : Fld) (v : Bool) (c : Chip) : (wrb f v c).keys = c.keys := rfl
@[simp] theorem wrb_producers (f : Fld) (v : Bool) (c : Chip) : (wrb f v c).producers = c.producers := rfl
@[simp] theorem wrb_consumers (f : Fld) (v : Bool) (c : Chip) : (wrb f v c).consumers = c.consumers := rfl
@[simp] theorem wrb_held (f : Fld) (v : Bool) (c : Chip) : (wrb f v c).held = c.held := rfl

@[simp] theorem bump_mem (f : Fld) (n : Nat) (c : Chip) : (bump f n c).mem = c.mem := rfl
@[simp] theorem bump_poison (f : Fld) (n : Nat) (c : Chip) : (bump f n c).poison = c.poison := rfl
@[simp] theorem bump_cores (f : Fld) (n : Nat) (c : Chip) : (bump f n c).cores = c.cores := rfl
@[simp] theorem bump_out (f : Fld) (n : Nat) (c : Chip) : (bump f n c).out = c.out := rfl
@[simp] theorem bump_free (f : Fld) (n : Nat) (c : Chip) : (bump f n c).free = c.free := rfl
@[simp] theorem bump_tel (f : Fld) (n : Nat) (c : Chip) : (bump f n c).tel = c.tel := rfl
@[simp] theorem bump_wakes (f : Fld) (n : Nat) (c : Chip) : (bump f n c).wakes = c.wakes := rfl
@[simp] theorem bump_keys (f : Fld) (n : Nat) (c : Chip) : (bump f n c).keys = c.keys := rfl
@[simp] theorem bump_producers (f : Fld) (n : Nat) (c : Chip) : (bump f n c).producers = c.producers := rfl
@[simp] theorem bump_consumers (f : Fld) (n : Nat) (c : Chip) : (bump f n c).consumers = c.consumers := rfl
@[simp] theorem bump_held (f : Fld) (n : Nat) (c : Chip) : (bump f n c).held = c.held := rfl

@[simp] theorem bumpSat_mem (f : Fld) (n : Nat) (c : Chip) : (bumpSat f n c).mem = c.mem := rfl
@[simp] theorem bumpSat_poison (f : Fld) (n : Nat) (c : Chip) : (bumpSat f n c).poison = c.poison := rfl
@[simp] theorem bumpSat_cores (f : Fld) (n : Nat) (c : Chip) : (bumpSat f n c).cores = c.cores := rfl
@[simp] theorem bumpSat_out (f : Fld) (n : Nat) (c : Chip) : (bumpSat f n c).out = c.out := rfl
@[simp] theorem bumpSat_free (f : Fld) (n : Nat) (c : Chip) : (bumpSat f n c).free = c.free := rfl
@[simp] theorem bumpSat_tel (f : Fld) (n : Nat) (c : Chip) : (bumpSat f n c).tel = c.tel := rfl
@[simp] theorem bumpSat_wakes (f : Fld) (n : Nat) (c : Chip) : (bumpSat f n c).wakes = c.wakes := rfl
@[simp] theorem bumpSat_keys (f : Fld) (n : Nat) (c : Chip) : (bumpSat f n c).keys = c.keys := rfl
@[simp] theorem bumpSat_producers (f : Fld) (n : Nat) (c : Chip) : (bumpSat f n c).producers = c.producers := rfl
@[simp] theorem bumpSat_consumers (f : Fld) (n : Nat) (c : Chip) : (bumpSat f n c).consumers = c.consumers := rfl
@[simp] theorem bumpSat_held (f : Fld) (n : Nat) (c : Chip) : (bumpSat f n c).held = c.held := rfl

@[simp] theorem wrRst_mem (f : Fld) (c : Chip) : (wrRst f c).mem = c.mem := rfl
@[simp] theorem wrRst_poison (f : Fld) (c : Chip) : (wrRst f c).poison = c.poison := rfl
@[simp] theorem wrRst_cores (f : Fld) (c : Chip) : (wrRst f c).cores = c.cores := rfl
@[simp] theorem wrRst_out (f : Fld) (c : Chip) : (wrRst f c).out = c.out := rfl
@[simp] theorem wrRst_free (f : Fld) (c : Chip) : (wrRst f c).free = c.free := rfl
@[simp] theorem wrRst_tel (f : Fld) (c : Chip) : (wrRst f c).tel = c.tel := rfl
@[simp] theorem wrRst_wakes (f : Fld) (c : Chip) : (wrRst f c).wakes = c.wakes := rfl
@[simp] theorem wrRst_keys (f : Fld) (c : Chip) : (wrRst f c).keys = c.keys := rfl
@[simp] theorem wrRst_producers (f : Fld) (c : Chip) : (wrRst f c).producers = c.producers := rfl
@[simp] theorem wrRst_consumers (f : Fld) (c : Chip) : (wrRst f c).consumers = c.consumers := rfl
@[simp] theorem wrRst_held (f : Fld) (c : Chip) : (wrRst f c).held = c.held := rfl

@[simp] theorem emit_regs (o : Output) (c : Chip) : (emit o c).regs = c.regs := rfl
@[simp] theorem emit_mem (o : Output) (c : Chip) : (emit o c).mem = c.mem := rfl
@[simp] theorem emit_poison (o : Output) (c : Chip) : (emit o c).poison = c.poison := rfl
@[simp] theorem emit_cores (o : Output) (c : Chip) : (emit o c).cores = c.cores := rfl
@[simp] theorem emit_free (o : Output) (c : Chip) : (emit o c).free = c.free := rfl
@[simp] theorem emit_tel (o : Output) (c : Chip) : (emit o c).tel = c.tel := rfl
@[simp] theorem emit_wakes (o : Output) (c : Chip) : (emit o c).wakes = c.wakes := rfl
@[simp] theorem emit_keys (o : Output) (c : Chip) : (emit o c).keys = c.keys := rfl
@[simp] theorem emit_producers (o : Output) (c : Chip) : (emit o c).producers = c.producers := rfl
@[simp] theorem emit_consumers (o : Output) (c : Chip) : (emit o c).consumers = c.consumers := rfl
@[simp] theorem emit_held (o : Output) (c : Chip) : (emit o c).held = c.held := rfl

@[simp] theorem useFree_regs (c : Chip) : (useFree c).regs = c.regs := rfl
@[simp] theorem useFree_mem (c : Chip) : (useFree c).mem = c.mem := rfl
@[simp] theorem useFree_poison (c : Chip) : (useFree c).poison = c.poison := rfl
@[simp] theorem useFree_cores (c : Chip) : (useFree c).cores = c.cores := rfl
@[simp] theorem useFree_out (c : Chip) : (useFree c).out = c.out := rfl
@[simp] theorem useFree_tel (c : Chip) : (useFree c).tel = c.tel := rfl
@[simp] theorem useFree_wakes (c : Chip) : (useFree c).wakes = c.wakes := rfl
@[simp] theorem useFree_keys (c : Chip) : (useFree c).keys = c.keys := rfl
@[simp] theorem useFree_producers (c : Chip) : (useFree c).producers = c.producers := rfl
@[simp] theorem useFree_consumers (c : Chip) : (useFree c).consumers = c.consumers := rfl
@[simp] theorem useFree_held (c : Chip) : (useFree c).held = c.held := rfl

@[simp] theorem setCore_regs (i : CoreId) (k : CoreSt) (c : Chip) : (setCore i k c).regs = c.regs := rfl
@[simp] theorem setCore_mem (i : CoreId) (k : CoreSt) (c : Chip) : (setCore i k c).mem = c.mem := rfl
@[simp] theorem setCore_poison (i : CoreId) (k : CoreSt) (c : Chip) : (setCore i k c).poison = c.poison := rfl
@[simp] theorem setCore_out (i : CoreId) (k : CoreSt) (c : Chip) : (setCore i k c).out = c.out := rfl
@[simp] theorem setCore_free (i : CoreId) (k : CoreSt) (c : Chip) : (setCore i k c).free = c.free := rfl
@[simp] theorem setCore_tel (i : CoreId) (k : CoreSt) (c : Chip) : (setCore i k c).tel = c.tel := rfl
@[simp] theorem setCore_wakes (i : CoreId) (k : CoreSt) (c : Chip) : (setCore i k c).wakes = c.wakes := rfl
@[simp] theorem setCore_keys (i : CoreId) (k : CoreSt) (c : Chip) : (setCore i k c).keys = c.keys := rfl
@[simp] theorem setCore_producers (i : CoreId) (k : CoreSt) (c : Chip) : (setCore i k c).producers = c.producers := rfl
@[simp] theorem setCore_consumers (i : CoreId) (k : CoreSt) (c : Chip) : (setCore i k c).consumers = c.consumers := rfl
@[simp] theorem setCore_held (i : CoreId) (k : CoreSt) (c : Chip) : (setCore i k c).held = c.held := rfl

@[simp] theorem st8_regs (sp a v : Nat) (c : Chip) : (st8 sp a v c).regs = c.regs := rfl
@[simp] theorem st8_poison (sp a v : Nat) (c : Chip) : (st8 sp a v c).poison = c.poison := rfl
@[simp] theorem st8_cores (sp a v : Nat) (c : Chip) : (st8 sp a v c).cores = c.cores := rfl
@[simp] theorem st8_out (sp a v : Nat) (c : Chip) : (st8 sp a v c).out = c.out := rfl
@[simp] theorem st8_free (sp a v : Nat) (c : Chip) : (st8 sp a v c).free = c.free := rfl
@[simp] theorem st8_tel (sp a v : Nat) (c : Chip) : (st8 sp a v c).tel = c.tel := rfl
@[simp] theorem st8_wakes (sp a v : Nat) (c : Chip) : (st8 sp a v c).wakes = c.wakes := rfl
@[simp] theorem st8_keys (sp a v : Nat) (c : Chip) : (st8 sp a v c).keys = c.keys := rfl
@[simp] theorem st8_producers (sp a v : Nat) (c : Chip) : (st8 sp a v c).producers = c.producers := rfl
@[simp] theorem st8_consumers (sp a v : Nat) (c : Chip) : (st8 sp a v c).consumers = c.consumers := rfl
@[simp] theorem st8_held (sp a v : Nat) (c : Chip) : (st8 sp a v c).held = c.held := rfl

@[simp] theorem stBytes_regs (sp a : Nat) (bs : List Nat) (c : Chip) : (stBytes sp a bs c).regs = c.regs := rfl
@[simp] theorem stBytes_poison (sp a : Nat) (bs : List Nat) (c : Chip) : (stBytes sp a bs c).poison = c.poison := rfl
@[simp] theorem stBytes_cores (sp a : Nat) (bs : List Nat) (c : Chip) : (stBytes sp a bs c).cores = c.cores := rfl
@[simp] theorem stBytes_out (sp a : Nat) (bs : List Nat) (c : Chip) : (stBytes sp a bs c).out = c.out := rfl
@[simp] theorem stBytes_free (sp a : Nat) (bs : List Nat) (c : Chip) : (stBytes sp a bs c).free = c.free := rfl
@[simp] theorem stBytes_tel (sp a : Nat) (bs : List Nat) (c : Chip) : (stBytes sp a bs c).tel = c.tel := rfl
@[simp] theorem stBytes_wakes (sp a : Nat) (bs : List Nat) (c : Chip) : (stBytes sp a bs c).wakes = c.wakes := rfl
@[simp] theorem stBytes_keys (sp a : Nat) (bs : List Nat) (c : Chip) : (stBytes sp a bs c).keys = c.keys := rfl
@[simp] theorem stBytes_producers (sp a : Nat) (bs : List Nat) (c : Chip) : (stBytes sp a bs c).producers = c.producers := rfl
@[simp] theorem stBytes_consumers (sp a : Nat) (bs : List Nat) (c : Chip) : (stBytes sp a bs c).consumers = c.consumers := rfl
@[simp] theorem stBytes_held (sp a : Nat) (bs : List Nat) (c : Chip) : (stBytes sp a bs c).held = c.held := rfl

@[simp] theorem unpoison_regs (sp a n : Nat) (c : Chip) : (unpoison sp a n c).regs = c.regs := rfl
@[simp] theorem unpoison_mem (sp a n : Nat) (c : Chip) : (unpoison sp a n c).mem = c.mem := rfl
@[simp] theorem unpoison_cores (sp a n : Nat) (c : Chip) : (unpoison sp a n c).cores = c.cores := rfl
@[simp] theorem unpoison_out (sp a n : Nat) (c : Chip) : (unpoison sp a n c).out = c.out := rfl
@[simp] theorem unpoison_free (sp a n : Nat) (c : Chip) : (unpoison sp a n c).free = c.free := rfl
@[simp] theorem unpoison_tel (sp a n : Nat) (c : Chip) : (unpoison sp a n c).tel = c.tel := rfl
@[simp] theorem unpoison_wakes (sp a n : Nat) (c : Chip) : (unpoison sp a n c).wakes = c.wakes := rfl
@[simp] theorem unpoison_keys (sp a n : Nat) (c : Chip) : (unpoison sp a n c).keys = c.keys := rfl
@[simp] theorem unpoison_producers (sp a n : Nat) (c : Chip) : (unpoison sp a n c).producers = c.producers := rfl
@[simp] theorem unpoison_consumers (sp a n : Nat) (c : Chip) : (unpoison sp a n c).consumers = c.consumers := rfl
@[simp] theorem unpoison_held (sp a n : Nat) (c : Chip) : (unpoison sp a n c).held = c.held := rfl

@[simp] theorem poisonRange_regs (sp a n : Nat) (c : Chip) : (poisonRange sp a n c).regs = c.regs := by unfold poisonRange; rfl
@[simp] theorem poisonRange_mem (sp a n : Nat) (c : Chip) : (poisonRange sp a n c).mem = c.mem := by unfold poisonRange; rfl
@[simp] theorem poisonRange_cores (sp a n : Nat) (c : Chip) : (poisonRange sp a n c).cores = c.cores := by unfold poisonRange; rfl
@[simp] theorem poisonRange_out (sp a n : Nat) (c : Chip) : (poisonRange sp a n c).out = c.out := by unfold poisonRange; rfl
@[simp] theorem poisonRange_free (sp a n : Nat) (c : Chip) : (poisonRange sp a n c).free = c.free := by unfold poisonRange; rfl
@[simp] theorem poisonRange_tel (sp a n : Nat) (c : Chip) : (poisonRange sp a n c).tel = c.tel := by unfold poisonRange; rfl
@[simp] theorem poisonRange_wakes (sp a n : Nat) (c : Chip) : (poisonRange sp a n c).wakes = c.wakes := by unfold poisonRange; rfl
@[simp] theorem poisonRange_keys (sp a n : Nat) (c : Chip) : (poisonRange sp a n c).keys = c.keys := by unfold poisonRange; rfl
@[simp] theorem poisonRange_producers (sp a n : Nat) (c : Chip) : (poisonRange sp a n c).producers = c.producers := by unfold poisonRange; rfl
@[simp] theorem poisonRange_consumers (sp a n : Nat) (c : Chip) : (poisonRange sp a n c).consumers = c.consumers := by unfold poisonRange; rfl
@[simp] theorem poisonRange_held (sp a n : Nat) (c : Chip) : (poisonRange sp a n c).held = c.held := by unfold poisonRange; rfl

/-! ### Register fields -/

theorem mapGet_put_ne' {α : Type} [DecidableEq α] (d e : α) (m : SMap α) {k k' : Nat} (v : α) (h : k' ≠ k) :
    mapGet d (mapPut e m k v) k' = mapGet d m k' := by
  unfold mapPut
  split
  · exact mapGet_drop_ne d m h
  · rw [mapGet_insert_ne d _ v h, mapGet_drop_ne d m h]

/-- A field written reads the value cut to its width. -/
@[simp] theorem rd_wr_same (f : Fld) (v : Nat) (c : Chip) : rd f (wr f v c) = v % 2 ^ f.width := mapGet_put_same _ _ _ _

/-- A field of another key reads as before. -/
theorem rd_wr_ne {f g : Fld} (v : Nat) (c : Chip) (h : fldKey g ≠ fldKey f) : rd g (wr f v c) = rd g c := mapGet_put_ne' _ _ _ _ h

theorem wrb_eq (f : Fld) (b : Bool) (c : Chip) : wrb f b c = wr f (b2n b) c := rfl
theorem bump_eq (f : Fld) (n : Nat) (c : Chip) : bump f n c = wr f (rd f c + n) c := rfl
theorem wrRst_eq (f : Fld) (c : Chip) : wrRst f c = wr f f.rst c := rfl

/-- A field reads the register file only. -/
theorem rd_congr {a b : Chip} (h : a.regs = b.regs) (f : Fld) : rd f a = rd f b := by unfold rd; rw [h]

@[simp] theorem rd_emit (f : Fld) (o : Output) (c : Chip) : rd f (emit o c) = rd f c := rfl
@[simp] theorem rd_useFree (f : Fld) (c : Chip) : rd f (useFree c) = rd f c := rfl
@[simp] theorem rd_setCore (f : Fld) (i : CoreId) (k : CoreSt) (c : Chip) : rd f (setCore i k c) = rd f c := rfl
@[simp] theorem rd_stBytes (f : Fld) (sp a : Nat) (bs : List Nat) (c : Chip) : rd f (stBytes sp a bs c) = rd f c := rfl
@[simp] theorem rd_unpoison (f : Fld) (sp a n : Nat) (c : Chip) : rd f (unpoison sp a n c) = rd f c := rfl
@[simp] theorem rd_put (f : Fld) (sp a : Nat) (bs : List Nat) (c : Chip) : rd f (put sp a bs c) = rd f c := rfl

/-- Two fields whose registers stand at different offsets have different keys. -/
theorem fldKey_ne_of_off {f g : Fld} (hf : f.lo < 128) (hg : g.lo < 128) (h : f.page * 0x1000 + f.off ≠ g.page * 0x1000 + g.off) :
    fldKey f ≠ fldKey g := by
  unfold fldKey; omega

/-! ### Cores -/

theorem coreIx_inj {i j : CoreId} (h : coreIx i = coreIx j) : i = j := by
  cases i <;> cases j <;> simp only [coreIx] at h <;> first | rfl | (congr 1; apply Fin.ext; omega) | (exfalso; omega)

@[simp] theorem getCore_setCore_same (i : CoreId) (k : CoreSt) (c : Chip) : getCore i (setCore i k c) = k := mapGet_put_same _ _ _ _

theorem getCore_setCore_ne {i j : CoreId} (k : CoreSt) (c : Chip) (h : j ≠ i) : getCore j (setCore i k c) = getCore j c :=
  mapGet_put_ne _ _ _ fun e => h (coreIx_inj e)

/-- A core reads the core registers only. -/
theorem getCore_congr {a b : Chip} (h : a.cores = b.cores) (i : CoreId) : getCore i a = getCore i b := by unfold getCore; rw [h]

@[simp] theorem getCore_wr (i : CoreId) (f : Fld) (v : Nat) (c : Chip) : getCore i (wr f v c) = getCore i c := rfl
@[simp] theorem getCore_bump (i : CoreId) (f : Fld) (v : Nat) (c : Chip) : getCore i (bump f v c) = getCore i c := rfl
@[simp] theorem getCore_emit (i : CoreId) (o : Output) (c : Chip) : getCore i (emit o c) = getCore i c := rfl
@[simp] theorem getCore_useFree (i : CoreId) (c : Chip) : getCore i (useFree c) = getCore i c := rfl
@[simp] theorem getCore_put (i : CoreId) (sp a : Nat) (bs : List Nat) (c : Chip) : getCore i (put sp a bs c) = getCore i c := rfl

@[simp] theorem getV_setV_same (k : CoreSt) (x : Nat) (v : Word) : getV (setV k x v) x = v := mapGet_put_same _ _ _ _
theorem getV_setV_ne (k : CoreSt) {x y : Nat} (v : Word) (h : y ≠ x) : getV (setV k x v) y = getV k y := mapGet_put_ne _ _ _ h
@[simp] theorem getP_setP_same (k : CoreSt) (x : Nat) (v : Word) : getP (setP k x v) x = v := mapGet_put_same _ _ _ _
theorem getP_setP_ne (k : CoreSt) {x y : Nat} (v : Word) (h : y ≠ x) : getP (setP k x v) y = getP k y := mapGet_put_ne _ _ _ h
@[simp] theorem getA_setA_same (k : CoreSt) (x : Nat) (v : Acc) : getA (setA k x v) x = v := mapGet_put_same _ _ _ _
theorem getA_setA_ne (k : CoreSt) {x y : Nat} (v : Acc) (h : y ≠ x) : getA (setA k x v) y = getA k y := mapGet_put_ne _ _ _ h

/-- A status bit after a write of one. -/
theorem statusBit_setStatus (k : CoreSt) (n m : Nat) (b : Bool) (h : n < 64) :
    statusBit (setStatus k n b) m = if m = n then b else statusBit k m := by
  unfold statusBit setStatus
  by_cases hm : m = n
  · subst hm; cases b <;> simp [h]
  · rw [if_neg hm]
    cases b
    · simp only [Bool.false_eq_true, if_false, BitVec.getLsbD_and, BitVec.getLsbD_not, BitVec.getLsbD_shiftLeft]
      by_cases hlt : m < 64
      · have : ¬ (n ≤ m ∧ m - n = 0) := by omega
        simp [hlt, BitVec.getLsbD_one]; intro; omega
      · rw [BitVec.getLsbD_of_ge k.status m (by omega)]; simp
    · simp only [if_true, BitVec.getLsbD_or, BitVec.getLsbD_shiftLeft]
      by_cases hlt : m < 64
      · simp [hlt, BitVec.getLsbD_one]; intro; omega
      · simp [hlt]

/-! ### Bytes of memory -/

theorem ld8_congr {a b : Chip} (h : a.mem = b.mem) (sp addr : Nat) : ld8 sp addr a = ld8 sp addr b := by unfold ld8; rw [h]

/-- One byte stored reads back; every other byte reads as before. -/
theorem ld8_st8 (sp a v sp' a' : Nat) (c : Chip) :
    ld8 sp' a' (st8 sp a v c) = if cellKey sp' a' = cellKey sp a then v % 256 else ld8 sp' a' c := by
  unfold ld8 st8
  simp only [mapGet_put]
  split <;> simp

/-- Bytes stored from an address up: the stored bytes read back, every other byte reads as before. -/
theorem ld8_stBytes (sp a sp' a' : Nat) (bs : List Nat) (c : Chip) :
    ld8 sp' a' (stBytes sp a bs c) =
      if cellKey sp a ≤ cellKey sp' a' ∧ cellKey sp' a' < cellKey sp a + bs.length then bs.getD (cellKey sp' a' - cellKey sp a) 0 % 256
      else ld8 sp' a' c := by
  unfold ld8 stBytes
  simp only [mapGet_putRun, List.length_map]
  split
  · rename_i h
    have hl : cellKey sp' a' - cellKey sp a < bs.length := by omega
    simp [List.getD, List.getElem?_map, List.getElem?_eq_getElem hl]
  · rfl

/-- The bytes of a range are the bytes read one by one. -/
theorem ldBytes_eq (sp a n : Nat) (c : Chip) :
    ldBytes sp a n c = (List.range n).map fun j => (mapGet (0 : Byte) c.mem (cellKey sp a + j)).toNat := by
  unfold ldBytes; rw [mapRead_eq, List.map_map]; rfl

/-! ### The canonical form of memory -/

theorem memWf_st8 (sp a v : Nat) {c : Chip} (h : Memory.wf c.mem = true) : Memory.wf (st8 sp a v c).mem = true := mapWf_put _ _ h
theorem memWf_stBytes (sp a : Nat) (bs : List Nat) {c : Chip} (h : Memory.wf c.mem = true) : Memory.wf (stBytes sp a bs c).mem = true :=
  mapWf_putRun _ _ h
theorem memWf_put (sp a : Nat) (bs : List Nat) {c : Chip} (h : Memory.wf c.mem = true) : Memory.wf (put sp a bs c).mem = true :=
  mapWf_putRun _ _ h
theorem memWf_putN (sp a n v : Nat) {c : Chip} (h : Memory.wf c.mem = true) : Memory.wf (putN sp a n v c).mem = true := mapWf_putRun _ _ h
theorem memWf_st (sp a n v : Nat) {c : Chip} (h : Memory.wf c.mem = true) : Memory.wf (st sp a n v c).mem = true := mapWf_putRun _ _ h
theorem memWf_stF (sp a hi lo v : Nat) {c : Chip} (h : Memory.wf c.mem = true) : Memory.wf (stF sp a hi lo v c).mem = true :=
  mapWf_putRun _ _ h
theorem memWf_putF (sp a hi lo v : Nat) {c : Chip} (h : Memory.wf c.mem = true) : Memory.wf (putF sp a hi lo v c).mem = true :=
  mapWf_putRun _ _ h
theorem memWf_zero (sp a n : Nat) {c : Chip} (h : Memory.wf c.mem = true) : Memory.wf (zero sp a n c).mem = true := mapWf_clear _ _ h

theorem copyMem_mem (sps src spd dst n : Nat) (c : Chip) :
    (copyMem sps src spd dst n c).mem = mapCopy (cellKey sps src) (cellKey spd dst) n c.mem := by
  unfold copyMem
  have : ∀ (l : List Nat) (c : Chip) (g : Chip → Nat → List Nat), (l.foldl (fun c l => { c with poison := g c l }) c).mem = c.mem := by
    intro l; induction l with
    | nil => intros; rfl
    | cons a t ih => intro c g; exact ih _ g
  rw [this]; rfl

theorem memWf_copyMem (sps src spd dst n : Nat) {c : Chip} (h : Memory.wf c.mem = true) :
    Memory.wf (copyMem sps src spd dst n c).mem = true := by
  rw [copyMem_mem]; exact mapWf_copy _ _ _ h

theorem memWf_stPieces : ∀ (ps : List (Nat × Nat × Nat)) (bs : List Nat) {c : Chip}, Memory.wf c.mem = true →
    Memory.wf (stPieces ps bs c).mem = true
  | [], _, _, h => h
  | _ :: r, _, _, h => memWf_stPieces r _ (memWf_put _ _ _ h)

end Sys2Proof.Machine
end

