-- ==== Sys2Proof/Laws/Ops.lean ====
section
/-! SUPPORT. The frames of the shared operations: what recording an error, a telemetry record, an interrupt, a refusal or a pulse leaves alone. -/

namespace Sys2Proof.Machine

/-- The fields of the block that messages and records change: the register file, the telemetry queue, what left the device,
PME_Status. -/
def recordsOnly (a b : Chip) : Prop :=
  b = { a with regs := b.regs, tel := b.tel, telLostSince := b.telLostSince, out := b.out, pmeStatus := b.pmeStatus }

theorem recordsOnly_refl (a : Chip) : recordsOnly a a := rfl

theorem recordsOnly_trans {a b c : Chip} (h : recordsOnly a b) (h' : recordsOnly b c) : recordsOnly a c := by
  unfold recordsOnly at *
  rw [h', h]

theorem recordsOnly_wr (f : Fld) (v : Nat) (c : Chip) : recordsOnly c (wr f v c) := rfl
theorem recordsOnly_emit (o : Output) (c : Chip) : recordsOnly c (emit o c) := rfl

theorem recordsOnly_ite {p : Prop} [Decidable p] {a b b' : Chip} (h : recordsOnly a b) (h' : recordsOnly a b') :
    recordsOnly a (if p then b else b') := by split <;> assumption

theorem recordsOnly_sendMsix (h f vec : Nat) (c : Chip) : recordsOnly c (sendMsix h f vec c) := by
  unfold sendMsix
  split
  · rfl
  · split <;> rfl

theorem recordsOnly_pageIrq (p : Nat) (c : Chip) : recordsOnly c (pageIrq p c) := by
  unfold pageIrq
  simp only []
  generalize hb : (if rdb (Hdr.EN_HOST0 p) c = true then sendMsix 0 0 (rd (Hdr.VEC_HOST0 p) c) c else c) = b
  have h0 : recordsOnly c b := by
    rw [← hb]; split
    · exact recordsOnly_sendMsix _ _ _ _
    · rfl
  split
  · exact recordsOnly_trans h0 (recordsOnly_sendMsix _ _ _ _)
  · exact h0

theorem recordsOnly_refuse (p code off : Nat) (c : Chip) : recordsOnly c (refuse p code off c) := by
  unfold refuse
  split
  · rfl
  · split <;> rfl

theorem recordsOnly_tel (q : List TelRec) (n : Nat) (c : Chip) : recordsOnly c { c with tel := q, telLostSince := n } := rfl

theorem telPush_eq (kind src sev : Nat) (body : List Nat) (c : Chip) :
    ∃ q n m, (telPush kind src sev body c).1 =
      bumpSat Reg.MST_TEL_LOST m { bump Reg.MST_TEL_SEQ 1 (bump (Reg.MST_CTR 0) 1 c) with tel := q, telLostSince := n } := by
  unfold telPush
  simp only []
  split
  · exact ⟨_, _, _, rfl⟩
  · exact ⟨_, _, _, rfl⟩

theorem recordsOnly_telPush (kind src sev : Nat) (body : List Nat) (c : Chip) : recordsOnly c (telPush kind src sev body c).1 := by
  obtain ⟨q, n, m, e⟩ := telPush_eq kind src sev body c
  rw [e]
  have h1 : recordsOnly c (bump (Reg.MST_CTR 0) 1 c) := recordsOnly_wr _ _ _
  have h2 := recordsOnly_trans h1 (recordsOnly_wr Reg.MST_TEL_SEQ (rd Reg.MST_TEL_SEQ (bump (Reg.MST_CTR 0) 1 c) + 1) _)
  have h3 := recordsOnly_trans h2 (recordsOnly_tel q n _)
  exact recordsOnly_trans h3 (recordsOnly_wr _ _ _)

theorem recordsOnly_latchErr (p code sev : Nat) (c : Chip) : recordsOnly c (latchErr p code sev c).1 := by
  unfold latchErr
  simp only []
  generalize hc : bumpSat _ _ _ = c1
  have h1 : recordsOnly c c1 := by rw [← hc]; rfl
  generalize hd : (if (!(rd (Hdr.ERR_STATUS p) c).testBit (errBit code) && _) = true then pageIrq p c1 else c1) = c2
  have h2 : recordsOnly c1 c2 := by
    rw [← hd]; split
    · exact recordsOnly_pageIrq _ _
    · rfl
  have h3 := recordsOnly_trans h1 h2
  split
  · exact h3
  · exact recordsOnly_trans h3 rfl

theorem recordsOnly_telLost (n : Nat) (c : Chip) : recordsOnly c (telLost n c) := by
  unfold telLost
  split
  · rfl
  · simp only []
    split
    · exact recordsOnly_trans (recordsOnly_latchErr _ _ _ _) (recordsOnly_telPush _ _ _ _ _)
    · exact recordsOnly_latchErr _ _ _ _

theorem recordsOnly_telemetry (kind src sev : Nat) (body : List Nat) (c : Chip) : recordsOnly c (telemetry kind src sev body c) := by
  unfold telemetry
  exact recordsOnly_trans (recordsOnly_telPush _ _ _ _ _) (recordsOnly_telLost _ _)

/-- Recording an error changes records only. -/
theorem recordsOnly_raise (p code sev : Nat) (c : Chip) : recordsOnly c (raise p code sev c) := by
  unfold raise
  simp only []
  split
  · exact recordsOnly_trans (recordsOnly_latchErr _ _ _ _) (recordsOnly_telemetry _ _ _ _ _)
  · exact recordsOnly_latchErr _ _ _ _

theorem recordsOnly_platformEvent (kind code : Nat) (c : Chip) : recordsOnly c (platformEvent kind code c) := by
  unfold platformEvent
  generalize List.range 3 = l
  induction l generalizing c with
  | nil => rfl
  | cons a t ih =>
    simp only [List.foldl_cons]
    refine recordsOnly_trans ?_ (ih _)
    split <;> rfl

theorem recordsOnly_nodeRecord (ev : Nat) (c : Chip) : recordsOnly c (nodeRecord ev c) :=
  recordsOnly_trans (recordsOnly_telemetry _ _ _ _ _) (recordsOnly_platformEvent _ _ _)

/-! What `recordsOnly` says of the fields. -/

theorem recordsOnly_mem {a b : Chip} (h : recordsOnly a b) : b.mem = a.mem := by rw [h]
theorem recordsOnly_poison {a b : Chip} (h : recordsOnly a b) : b.poison = a.poison := by rw [h]
theorem recordsOnly_cores {a b : Chip} (h : recordsOnly a b) : b.cores = a.cores := by rw [h]
theorem recordsOnly_keys {a b : Chip} (h : recordsOnly a b) : b.keys = a.keys := by rw [h]
theorem recordsOnly_free {a b : Chip} (h : recordsOnly a b) : b.free = a.free := by rw [h]

@[simp] theorem raise_mem (p code sev : Nat) (c : Chip) : (raise p code sev c).mem = c.mem := recordsOnly_mem (recordsOnly_raise _ _ _ _)
@[simp] theorem raise_cores (p code sev : Nat) (c : Chip) : (raise p code sev c).cores = c.cores :=
  recordsOnly_cores (recordsOnly_raise _ _ _ _)
@[simp] theorem getCore_raise (i : CoreId) (p code sev : Nat) (c : Chip) : getCore i (raise p code sev c) = getCore i c :=
  getCore_congr (raise_cores _ _ _ _) i

/-! ### The registers that records change -/

/-- The fields that an error of page `p` changes in the page's header. -/
def errFields (p : Nat) : List Fld :=
  [Hdr.ERR_STATUS p, Hdr.ERR_COUNT p, Hdr.FIRST_CODE p, Hdr.FIRST_SEVERITY p, Hdr.FIRST_VALID p, Hdr.FIRST_TIME p]

/-- The fields that a telemetry record changes. -/
def telFields : List Fld := [Reg.MST_CTR 0, Reg.MST_TEL_SEQ, Reg.MST_TEL_LOST]

theorem onlyFields_refl (fs : List Fld) (a : Chip) : onlyFields fs a a := fun _ _ => rfl

theorem onlyFields_trans {fs : List Fld} {a b c : Chip} (h : onlyFields fs a b) (h' : onlyFields fs b c) : onlyFields fs a c :=
  fun g hg => (h' g hg).trans (h g hg)

theorem onlyFields_of_regs {fs : List Fld} {a b : Chip} (h : b.regs = a.regs) : onlyFields fs a b := fun g _ => rd_congr h g

theorem onlyFields_mono {fs gs : List Fld} {a b : Chip} (h : onlyFields fs a b) (hs : ∀ f ∈ fs, f ∈ gs) : onlyFields gs a b :=
  fun _ hg => h _ fun hm => hg (by
    obtain ⟨f, hf, e⟩ := List.mem_map.mp hm
    exact List.mem_map.mpr ⟨f, hs f hf, e⟩)

theorem onlyFields_wr {fs : List Fld} {f : Fld} (h : f ∈ fs) (v : Nat) (c : Chip) : onlyFields fs c (wr f v c) :=
  fun g hg => rd_wr_ne v c fun e => hg (List.mem_map.mpr ⟨f, h, e.symm⟩)

theorem onlyFields_pageIrq (fs : List Fld) (p : Nat) (c : Chip) : onlyFields fs c (pageIrq p c) := by
  have hs : ∀ h f v c, (sendMsix h f v c).regs = c.regs := by
    intro h f v c; unfold sendMsix; split
    · rfl
    · split <;> rfl
  apply onlyFields_of_regs
  unfold pageIrq
  simp only []
  split
  · split
    · rw [hs, hs]
    · rw [hs]
  · split
    · rw [hs]
    · rfl

theorem onlyFields_latchErr (p code sev : Nat) (c : Chip) : onlyFields (errFields p) c (latchErr p code sev c).1 := by
  unfold latchErr
  simp only []
  generalize hc : bumpSat _ _ _ = c1
  have h1 : onlyFields (errFields p) c c1 := by
    rw [← hc]
    exact onlyFields_trans (onlyFields_wr (by simp [errFields]) _ _) (onlyFields_wr (by simp [errFields]) _ _)
  generalize hd : (if (!(rd (Hdr.ERR_STATUS p) c).testBit (errBit code) && _) = true then pageIrq p c1 else c1) = c2
  have h2 : onlyFields (errFields p) c1 c2 := by
    rw [← hd]; split
    · exact onlyFields_pageIrq _ _ _
    · exact onlyFields_refl _ _
  have h3 := onlyFields_trans h1 h2
  split
  · exact h3
  · refine onlyFields_trans h3 ?_
    have hw : ∀ f ∈ errFields p, ∀ v c, onlyFields (errFields p) c (wr f v c) := fun f hf v c => onlyFields_wr hf v c
    exact onlyFields_trans (hw (Hdr.FIRST_CODE p) (by simp [errFields]) _ _)
      (onlyFields_trans (hw (Hdr.FIRST_SEVERITY p) (by simp [errFields]) _ _)
        (onlyFields_trans (hw (Hdr.FIRST_VALID p) (by simp [errFields]) _ _) (hw (Hdr.FIRST_TIME p) (by simp [errFields]) _ _)))

theorem onlyFields_telPush (kind src sev : Nat) (body : List Nat) (c : Chip) : onlyFields telFields c (telPush kind src sev body c).1 := by
  have h0 : onlyFields telFields c (bump Reg.MST_TEL_SEQ 1 (bump (Reg.MST_CTR 0) 1 c)) :=
    onlyFields_trans (onlyFields_wr (by simp [telFields]) _ _) (onlyFields_wr (by simp [telFields]) _ _)
  obtain ⟨q, n, m, e⟩ := telPush_eq kind src sev body c
  rw [e]
  have h1 : onlyFields telFields (bump Reg.MST_TEL_SEQ 1 (bump (Reg.MST_CTR 0) 1 c))
      { bump Reg.MST_TEL_SEQ 1 (bump (Reg.MST_CTR 0) 1 c) with tel := q, telLostSince := n } := onlyFields_of_regs rfl
  exact onlyFields_trans h0 (onlyFields_trans h1 (onlyFields_wr (by simp [telFields]) _ _))

theorem onlyFields_telemetry (kind src sev : Nat) (body : List Nat) (c : Chip) :
    onlyFields (errFields 6 ++ telFields) c (telemetry kind src sev body c) := by
  have ht : ∀ (k s v : Nat) (b : List Nat) (c : Chip), onlyFields (errFields 6 ++ telFields) c (telPush k s v b c).1 := fun _ _ _ _ _ =>
    onlyFields_mono (onlyFields_telPush _ _ _ _ _) fun f hf => List.mem_append.mpr (Or.inr hf)
  have hl : ∀ (code sev : Nat) (c : Chip), onlyFields (errFields 6 ++ telFields) c (latchErr 6 code sev c).1 := fun _ _ _ =>
    onlyFields_mono (onlyFields_latchErr _ _ _ _) fun f hf => List.mem_append.mpr (Or.inl hf)
  unfold telemetry telLost
  simp only []
  refine onlyFields_trans (ht kind src sev body c) ?_
  split
  · exact onlyFields_refl _ _
  · split
    · exact onlyFields_trans (hl _ _ _) (ht _ _ _ _ _)
    · exact hl _ _ _

/-- The registers that an error of page `p` may change: the page's error fields, the telemetry registers, and the error fields
of MST (a lost record). -/
theorem onlyFields_raise (p code sev : Nat) (c : Chip) :
    onlyFields (errFields p ++ (errFields 6 ++ telFields)) c (raise p code sev c) := by
  have hl : onlyFields (errFields p ++ (errFields 6 ++ telFields)) c (latchErr p code sev c).1 :=
    onlyFields_mono (onlyFields_latchErr _ _ _ _) fun f hf => List.mem_append.mpr (Or.inl hf)
  unfold raise
  simp only []
  split
  · exact onlyFields_trans hl (onlyFields_mono (onlyFields_telemetry _ _ _ _ _) fun f hf => List.mem_append.mpr (Or.inr hf))
  · exact hl

end Sys2Proof.Machine
end

