-- ==== Sys2Proof/Laws/Sterok.lean ====
section
/-! SUPPORT. What running one Sterok instruction can do: complete, trap or hold, for any meaning. -/

namespace Sys2Proof.Machine

theorem atInstr_canExecute {i : CoreId} {c : Chip} {k : CoreSt} (h : atInstr i c = some k) : canExecute i c = true := by
  unfold atInstr at h
  split at h
  · assumption
  · cases h

/-- An instruction at its boundary ends as its effect says. -/
theorem runInstr_end {i : CoreId} {w : Nat} {f : CoreSt → Chip → IRes} {c : Chip} {k : CoreSt} (h : atInstr i c = some k) :
    runInstr i w f c = instrEnd i w k c (f k c) := by
  unfold atInstr at h
  unfold runInstr
  split at h
  · rename_i hc
    rw [if_pos hc]
    cases hf : fetchAt i c with
    | error e => simp [hf, Except.toOption] at h
    | ok k1 =>
      simp only [hf, Except.toOption, Option.some.injEq] at h
      subst h
      rfl
  · cases h

/-- An instruction whose effect completes: its registers and chip, the PC at the next place, counted, and the boundary. -/
theorem runInstr_ok {i : CoreId} {w n : Nat} {f : CoreSt → Chip → IRes} {c c' : Chip} {k k' : CoreSt} {nx : Option Nat}
    (h : atInstr i c = some k) (hf : f k c = .ok k' c' nx n) (ht : badTarget i (nx.getD (k.pc + 4)) = false) :
    runInstr i w f c = boundary i (retire i n (setCore i { k' with pc := nx.getD (k.pc + 4) % 2 ^ 64 } c')) := by
  rw [runInstr_end h, hf]
  simp [instrEnd, ht]

/-- An instruction that traps leaves only the trap state. -/
theorem runInstr_trap {i : CoreId} {w cause val : Nat} {f : CoreSt → Chip → IRes} {c : Chip} {k : CoreSt}
    (h : atInstr i c = some k) (hf : f k c = .trap cause val) : runInstr i w f c = trapEntry i cause val k.pc c := by
  rw [runInstr_end h, hf]; rfl

/-- The outcome of an instruction that completes and goes on at the next word. -/
theorem onChip_runInstr_next {i : CoreId} {w n : Nat} {f : CoreSt → Chip → IRes} {s : State} {c' : Chip} {k k' : CoreSt}
    (h : atInstr i s.chip = some k) (hn : nextWordOk i k) (hf : f k s.chip = .ok k' c' none n) :
    onChip (runInstr i w f) s = goesOn i k' (k.pc + 4) n c' s := by
  unfold onChip goesOn
  rw [runInstr_ok h hf (show badTarget i ((none : Option Nat).getD (k.pc + 4)) = false from hn)]
  rfl

/-- The outcome of an instruction that completes and goes on at `t`. -/
theorem onChip_runInstr_some {i : CoreId} {w n t : Nat} {f : CoreSt → Chip → IRes} {s : State} {c' : Chip} {k k' : CoreSt}
    (h : atInstr i s.chip = some k) (hf : f k s.chip = .ok k' c' (some t) n) (ht : badTarget i t = false) :
    onChip (runInstr i w f) s = goesOn i k' t n c' s := by
  unfold onChip goesOn
  rw [runInstr_ok h hf (show badTarget i ((some t).getD (k.pc + 4)) = false from ht)]
  rfl

/-- An instruction whose next place lies outside the range of the core traps as illegal (R199). -/
theorem onChip_runInstr_bad {i : CoreId} {w n t : Nat} {f : CoreSt → Chip → IRes} {s : State} {c' : Chip} {k k' : CoreSt}
    {nx : Option Nat} (h : atInstr i s.chip = some k) (hf : f k s.chip = .ok k' c' nx n) (hx : nx.getD (k.pc + 4) = t)
    (ht : badTarget i t = true) : onChip (runInstr i w f) s = traps i 0x01 w k.pc s.chip s := by
  unfold onChip traps
  rw [runInstr_end h, hf]
  simp [instrEnd, hx, ht]

/-- The outcome of an instruction that traps. -/
theorem onChip_runInstr_trap {i : CoreId} {w cause val : Nat} {f : CoreSt → Chip → IRes} {s : State} {k : CoreSt}
    (h : atInstr i s.chip = some k) (hf : f k s.chip = .trap cause val) :
    onChip (runInstr i w f) s = traps i cause val k.pc s.chip s := by
  unfold onChip traps
  rw [runInstr_trap h hf]

/-- An instruction that stays where it is. -/
theorem runInstr_hold {i : CoreId} {w : Nat} {f : CoreSt → Chip → IRes} {c c' : Chip} {k k' : CoreSt}
    (h : atInstr i c = some k) (hn : nextWordOk i k) (hf : f k c = .hold k' c') : runInstr i w f c = setCore i k' c' := by
  rw [runInstr_end h, hf]
  simp [instrEnd, show badTarget i (k.pc + 4) = false from hn]

/-- An instruction that pulses a line. -/
theorem runInstr_pulsed {i : CoreId} {w line : Nat} {f : CoreSt → Chip → IRes} {c : Chip} {k : CoreSt}
    (h : atInstr i c = some k) (hf : f k c = .pulsed line) (ht : badTarget i (k.pc + 4) = false) :
    runInstr i w f c = pulse line (retire i 1 (setCore i { k with pc := k.pc + 4 } c)) := by
  rw [runInstr_end h, hf]
  simp [instrEnd, ht]

end Sys2Proof.Machine
end

