-- ==== Sys2Proof/Tests/Slice0.lean ====
section
/-! SUPPORT. The model's own tests, and witnesses of the hypotheses of the statements: `witness_<Statement>` shows, for each clause with hypotheses, a concrete state and operands that meet them, at the ends of their ranges where there are any. -/

namespace Sys2Proof.Tests

open Sys2Proof Sys2Proof.Machine

/-! ### Ill-formed commands -/

theorem test_wf_page : Instr.wellFormed (.drainToOff 0x2150) = false := by decide
theorem test_wf_width : Instr.wellFormed (.registerWrite .steward 3 0x30C 16 0) = false := by decide
theorem test_wf_align : Instr.wellFormed (.lowWordRead .steward 3 0x30D) = false := by decide
theorem test_wf_value : Instr.wellFormed (.registerWrite .steward 3 0x30C 32 (2 ^ 32)) = false := by decide
theorem test_wf_bytes : Instr.wellFormed (.icmpEcho 1 [256]) = false := by decide
theorem test_wf_word : Instr.wellFormed (.crsBreak .steward (2 ^ 32)) = false := by decide
theorem test_wf_line : Instr.wellFormed (.interrupt .steward 64) = false := by decide

/-! ### Small states -/

/-- The block after reset with some register fields set. -/
def on (l : List (Fld × Nat)) : Chip := l.foldl (fun c x => wr x.1 x.2 c) Chip.reset

/-- Churn core 0 executes. -/
def runs0 : Chip := on [(Hdr.STATE 0x2000, 2), (Reg.CC_RUN_STATE 0, 1)]

/-! ### The Sterok cores -/

theorem witness_RegisterInstructions :
    atInstr (.churn 0) runs0 = some CoreSt.reset ∧ badTarget (.churn 0) (CoreSt.reset.pc + 4) = false ∧
    atInstr .steward Chip.reset = some CoreSt.reset ∧ badTarget .steward (CoreSt.reset.pc + 4) = false ∧
    (getCore (.churn 0) runs0).tile = none ∧ isChurn (.churn 0) = true ∧ isChurn .steward = false ∧
    (192 ≤ (192 : BitVec 18).toNat) ∧ (0 : BitVec 18).toNat / 64 = 0 ∧ (127 : BitVec 18).toNat / 64 = 1 ∧ (191 : BitVec 18).toNat / 64 = 2 := by decide

theorem witness_LoadsAndStores :
    atInstr (.churn 0) runs0 = some CoreSt.reset ∧ memIllegal 0 0 = false ∧ memIllegal 7 2 = false ∧ memIllegal 15 1 = false ∧
    locate (.churn 0) CoreSt.reset .load 0xFFFF8 8 runs0 = .at CoreSt.reset [(spSpad 0, 0xFFFF8, 8)] ∧
    locate (.churn 0) CoreSt.reset .store 0 1 runs0 = .at CoreSt.reset [(spSpad 0, 0, 1)] ∧
    piecesPoison [(spSpad 0, 0xFFFF8, 8)] runs0 = none ∧ 0x100000 < (memAddr (setP CoreSt.reset 1 0x100000) 1 0 0).toNat + 1 := by decide

theorem witness_ControlFlow :
    atInstr (.churn 0) runs0 = some CoreSt.reset ∧ canExecute (.churn 0) runs0 = true ∧ badTarget (.churn 0) 4 = false ∧ badTarget (.churn 0) 0x10000 = true ∧
    badTarget (.churn 0) 0xFFFC = false := by decide

theorem witness_ControlRegisters :
    atInstr .steward Chip.reset = some CoreSt.reset ∧ statusBit CoreSt.reset 4 = true ∧ ctExists .steward 15 = true ∧ ctExists (.churn 0) 31 = true ∧
    ctExists (.churn 0) 6 = false ∧ statusBit (setStatus CoreSt.reset 4 false) 4 = false ∧
    atInstr .steward (setCore .steward (setStatus CoreSt.reset 4 false) Chip.reset) = some (setStatus CoreSt.reset 4 false) := by decide

theorem witness_Traps :
    atInstr .steward Chip.reset = some CoreSt.reset ∧ isChurn .steward = false ∧ isChurn (.churn 335) = true ∧ statusBit CoreSt.reset 4 = true ∧
    statusBit (setStatus CoreSt.reset 4 false) 4 = false ∧ (0x9F < 256 ∧ 0xFFFC < 0x10000) := by decide

theorem witness_InterruptsAndEvents :
    (CoreSt.reset.irqEnable.getLsbD 63 = false) ∧
    (({ CoreSt.reset with irqEnable := 1#64 <<< 63 } : CoreSt).irqEnable.getLsbD 63 = true ∧ statusBit CoreSt.reset 3 = false ∧ statusBit (setStatus CoreSt.reset 3 true) 3 = true) ∧
    (let k : CoreSt := { setStatus CoreSt.reset 3 true with irqEnable := 1#64 <<< 5, irqPending := 1#64 <<< 5 }
     k.irqPending &&& k.irqEnable = 1#64 <<< 5 ∧ k.irqPending &&& k.irqEnable ≠ 0) ∧
    domAwake 357 (on [(Reg.PWR_DOM_AWAKE 11, 2 ^ 5)]) = true ∧ domAwake 357 Chip.reset = false ∧
    (atInstr (.churn 0) runs0 = some CoreSt.reset ∧ rd (Reg.CC_IN_COUNT 0 7) runs0 < 1 ∧ 0 ≤ rd (Reg.CC_IN_COUNT 0 7) runs0) ∧
    (badTarget (.churn 0) 0xFFFC = false ∧ badTarget (.churn 0) (0xFFFC + 4) = true ∧ atInstr (.churn 0) (setCore (.churn 0) { CoreSt.reset with pc := 0xFFFC } runs0) = some { CoreSt.reset with pc := 0xFFFC }) ∧
    rd (Reg.CC_OUT_BOUND 0 3) (wr (Reg.CC_OUT_BOUND 0 3) 1 runs0) = 1 := by decide

theorem witness_Atomics :
    atInstr .steward Chip.reset = some CoreSt.reset ∧ (0 % 8 = 0 ∧ 4 % 8 ≠ 0) ∧
    (locate .steward CoreSt.reset .store 0 8 Chip.reset = .at CoreSt.reset [(spAon, 0, 8)]) ∧ piecesPoison [(spAon, 0, 8)] Chip.reset = none := by decide

theorem witness_TileIssue :
    atInstr (.churn 0) runs0 = some CoreSt.reset ∧ (getCore (.churn 0) runs0).tile = none ∧ (14 : Fin 16).val % 2 = 0 ∧
    issueCause ⟨0, 0x3C, 0, 0, 0, List.replicate 7 0, 0⟩ ≠ 0 := by decide

/-! ### Register pages and Crossing -/

theorem witness_RegisterAccess :
    (hasHeader 6 = true ∧ guardOk (.host 0) 6 Chip.reset = true) ∧ (hasHeader 0x24 = false ∧ inRuleWindow 0x24 = false ∧ pageState 0x24 Chip.reset = 0) ∧
    (hasHeader 2 = true ∧ guardOk (.host 0) 2 Chip.reset = false) ∧ (0xFFC < 0x1000 ∧ 0xFFC % 4 = 0) ∧
    (sleeps 6 0x400 Chip.reset = false ∧ sleeps 6 0x404 Chip.reset = false ∧ isLow 6 0x400 = true ∧ lowAlone 6 0x400 = false ∧ isLow 6 0x404 = false) ∧
    mapGet none ({ Chip.reset with pendLow := [(partyIx .steward, some ⟨6, 0x400, 7⟩)] }).pendLow (partyIx .steward) = some ⟨6, 0x400, 7⟩ := by decide

theorem witness_PageChecks :
    (pageState 0x50 Chip.reset = 0 ∧ hasHeader 0x50 = true ∧ guardOk (.host 0) 0x50 Chip.reset = true ∧ ctrlMay (.host 0) 0x50 Chip.reset = true) ∧
    pageState 0x50 (on [(Hdr.STATE 0x50, 3)]) = 3 ∧
    (pageState 0x60 (on [(Hdr.STATE 0x60, 1)]) = 1 ∧ (pageCheck 0x60 (on [(Hdr.STATE 0x60, 1)])).isSome = true) ∧
    (let c := on [(Hdr.STATE 0x79, 1), (Hdr.DRV_MAJOR 0x79, 1), (Reg.PWR_PLL_ON, 15), (Reg.PWR_DOM_AWAKE 13, 0x7FFF)]
     pageState 0x79 c = 1 ∧ pageCheck 0x79 c = none ∧ (pageDomain 0x79 = 0x1FF ∨ domAwake (pageDomain 0x79) c = true) ∧ blockType 0x79 = some 0x79) := by decide

theorem witness_PageStates :
    (let c := on [(Hdr.STATE 0x79, 2), (Hdr.EN 0x79, 1)]
     hasHeader 0x79 = true ∧ guardOk .steward 0x79 c = true ∧ ctrlMay .steward 0x79 c = true ∧ rd (Hdr.EN 0x79) c = 1 ∧ rd (Hdr.FENCE 0x79) c = 0 ∧ rd (Hdr.QUIESCE 0x79) c = 0 ∧
     pageState 0x79 c = 2 ∧ rdb Reg.RST_SAFE_STATE c = false) ∧
    (let c := on [(Hdr.STATE 0x79, 5), (Hdr.QUIESCE 0x79, 1)]
     pageState 0x79 c = 5 ∧ rd (Hdr.EN 0x79) c = 0 ∧ pageIdle 0x79 c = true) ∧
    (let c := on [(Hdr.STATE 0x50, 6)]
     pageState 0x50 c = 6 ∧ inRuleWindow 0x50 = false ∧ wakeRefusal (pageDomain 0x50) .work c = 0 ∧ wakeRefusal (pageDomain 0x50) .work (wr Reg.THM_TRIPPED 1 c) = 3) := by decide

set_option maxRecDepth 100000 in
theorem witness_Semaphores :
    (semCode (.host 0) = some 1 ∧ semCode .steward = some 3 ∧ rd (Reg.CRS_OWNER 63) Chip.reset = 0 ∧ Chip.reset.semAbandoned = [] ∧ Chip.reset.hostTie < 2) ∧
    (rd (Reg.CRS_OWNER 63) (on [(Reg.CRS_OWNER 63, 1)]) = 1) ∧
    (let c := on [(Reg.MEM_ACTIVITY 6 63, 2), (Reg.MEM_SCRUBBING 6 63, 1)]
     pageState 0xA6 c ≠ 6 ∧ guardOk .steward 0xA6 c = true ∧ rd (Reg.MEM_ACTIVITY 6 63) c = 2 ∧ actQuiet 2 6 63 c = true ∧ actQuiet 11 6 63 c = true ∧
     rdb (Reg.MEM_SCRUBBING 6 63) c = true ∧ rd Reg.LBY_JOB_STATE c ≠ 4) := by decide

/-! ### Churn cores -/

theorem witness_RunControl :
    (let c := on [(Hdr.STATE 0x2000, 2)]
     pageState 0x2000 c ≠ 6 ∧ guardOk (.host 0) 0x2000 c = true ∧ Nat.testBit 0x100 9 = false ∧ rd (Reg.CC_RUN_STATE 0) c = 0) ∧
    (pageState 0x2000 runs0 ≠ 6 ∧ guardOk (.host 0) 0x2000 runs0 = true ∧ Nat.testBit 0x200 8 = false ∧ rd (Reg.CC_RUN_STATE 0) runs0 = 1) ∧
    (let c := on [(Reg.CHN_POOL_OF 0, 31), (Hdr.STATE 0x2000, 2)]
     coreOfMember 31 0 c = some 0 ∧ pageState 0x2000 c ≠ 4 ∧ imemTakes 0 c = true ∧ imemTakes 0 (wr (Reg.CC_RUN_STATE 0) 1 c) = false ∧ 0xFFFF + [7].length ≤ 0x10000) := by decide

set_option maxRecDepth 100000 in
theorem witness_CoreReplacement :
    (rd (Reg.CC_WDOG_LIMIT 0) runs0 ≠ 0 ∧ rd (Reg.CC_RUN_STATE 0) runs0 = 1) ∧
    (isDisabled 0 Chip.reset = false ∧ chooseSpare 0 Chip.reset = some 320) ∧
    (let c := { on [(Reg.PWR_DOM_AWAKE 10, 1)] with reissues := [⟨0, 320, false, false⟩] }
     c.reissues.find? (fun x => x.repl == 320 && !x.ready) = some ⟨0, 320, false, false⟩ ∧ domAwake 320 c = true ∧ pageState 0x60 c ≠ 6 ∧ guardOk (.host 0) 0x60 c = true) ∧
    (let c := { on [(Reg.CC_RUN_STATE 320, 5)] with reissues := [⟨0, 320, true, true⟩] }
     rd (Reg.CC_RUN_STATE 320) c = 5 ∧ (⟨0, 320, true, true⟩ : Reissue) ∈ c.reissues) := by decide

theorem witness_WaitsEnd :
    (let o : TileOp := ⟨0, 0x3C, 0, 0, 0, List.replicate 7 0, 0⟩
     let k : CoreSt := { CoreSt.reset with tile := some o }
     let c := setCore (.churn 0) k runs0
     (getCore (.churn 0) c).tile = some o ∧ k.sigs = [] ∧ o.pc < 0x10000 ∧ opPoisoned 0 o c = false ∧ rd (Reg.CC_RUN_STATE 0) c = 1) ∧
    (let w : WaitOp := ⟨7, 1, 9, false, false⟩
     let c := setCore (.churn 0) { CoreSt.reset with wait := some w } (on [(Hdr.STATE 0x2000, 2), (Reg.CC_RUN_STATE 0, 2), (Reg.CC_IN_COUNT 0 7, 1)])
     (getCore (.churn 0) c).wait = some w ∧ working 0x2000 c = true ∧ w.count ≤ rd (Reg.CC_IN_COUNT 0 7) c ∧ w.timeout ≠ 0) := by decide

/-! ### Movers, key slots -/

/-- Channel 63 of Mover 0, owned by host port 0, is ready; its ring lies at address 0 of that port's memory. -/
def mover : Chip := on [(Hdr.STATE 0x50, 2), (Hdr.EN 0x50, 1), (Reg.MOV_OWNER 0 63, 0x8000), (Reg.MOV_BASE 0 63, 2 ^ 50), (Reg.MOV_LOG2_N 0 63, 4),
  (Reg.MOV_CH_EN 0 63, 1), (Reg.MOV_CH_STATE 0 63, 1), (Reg.MOV_TAIL 0 63, 1)]

/-- A descriptor of 64 bytes from offset 0x1000 to offset 0x2000 of host port 0's memory, of generation `g`. -/
def movDescriptor (g : Nat) : List Nat :=
  leBytes 8 (2 ^ 62 + 0x1000) ++ leBytes 8 (2 ^ 62 + 0x2000) ++ leBytes 4 64 ++ leBytes 4 (g * 2 ^ 16) ++ List.replicate 40 0

theorem witness_MoverChannels :
    (let c := on [(Hdr.STATE 0x50, 2), (Reg.MOV_OWNER 0 63, 0x8000), (Reg.MOV_LOG2_N 0 63, 15)]
     pageState 0x50 c ≠ 6 ∧ guardOk (.host 0) 0x50 c = true ∧ rd (Reg.MOV_OWNER 0 63) c = ownerCode (.host 0) c ∧ rd (Reg.MOV_CH_STATE 0 63) c ≠ 5 ∧
     rd (Reg.MOV_CH_EN 0 63) c = 0 ∧ rd (Reg.MOV_BOUND0 0 63) c = 0 ∧ rd (Reg.MOV_BOUND1 0 63) c = 0 ∧ isHost (.host 0) = true ∧
     rd (Reg.MOV_LOG2_N 0 63) c = 15 ∧ rd (Reg.MOV_LOG2_N 0 62) c < 4 ∧ movStops 0 63 c = false ∧ rd (Reg.MOV_OWNER 0 63) c ≠ ownerCode (.host 1) c) ∧
    (rd (Reg.MOV_CH_STATE 0 63) (on [(Hdr.STATE 0x50, 2), (Reg.MOV_OWNER 0 63, 0x8000), (Reg.MOV_CH_STATE 0 63, 5)]) = 5) ∧
    (let r := movParse 0 (movDescriptor 0)
     let c := movSetRun 0 63 (some r) mover
     movRunOf 0 63 c = some r ∧ rd (Reg.MOV_OWNER 0 63) c ≠ 0x9001 ∧ r.len = 64 ∧ r.trail = false) := by decide

set_option maxRecDepth 100000 in
theorem witness_MoverDescriptors :
    (let c := put (spHost 0) 0 (movDescriptor 0) mover
     let b := readRange 0x8000 (2 ^ 62) 64 c
     let r0 := movParse (2 ^ 62) b.1
     let r := { r0 with prio := max r0.prio (rd (Reg.MOV_PRIO_CAP 0 63) c) }
     running 0x50 c = true ∧ rd (Reg.MOV_CH_EN 0 63) c = 1 ∧ rd (Reg.MOV_CH_STATE 0 63) c = 1 ∧ rd (Reg.MOV_HEAD 0 63) c ≠ rd (Reg.MOV_TAIL 0 63) c ∧
     movMayStart 0x8000 c = true ∧ movRunOf 0 63 c = none ∧ rd (Reg.MOV_BASE 0 63) c * 4096 = 2 ^ 62 ∧ b.2 = false ∧
     leNat b.1 / 2 ^ 176 % 2 ^ 16 = rd (Reg.MOV_GEN 0 63) c ∧ movBad 0 b.1 = false ∧
     movObstacle 0x8000 r (movState 0 63 2 (movSetRun 0 63 (some r) c)) = none) ∧
    (let c := put (spHost 0) 0 (movDescriptor 0xFFFF) mover
     (readRange 0x8000 (2 ^ 62) 64 c).2 = false ∧ leNat (readRange 0x8000 (2 ^ 62) 64 c).1 / 2 ^ 176 % 2 ^ 16 ≠ rd (Reg.MOV_GEN 0 63) c) ∧
    (readRange 0x8000 (2 ^ 62) 64 (poisonRange (spHost 0) 0 64 mover)).2 = true ∧ running 0x50 Chip.reset = false ∧
    (let r := movParse 0 (movDescriptor 0)
     let c := movSetRun 0 63 (some r) mover
     movRunOf 0 63 c = some r ∧ working 0x50 c = true ∧ movObstacle 0x8000 r c = none ∧ rd (Reg.MOV_WDOG_LIMIT 0) c ≠ 0 ∧
     rd (Reg.MOV_WDOG_LIMIT 0) (wr (Reg.MOV_WDOG_LIMIT 0) 0 c) = 0 ∧ movPoisoned 0x8000 r.len r (poisonRange (spHost 0) 0x1000 64 c) = true) := by decide

theorem witness_KeySlots :
    (let c := on [(Hdr.STATE 0x10FF, 2), (Reg.KEY_OWNER 255, 0x8000)]
     let v := 7 + 3 * 16
     pageState 0x10FF c ≠ 6 ∧ guardOk (.host 0) 0x10FF c = true ∧ keyOwns (.host 0) 255 c = true ∧ v / 8 % 2 = 0 ∧ v / 64 % 2 ^ 25 = 0 ∧ v / 16 % 4 = 3 ∧
     rd Reg.CPH_ALARM_LATCH c ≠ 1 ∧ rd Reg.CPH_ALARM_LATCH (wr Reg.CPH_ALARM_LATCH 1 c) = 1 ∧ bankOf (.host 0) c = some 1 ∧
     (keyData 1 255 c).take 32 = (keyData 1 255 c).drop 32 ∧
     (keyData 1 255 (wrB 1 (Reg.KEY_KEY_DATA 255 63) 1 c)).take 32 ≠ (keyData 1 255 (wrB 1 (Reg.KEY_KEY_DATA 255 63) 1 c)).drop 32 ∧
     guardOk (.host 1) 0x10FF c = true ∧ keyOwns (.host 1) 255 c = false ∧
     keyOwnerBy .steward 0x8000 c = true ∧ rd (Hdr.EN 0x10FF) c = 0 ∧ keyOwnerBy (.host 0) 0x8000 c = false ∧ rd (Hdr.EN 0x10FF) (wr (Hdr.EN 0x10FF) 1 c) = 1) ∧
    (pageState 0x88 Chip.reset ≠ 6 ∧ guardOk .steward 0x88 Chip.reset = true ∧ guardOk (.host 0) 0x88 Chip.reset = true ∧ (Party.host 0 ≠ .steward) ∧
     isHost (.host 0) = true ∧ holdsSem (.host 0) 0 (on [(Reg.CRS_OWNER 0, 1)]) = true ∧ holdsSem (.host 0) 0 Chip.reset = false) := by decide

/-! ### Cipher, Ahnam -/

/-- Wayside core 0 at the start of the first device-memory channel, which belongs to CONTROL; it runs image 2. -/
def wayCore : CoreSt := { CoreSt.reset with pc := 0x4000000000, p := [(8, 0x4000001000)] }
def wayChip : Chip :=
  setCore (.wayside 0) wayCore { on [(Reg.PWR_DOM_AWAKE 11, 2 ^ 5), (Reg.MEM_ACTIVITY 0 0, 10)] with images := [(2, 1)] }

/-- A CIPHER SUBMIT descriptor of 16 bytes at 0x4000002000, encrypted in place, tag at 0x4000003000. -/
def cphDescriptor : List Nat :=
  leBytes 4 0x18 ++ leBytes 4 16 ++ leBytes 8 0x4000002000 ++ leBytes 8 0x4000002000 ++ leBytes 8 0x4000004000 ++ leBytes 8 0 ++ leBytes 8 0x4000003000 ++
  List.replicate 16 0

set_option maxRecDepth 100000 in
theorem witness_CipherSubmit :
    (atInstr (.wayside 0) wayChip = some wayCore ∧ badTarget (.wayside 0) (wayCore.pc + 4) = false ∧ (getP wayCore 8).toNat = 0x4000001000 ∧ 0x4000001000 % 64 = 0 ∧
     (cphPlaces (.wayside 0) wayChip [(.load, 0x4000001000, 64)] wayCore []) = .inl (wayCore, [[(some (spDev, 0x4000001000), 64)]])) ∧
    (let c := put spDev 0x4000001000 cphDescriptor wayChip
     let b := cphRead c [(some (spDev, 0x4000001000), 64)]
     b.2 = false ∧ (cphParse b.1).bad = false ∧ (cphPlaces (.wayside 0) c (cphBufs (cphParse b.1)) wayCore []).isLeft = true ∧ (cphBufs (cphParse b.1)).length = 7 ∧
     rd (Reg.KEY_OWNER 0) c ≠ 0xB000 + (imageOf 0 c).getD 0 ∧ rd Reg.CPH_ALARM_LATCH c ≠ 1 ∧ rd Reg.CPH_ALARM_LATCH (wr Reg.CPH_ALARM_LATCH 1 c) = 1) ∧
    (cphRead (poisonRange spDev 0x4000001000 64 wayChip) [(some (spDev, 0x4000001000), 64)]).2 = true ∧
    (let b := cphRead (put spDev 0x4000001000 (List.replicate 64 7) wayChip) [(some (spDev, 0x4000001000), 64)]
     b.2 = false ∧ (cphParse b.1).bad = true) ∧
    (atInstr .steward Chip.reset = some CoreSt.reset ∧ ∀ w, CoreId.steward ≠ .wayside w) := by
  refine ⟨⟨by decide, by decide, by decide, by decide, rfl⟩, by decide, by decide, by decide, by decide, by simp⟩

/-- A WRITE of 4 bytes to device 7, its bytes in the message itself. -/
def txMsg : TxMsg :=
  { id := 3, opcode := 1, qp := 0, gen := 0, dev := 7, dqp := 0, tag := 0, inc := 0, seq := 0, len := 4, prot := none, key := [], src := none, inl := [1, 2, 3, 4],
    opf := List.replicate 20 0, next := 0, acked := [], busy := [0], rnr := 0 }

/-- Device 7 with version 3 agreed. -/
def dest7 : AhnDest :=
  { ver := 3, bad := false, helloTsn := 0, helloTries := 0, w8 := 1024, srtt := 0, lastDec := none, ptr := 63, ports := List.replicate 64 0xC000,
    losses := List.replicate 64 0, goods := List.replicate 64 0, used := 0 }

def ahn : Chip := on [(Hdr.STATE 0x40, 2), (Hdr.EN 0x40, 1), (Reg.AHN_QP_TABLE, 0x4000000000), (Reg.AHN_REGION_TABLE, 0x4000100000)]

/-- The flight of the message's only packet. -/
def flight (retry : Nat) : Flight := { tsn := 5, path := 0, sent := 0, old := [], dev := 7, msg := 3, offset := 0, len := 4, retry := retry, higher := 0 }

set_option maxRecDepth 100000 in
theorem witness_AhnamSends :
    (let c := setDest 7 dest7 { ahn with txMsgs := [txMsg], quiet := false }
     working 0x40 c = true ∧ txMsgOf 3 c = some txMsg ∧ getDest 7 c = some dest7 ∧ opcodeVersion 1 ≤ 3 ∧ opcodeVersion 2 = 2 ∧ inFlight 7 c < destLimit dest7 c ∧
     c.flights.length < 262144 ∧ (msgBytes txMsg 0 (min (payloadMax c) 4) c).2 = false ∧ txMsg.next < txMsg.len ∧ 0 ∈ txMsg.busy ∧ 4 ∉ txMsg.busy) ∧
    (let c := { ahn with flights := [flight 0], txMsgs := [{ txMsg with len := 8193 }] }
     working 0x40 c = true ∧ flightSent (flight 0) 5 ≠ none ∧ flightSent (flight 0) 6 = none ∧
     allAcked { txMsg with len := 8193, acked := setAdd [] 0 } c = false ∧ (txMsgOf 3 c).isSome = true) ∧
    (let c := setDest 7 dest7 { ahn with flights := [flight 7], txMsgs := [txMsg] }
     c.flights.find? (fun x => x.tsn == 5) = some (flight 7) ∧ (flight 7).retry = 7 ∧ (flight 6).retry ≠ 7 ∧ (msgBytes txMsg 0 4 c).2 = false) := by decide

/-- A packet of a WRITE of 4 bytes to address 0x100 with key 0. -/
def packet : Packet :=
  { version := 1, tail := true, ackReq := true, prot := false, retx := false, opcode := 1, path := 0, pad := 0, srcDev := 7, dstDev := 0, dstQp := 4095, tag := 0,
    srcQp := 0, qpGen := 0, msgId := 9, msgLen := 4, streamInc := 0, offset := 0, tsn := 0, seq := 0, opf := leBytes 8 0x100 ++ List.replicate 12 0,
    payload := [1, 2, 3, 4], auth := [], udpPort := 0xC000, ce := false, frag := false, flaw := false }

/-- Its reassembly entry before (`[]`) and after the packet. -/
def reasm (got : List (Nat × Nat)) : Reasm := { dev := 7, msg := 9, hdr := packet, got := got, kept := [], recv := none, refused := false, fresh := false }

/-- Region 0 of 4 KiB at address 0 of host port 0, and queue pair 4095 ACTIVE. -/
def ahnUp : Chip :=
  put spDev 0x4000100000 (leBytes 8 0 ++ leBytes 8 0x1000 ++ leBytes 8 (0x8000 * 2 ^ 48 + 15 * 2 ^ 32)) (putF spDev (0x4000000000 + 128 * 4095 + 0x40) 1 0 2 ahn)

set_option maxRecDepth 100000 in
theorem witness_AhnamReceives :
    (let c := { ahnUp with reasm := [reasm []] }
     let c1 := bump (Reg.AHN_CTR 1) 1 c
     working 0x40 c = true ∧ packet.dstDev = rd Reg.AHN_DEVICE_ID c ∧ { packet with dstDev := 1 }.dstDev ≠ rd Reg.AHN_DEVICE_ID c ∧ { packet with frag := true }.frag = true ∧
     opcodeVersion packet.opcode ≠ 0 ∧ opcodeVersion packet.opcode ≤ packet.version ∧ shapeOk packet packet.payload.length = true ∧
     c.recent.elem (7, 9) = false ∧ ({ c with recent := [(7, 9)] }).recent.elem (7, 9) = true ∧ reasmOf 7 9 c = some (reasm []) ∧
     (reasm []).got.any (fun g => g.1 == 0) = false ∧ packetRefusal packet packet.payload none c1 = 0 ∧
     mapGet [] c.acks 7 = [] ∧ mapGet [] (ackPut { packet with ackReq := false } false false c).acks 7 ≠ []) ∧
    (let c := { ahnUp with reasm := [reasm [(0, 4)]], rxStreams := [⟨rxKey packet, 0, 0, []⟩] }
     reasmOf 7 9 c = some (reasm [(0, 4)]) ∧ deliverable (reasm [(0, 4)]) c = true ∧ opfImmValid packet = false ∧ deliverable (reasm []) c = false) ∧
    (let e := { reasm [(0, 4)] with hdr := { packet with opcode := 0 } }
     deliverable e { ahnUp with reasm := [e], rxStreams := [⟨rxKey packet, 0, 0, []⟩] } = true) ∧
    (getDest 7 (setDest 7 { dest7 with ver := 0 } ahn) = some { dest7 with ver := 0 } ∧ 3 ≤ 3 ∧ (1 : Nat) ≤ 1 ∧ 2 ^ 64 - 1 < 2 ^ 64) ∧
    (let f : FlagWait := ⟨rxKey packet, 7, 9, ⟨0, 0, 0, 0x100, 0x8000⟩, List.replicate 8 1, none⟩
     ({ ahn with flags := [f] }).flags.find? (fun x => x.dev == 7 && x.msg == 9) = some f ∧ f.spot.target ≠ 3) ∧
    ((⟨0, 7, 0, 0, true⟩ : StreamKey).send = true ∧ ∀ x ∈ ahn.txMsgs, ¬ (x.qp = 0)) ∧ (rxKey packet).send = false ∧ (∀ x ∈ ahn.reasm, rxKey x.hdr ≠ rxKey packet) := by decide

theorem witness_AhnamElection :
    (let c := on [(Hdr.STATE 0x40, 2), (Reg.AHN_DOMAIN_MODE, 1), (Reg.AHN_DOMAIN_TAG, 5), (Reg.AHN_SERIAL, 8), (Reg.AHN_DISC_COUNT, 1)]
     working 0x40 c = true ∧ rd Reg.AHN_DOMAIN_MODE c = 1 ∧ 5 = rd Reg.AHN_DOMAIN_TAG c ∧ pageState 0x40 c ≠ 6 ∧ guardOk (.host 0) 0x40 c = true ∧
     c.elect.starting = false ∧ 7 < rd Reg.AHN_SERIAL c ∧ rd Reg.AHN_SERIAL c ≤ 8 ∧ rd Reg.AHN_SERIAL c < 9 ∧ discAddrs c ≠ [] ∧
     (let d := { c with elect := { c.elect with starting := true, closed := false } }
      d.elect.starting = true ∧ d.elect.closed = false ∧ (∀ x ∈ d.elect.members, x.serial ≠ 9) ∧ 9 ∉ d.elect.conflicts) ∧
     (let d := { c with elect := { c.elect with closed := true, waiting := [(9, 128, 7)], members := [⟨9, 1, some 1⟩] } }
      d.elect.closed = true ∧ d.elect.waiting = [(9, 128, 7)] ∧ d.elect.waiting.find? (fun x => x.1 == 9 && x.2.1 == 128) = some (9, 128, 7) ∧
      d.elect.members.find? (fun x => x.serial == 9) = some ⟨9, 1, some 1⟩ ∧ (6 : Nat) < 7 ∧ (7 : Nat) ≤ 7)) := by decide

/-- Queue pair 0 of host port 0 in a state: its rings of 16 entries lie at 0x10000, 0x20000 and 0x30000; key 0 names a region of 4 KiB. -/
def qpUp (st : Nat) : Chip :=
  put spDev 0x4000000000 (leBytes 8 0x10004 ++ leBytes 8 0x20004 ++ leBytes 8 0x30004 ++ leBytes 8 0x8000 ++ leBytes 8 (2 ^ 32) ++ List.replicate 24 0 ++ leBytes 8 st) ahnUp

/-- A send entry of operation `op` and generation `g` with 8 bytes of the region, to device 7. -/
def sendEntry (op g : Nat) : List Nat :=
  leBytes 4 op ++ leBytes 4 7 ++ leBytes 8 0 ++ leBytes 4 0 ++ leBytes 4 8 ++ List.replicate 36 0 ++ leBytes 4 g

set_option maxRecDepth 100000 in
theorem witness_QueuePairWork :
    (let c := qpUp 2
     pageState 0x40 c ≠ 6 ∧ ownerCode (.host 0) c = qpOwner 0 c ∧ qpState 0 c ≠ 0 ∧ qpState 0 c ≠ 3 ∧ ownerCode (.host 1) c ≠ qpOwner 0 c ∧
     qpState 0 (qpUp 0) = 0 ∧ working 0x40 Chip.reset = false) ∧
    (∀ op ∈ [0, 1, 2, 3, 5, 6],
      let c := setQp 0 { AhnQp.idle with sqTail := 1 } (put (spHost 0) 0x10000 (sendEntry op 0) (qpUp 2))
      let q := getQp 0 c
      let a := qpRing 0 0 q.sqNext 64 c
      let e := sendParse (ldBytes a.1 a.2 64 c)
      working 0x40 c = true ∧ qpState 0 c = 2 ∧ q.sqNext ≠ q.sqTail ∧ ownerIssues 1 (qpOwner 0 c) c = true ∧ e.opcode = op ∧ e.gen = qpGenField 0 c ∧
      e.fence = false ∧ anyPoison a.1 a.2 64 c = false ∧ sendStatus 0 e c = 0 ∧ streamFull c = false) ∧
    (let c := setQp 0 { AhnQp.idle with sqTail := 1 } (put (spHost 0) 0x10000 (sendEntry 0 0xFFFF) (qpUp 2))
     (sendParse (ldBytes (spHost 0) 0x10000 64 c)).gen ≠ qpGenField 0 c) := by decide

set_option maxRecDepth 100000 in
theorem witness_QueuePairCommands :
    (let c := qpUp 0
     pageState 0x40 c ≠ 6 ∧ guardOk (.host 0) 0x40 c = true ∧ (c.qps.filter fun e => e.2.resetting).length < 64 ∧ qpMay (.host 0) 0 c = true ∧ qpState 0 c = 0 ∧
     qpContextOk 0 c = true ∧ qpF 0 0x18 60 60 c = 0 ∧ qpContextOk 0 (put spDev 0x4000000000 [3] c) = false ∧ qpMay (.host 1) 0 c = false) ∧
    (qpState 0 (qpUp 1) = 1 ∧ qpState 0 (qpUp 2) = 2 ∧ qpState 0 (qpUp 3) = 3) ∧
    (let c := setQp 0 { AhnQp.idle with resetting := true } (qpUp 3)
     (getQp 0 c).resetting = true ∧ (getQp 0 c).recs = [] ∧ (getQp 0 (qpUp 3)).resetting = false) ∧
    (let c := { qpUp 0 with qps := (List.range 64).map fun n => (n, { AhnQp.idle with resetting := true }) }
     ¬ (c.qps.filter fun e => e.2.resetting).length < 64) ∧
    (let r : AhnRec := ⟨none, 0, List.replicate 28 255⟩
     let c := setQp 0 { AhnQp.idle with recs := [r] } (qpUp 2)
     (getQp 0 c).recs = [r] ∧ rd Reg.AHN_QP_TABLE c + 0x80000 ≤ 2 ^ 64 ∧ qpOwner 0 c = 0x8000 ∧ r.gen = qpGenField 0 c ∧ r.body.length = 28 ∧ (∀ x ∈ r.body, x < 256) ∧
     (qpF 0 0x4C 14 0 c + 2 ^ 15 - (getQp 0 c).cqHead) % 2 ^ 15 < 2 ^ qpF 0 0x10 3 0 c - 1) ∧
    (let c := ahnUp
     pageState 0x40 c ≠ 6 ∧ guardOk (.host 0) 0x40 c = true ∧ ownerCode (.host 0) c = regionF 0 0x10 63 48 c ∧ regionOk 0 c = true ∧ regionF 0 0x10 36 36 c = 0 ∧
     regionOk 0 (put spDev 0x4000100008 (leBytes 8 0) c) = false) ∧
    (let w : AhnWork := { slot := 0, wid := 1, opcode := 3, gen := 0, tag := 0, loc := ⟨0, 0, 0, 0, 0x8000⟩, len := 8, msg := 3, status := none }
     let c := setQp 0 { AhnQp.idle with works := [w] } (qpUp 2)
     (c.qps.find? (fun e => e.2.works.any fun w => w.msg == 3 && w.status.isNone && isRequest w.opcode)).isSome = true ∧ txMsgOf 3 c = none ∧
     txMsgOf 3 { c with txMsgs := [txMsg] } = some txMsg) ∧
    (let k := { packet with opcode := 9, dstQp := 0, msgLen := 8, payload := List.replicate 8 0 }
     let c := qpUp 2
     k.opcode = 9 ∧ working 0x40 c = true ∧ k.frag = false ∧ k.flaw = false ∧ 1 ≤ k.version ∧ k.version ≤ 3 ∧ k.dstDev = rd Reg.AHN_DEVICE_ID c ∧ k.prot = false ∧
     k.pad = 0 ∧ shapeOk k k.payload.length = true ∧ c.recent.elem (k.srcDev, k.msgId) = false ∧ reasmOf k.srcDev k.msgId c = none ∧ namesWork k c = false ∧
     namesWork k (setQp 0 { AhnQp.idle with works := [{ slot := 0, wid := 1, opcode := 3, gen := 0, tag := 0, loc := ⟨0, 0, 0, 0, 0x8000⟩, len := 8, msg := 0x100, status := none }] } c)
       = true) := by decide

/-! ### Collectives -/

/-- COL works; queue 15 of host port 0 has one descriptor; group 1, of queue 15 and host port 0, has device 0 alone, with one source. -/
def col (gen : Nat) (desc : List Nat) : Chip :=
  put (spHost 0) 0 desc (put spDev (groupBase 1 base) (leBytes 4 (1 + 2 ^ 20 + 15 * 2 ^ 24) ++ leBytes 4 0 ++ leBytes 8 0x4000200000 ++ leBytes 4 1 ++ leBytes 4 0x8000 ++
    List.replicate 12 0 ++ leBytes 4 1) base)
where
  base : Chip := on [(Hdr.STATE 0x61, 2), (Hdr.EN 0x61, 1), (Reg.COL_GROUP_TABLE, 0x4000300000), (Reg.COL_OWNER 15, 0x8000), (Reg.COL_LOG2_N 15, 4), (Reg.COL_Q_EN 15, 1),
    (Reg.COL_TAIL 15, 1), (Reg.COL_GEN 15, gen), (Reg.MEM_ACTIVITY 0 0, 7)]

/-- A descriptor of operation `op` for group 1. -/
def colDescriptor (op : Nat) : List Nat := leBytes 4 (op + 2 ^ 20) ++ List.replicate 124 0

def colRun (st : Option Nat) : ColRun :=
  { queue := 15, group := 1, seq := 0, desc := colDescriptor 5, segs := [], sent := [], satAny := false, special := false, status := st, failRank := 0 }

/-- A segment of 8 bytes of group `g`. -/
def colSeg (g : Nat) : Segment :=
  { dev := 0, seq := 0, group := g, phase := 1, step := 0, rank := 0, check := paramCheck (colDescriptor 5) 1, start := 0, sat := false, byStop := false, payload := List.replicate 8 0 }

set_option maxRecDepth 100000 in
theorem witness_Collectives :
    (let c := col 0 (colDescriptor 0)
     pageState 0x61 c ≠ 6 ∧ guardOk (.host 0) 0x61 c = true ∧ rd (Reg.COL_OWNER 15) c = ownerCode (.host 0) c ∧ rd (Reg.COL_OWNER 15) c ≠ ownerCode (.host 1) c) ∧
    (∀ op ∈ [0, 1, 2, 3, 4, 5],
      let c := col 0 (colDescriptor op)
      let d := ldBytes (colSpace 15 c) 0 128 c
      working 0x61 c = true ∧ rd (Reg.COL_Q_EN 15) c = 1 ∧ runOf 15 c = none ∧ rd (Reg.COL_HEAD 15) c ≠ rd (Reg.COL_TAIL 15) c ∧ rd Reg.COL_STOPPED c = 0 ∧ c.colBoundary = false ∧
      ownerIssues 0 (rd (Reg.COL_OWNER 15) c) c = true ∧ colOp d = op ∧ colF d 4 15 0 = rd (Reg.COL_GEN 15) c ∧ colF d 0 31 20 = 1 ∧ groupValid 1 c = true ∧ groupQueue 1 c = 15 ∧
      colBad d (groupP 1 c) = decide (op ≠ 5)) ∧
    (colF (colDescriptor 0) 4 15 0 ≠ rd (Reg.COL_GEN 15) (col 1 (colDescriptor 0)) ∧ groupValid 0 (col 0 []) = false ∧ rd Reg.COL_STOPPED (on [(Reg.COL_STOPPED, 1)]) = 1) ∧
    (let c := { col 0 (colDescriptor 5) with colRuns := [colRun none] }
     runOf 15 c = some (colRun none) ∧ runOf 15 { c with colRuns := [colRun (some 0)] } = some (colRun (some 0)) ∧ (colRun (some 0)).status ≠ none ∧ (colRun none).status = none ∧
     c.colRuns.find? (fun x => x.group == 1 && x.seq == 0 && x.status.isNone) = some (colRun none) ∧ c.colRuns.find? (fun x => x.group == 1 && x.seq == 1 && x.status.isNone) = none ∧
     stagingFull 8 c = false ∧ stagingFull (2 ^ 40) c = true ∧ groupValid 0 c = false ∧
     groupValid 1 c = true ∧ (colSeg 1).rank < groupP 1 c ∧ rankDev 1 0 c = (colSeg 1).dev ∧ (colSeg 1).phase ≠ 0xF ∧ (colSeg 1).check = paramCheck (colRun none).desc (groupContrib 1 c) ∧
     (col 0 []).colRuns = [] ∧ groupSeq 1 c = (colSeg 1).seq) := by decide

set_option maxRecDepth 100000 in
theorem witness_CollectiveControl :
    (let c := col 0 (colDescriptor 5)
     pageState 0x61 c ≠ 6 ∧ guardOk (.host 0) 0x61 c = true ∧ groupOwner 1 c = ownerCode (.host 0) c ∧ groupOk 1 c = true ∧ (∀ r ∈ c.colRuns, r.group ≠ 1) ∧
     (∃ r ∈ ({ c with colRuns := [colRun none] }).colRuns, r.group = 1) ∧ groupOk 1 (wr (Reg.MEM_ACTIVITY 0 0) 0 c) = false ∧
     groupOwner 1 c ≠ ownerCode (.host 1) c ∧ isControl (.host 1) c = false ∧ guardOk (.host 1) 0x61 c = true ∧ rd Reg.COL_STOPPED c = 0 ∧ rd Reg.COL_STOPPED (wr Reg.COL_STOPPED 1 c) = 1) ∧
    (let c := put spDev 0x4000000018 (leBytes 2 0x9007) (wr (Hdr.STATE 0x61) 2 (wr (Hdr.EN 0x61) 1 (qpUp 3)))
     qpState (rd Reg.COL_COL_QP c) c = 3 ∧ qpOwner (rd Reg.COL_COL_QP c) c = 0x9007 ∧ working 0x61 c = true ∧ qpState (rd Reg.COL_COL_QP (qpUp 2)) (qpUp 2) ≠ 3) := by decide

/-! ### Herd -/

/-- Herd works: model 0 has a valid policy of batches of 4 owned by host port 0, dropping late requests, streaming, with pool 2 for PRE, POST and DRAFT calls where
`pools`; intake queue 0 of host port 0 is ACTIVE. -/
def herd (pools : Bool) : Chip :=
  setInk 0 { IntakeQ.idle with state := 1, tail := 1 }
    (put spDev 0x4002000000 (leBytes 8 0 ++ leBytes 8 0x10004 ++ leBytes 8 0x20004 ++ leBytes 8 0x8000 ++ leBytes 8 0)
      (put spDev 0x4000000000 (leBytes 8 (2 ^ 31 + 2 ^ 25 + 2 ^ 24 + 4) ++ leBytes 8 0 ++ leBytes 8 (if pools then 0x222222 else 0) ++ leBytes 8 0x8000) base))
where
  base : Chip := on [(Hdr.STATE 0x70, 2), (Hdr.EN 0x70, 1), (Reg.HRD_POLICY_TABLE, 0x4000000000), (Reg.HRD_CTX_TABLE, 0x4001000000), (Reg.HRD_INTAKE_TABLE, 0x4002000000),
    (Reg.HRD_CRING_AREA, 0x4003000000), (Reg.HRD_CRING_LOG2 7, 8), (Reg.HRD_TRING_LOG2 7, 4), (Reg.HRD_MAX_RUNNING 7, 1), (Reg.CHN_KIND 2, 2), (Reg.MEM_ACTIVITY 0 0, 3)]

/-- An idle sequence of model 0 and host port 0. -/
def kvSeq : KvSeq :=
  { ix := 1, inc := 1, state := 1, eph := false, model := 0, owner := 0x8000, tokens := 0, reserved := 0, acc := 0, root := 0, depth := 1, tpp := 6, cls := 0, base := 0, prompt := 0,
    lastUse := 0, freeing := false, tabs := [] }

/-- A request record of kind `k` with the sequence's handle, one prompt token and one token to come. -/
def reqRecord (k : Nat) : List Nat :=
  leBytes 4 k ++ leBytes 4 9 ++ leBytes 4 (2 ^ 20 + 1) ++ leBytes 4 1 ++ leBytes 4 1 ++ List.replicate 44 0

def reqNext (k : Nat) : NextRec := ⟨reqRecord k, false, 0, none⟩

/-- Context 0 is a live request of model 0 and intake queue 0 in state `st` on accelerator 7, tag 9, incarnation 1, with deadline 1; it waits for the call `call`. -/
def herdCtx (st : Nat) (call : Option Nat) (pools : Bool) : Chip :=
  setReq 0 { HerdReq.idle with call := call, staged := [7] }
    (put spDev 0x4001000000 (leBytes 4 (st + 7 * 2 ^ 28) ++ leBytes 4 1 ++ leBytes 4 0 ++ leBytes 4 9 ++ leBytes 8 0 ++ leBytes 8 1)
      (setQueue 0 [0] { herd pools with herdLive := [0], herdSb := [0] }))

set_option maxRecDepth 100000 in
theorem witness_HerdRequests :
    (let c := { put (spHost 0) 0x10000 (reqRecord 0) (herd false) with kvSeqs := [kvSeq] }
     let r := reqParse (reqRecord 0)
     herdUp c = true ∧ nextRecord (.intake 0) c = some (reqNext 0) ∧ (reqNext 0).bytes ≠ [] ∧ r.kind ≠ 1 ∧ pageState 0x70 c ≠ 5 ∧ reqOk r (reqNext 0) (.intake 0) c = true ∧
     reqOk { r with prompt := 0 } (reqNext 0) (.intake 0) c = false ∧ freeContext c = some 0 ∧ c.herdSb.length < 65536 ∧ r.seq ≠ 0 ∧ seqNamed r.seq c = some kvSeq ∧
     kvSeq.owner = originOwner (originAhnam (.intake 0)) (originNo (.intake 0)) c ∧ kvSeq.tokens + r.prompt + r.maxNew ≤ 4194304 ∧ polPool 0 0 c = none ∧
     rd Reg.HRD_CTX_TABLE c + 128 * 0 + 128 ≤ 2 ^ 64) ∧
    (pageState 0x70 (wr (Hdr.STATE 0x70) 5 (herd false)) = 5 ∧ herdUp (wr (Hdr.STATE 0x70) 5 (herd false)) = true) ∧
    (let c := put (spHost 0) 0x10000 (reqRecord 1) (herd false)
     nextRecord (.intake 0) c = some (reqNext 1) ∧ (reqParse (reqRecord 1)).kind = 1 ∧ (reqParse (reqRecord 1)).flaw = false ∧ cancelTarget (.intake 0) 9 c = none ∧
     cancelTarget (.intake 0) 9 (put (spHost 0) 0x10000 (reqRecord 1) (herdCtx 2 none false)) = some 0) ∧
    (nextRecord (.ahnam 0) (herd false) = none ∧ reqCtx 0 (herd false) = none) ∧
    (∀ k ∈ [0, 1, 2], reqCtx (2 ^ 20) (herdCtx 1 (some k) true) = some 0 ∧ (getReq 0 (herdCtx 1 (some k) true)).call = some k ∧ polPool 0 k (herdCtx 1 (some k) true) = some 2) ∧
    (let c := herdCtx 2 none false
     0 ∈ c.herdLive ∧ 0 ∈ c.herdSb ∧ ctxDeadline 0 c ≠ 0 ∧ ctxState 0 c = 2 ∧ polDropLate 0 c = true ∧ 0 ∈ modelQueue (ctxModel 0 c) c ∧ (getReq 0 c).staged ≠ [] ∧ polStream 0 c = true) ∧
    (let c := { herdCtx 2 none false with herdSb := [] }
     0 ∈ c.herdLive ∧ 0 ∉ c.herdSb ∧ (∀ e ∈ c.herdWait, e.1 ≠ 0) ∧ anyPoison spDev (ctxBase 0 c) 128 c = false ∧
     anyPoison spDev (ctxBase 0 c) 128 (poisonRange spDev 0x4001000000 64 c) = true) := by decide

/-- The first record of accelerator 7's completion ring: kind `k` for handle `req`. -/
def accRecord (k req : Nat) : List Nat := leBytes 4 req ++ leBytes 4 k ++ List.replicate 48 0 ++ leBytes 8 (2 ^ 32)

set_option maxRecDepth 100000 in
theorem witness_HerdAccelerators :
    (∀ k ∈ [0, 1, 2, 3, 4, 5],
      let c := put spDev 0x4004C00000 (accRecord k (2 ^ 20)) (wr (Reg.HRD_ABI_AGREED 7) 2 (wr (Reg.HRD_ACC_STATE 7) 1 (herdCtx 4 none true)))
      let r := accRec (ldBytes spDev (accSlot 7 0 c) 64 c)
      herdUp c = true ∧ accState 7 c ≠ 0 ∧ accState 7 c ≠ 4 ∧ r.ring = 0 ∧ r.phase = 1 - 0 / 2 ^ rd (Reg.HRD_CRING_LOG2 7) c % 2 ∧ anyPoison spDev (accSlot 7 0 c) 64 c = false ∧
      r.count ≤ 8 ∧ r.kind = k ∧ reqCtx r.req c = some 0 ∧ reqCtx (r.req + 2 ^ 20) c = none ∧ ctxOn 0 7 c = true ∧ 0 ∈ c.herdSb ∧ recCounts 0 7 k c = true ∧
      polPool 0 2 c = some 2 ∧ rd (Reg.HRD_ABI_AGREED 7) c = 2) ∧
    (let c := put spDev 0x4000000010 (leBytes 4 0x30000) (herdCtx 4 none true)
     recCounts 0 7 0 (putF spDev 0x4000000000 23 16 0x81 c) = false) ∧
    (let c := herd false
     pageState 0x70 c ≠ 6 ∧ guardOk (.host 0) 0x70 c = true ∧ accState 7 c = 0 ∧ accEnableCode 7 c ≠ 0 ∧ c.herdQueue = [] ∧ c.herdBatches = [] ∧ (∀ b : Fin 8, accState b c ≠ 2) ∧
     openTickets 7 c = [] ∧ openTickets 7 { c with herdTix := [(7, [⟨0, 4, 0, [], [], 0, 0⟩])] } ≠ [] ∧
     accState 7 (wr (Reg.HRD_ACC_STATE 7) 4 c) = 4 ∧ accState 7 (wr (Reg.HRD_ACC_STATE 7) 1 c) = 1 ∧ accState 7 (wr (Reg.HRD_ACC_STATE 7) 2 c) = 2 ∧
     ownerCode (.host 0) c = polOwner 0 c ∧ policyOk 0 c = true ∧ ownerCode (.host 0) c ≠ polOwner 1 c ∧ isControl (.host 0) c = false ∧ c.herdLive = [] ∧
     ownerCode (.host 0) c = inkOwner 0 c ∧ (getInk 0 c).state = 1 ∧ (getInk 0 c).recs = [] ∧ intakeOk 0 c = true ∧ (getInk 0 { c with intake := [] }).state = 0 ∧
     ownerCode (.host 1) c ≠ inkOwner 0 c ∧ isControl (.host 1) c = false) ∧
    (let c := putF spDev 0x4000000000 10 0 0 (herd false)
     policyOk 0 c = false) := by decide

set_option maxRecDepth 100000 in
/-- The enable of accelerator 7 passes its checks: its window 0 covers its completion ring. -/
theorem witness_HerdAccelerators_enable :
    (let c := on [(Hdr.STATE 0x70, 2), (Hdr.EN 0x70, 1), (Hdr.STATE 0x17, 2), (Hdr.EN 0x17, 1), (Reg.HRD_ABI_MAX 7, 2), (Reg.HRD_ABI_MIN 7, 2), (Reg.HRD_TRING_LOG2 7, 4), (Reg.HRD_CRING_LOG2 7, 8),
       (Reg.HRD_MAX_RUNNING 7, 1), (Reg.HRD_CRING_AREA, 0x4003000000), (Reg.SPR_IW_BASE 7 0, 0x10000), (Reg.SPR_IW_SIZE 7 0, 0x400000), (Reg.SPR_IW_TARGET 7 0, 0x4004C00000),
       (Reg.SPR_IW_READ 7 0, 1), (Reg.SPR_IW_WRITE 7 0, 1)]
     accState 7 c = 0 ∧ accEnableCode 7 c = 0 ∧ c.herdQueue = [] ∧ c.herdBatches = [] ∧ (∀ b : Fin 8, accState b c ≠ 2) ∧ pageState 0x70 c ≠ 6 ∧ guardOk (.host 0) 0x70 c = true) := by decide

/-! ### The Vat, the KV pager, Layby, Waymark -/

/-- The Vat works; image 4095 of host port 0 has one segment of 64 bytes. -/
def vat : Chip :=
  put spDev 0x4000080000 (leBytes 8 0x4000090000 ++ leBytes 8 64) (put spDev (0x4000000000 + 64 * 4095) (leBytes 8 (1 + 0x8000 * 2 ^ 48) ++ leBytes 8 0x4000080000)
    (on [(Hdr.STATE 0x71, 2), (Hdr.EN 0x71, 1), (Reg.VAT_IMAGE_TABLE, 0x4000000000), (Reg.VAT_AREA_SIZE, 64), (Reg.MEM_ACTIVITY 0 0, 1), (Hdr.STATE 0x80, 2),
      (Hdr.EN 0x80, 1), (Reg.PAL_VALID 0, 1), (Reg.PAL_OWNER 0, 0x9001)]))

theorem witness_VatImages_conflicts (i a : Nat) (c : Chip) (h : c.mem = []) : conflicting i a c = [] := by
  have z : ∀ sp x, ldBytes sp x 8 c = List.replicate 8 0 := fun sp x => by
    simp only [ldBytes, h]; rfl
  have r : ∀ j, imgResident j c = 0 := fun j => by
    simp only [imgResident, imgF, ldF, ld, z]; decide
  simp [conflicting, r]

set_option maxRecDepth 100000 in
theorem witness_VatImages :
    (let c := vat
     pageState 0x71 c ≠ 6 ∧ guardOk (.host 0) 0x71 c = true ∧ c.vatFill = none ∧ ownerCode (.host 0) c = imgOwner 4095 c ∧ imageOk 4095 c = true ∧
     imageOk 4095 (wr Reg.VAT_AREA_SIZE 63 c) = false ∧ imgInUse 4095 c = false ∧ imgInUse 4095 (imgPut 4095 0x20 7 7 1 c) = true ∧ imgValid 4095 c = false ∧ working 0x71 c = true ∧
     ({ c with vatFill := some 0 }).vatFill ≠ none ∧ ownerCode (.host 1) c ≠ imgOwner 4095 c ∧ isControl (.host 1) c = false ∧ guardOk (.host 1) 0x71 c = true) ∧
    (let c := { vat with vatFill := some 0 }
     arrayServes c = true ∧ volServes (rd Reg.VAT_FILL_VOLUME c) vatCode c = true ∧ (fillSegs 0 (imgSegList 0 c) (rd Reg.VAT_FILL_OFFSET c) c).1 = true) ∧
    (let r : VatRel := ⟨4095, 7, none, true⟩
     let c := { vat with vatRels := [r] }
     c.vatRels.find? (fun x => x.image == 4095 && x.acc == 7 && x.ticket.isNone) = some r ∧ imgRuns 4095 7 c = false ∧ imgHeld 4095 c = false ∧ c.vatReady = [] ∧
     imgHeld 0 { herdCtx 3 none false with herdHeld := [(0, [0])] } = true) ∧
    (let l : VatLoad := ⟨4095, 0, 128, 1, none, false⟩
     let c := { vat with vatLoads := [l] }
     c.vatLoads.find? (fun x => x.image == 4095 && x.stage == 1) = some l ∧ bitList 8 l.targets = [7] ∧
     conflicting 4095 7 (imgPut 1 0x38 47 0 9 (imgPut 1 0x20 7 7 1 (imgPut 4095 0x38 47 0 9 c))) ≠ [] ∧
     ({ vat with vatLoads := [{ l with stage := 2 }] }).vatLoads.find? (fun x => x.image == 4095 && x.stage == 2) = some { l with stage := 2 } ∧
     (loadSegs { l with stage := 2 } (imgSegList 4095 c) c).1 = false ∧ (loadSegs { l with stage := 2 } (imgSegList 4095 c) (poisonRange spDev 0x4000090000 64 c)).1 = true ∧
     vat.vatLoads = []) := by decide

/-- The pager works with table space, room for 64 pages of 64 KiB in the Cellar and one in HBM, on which half must stay free; one page of the idle sequence 1 lies in HBM. -/
def kvp : Chip :=
  { on [(Hdr.STATE 0x72, 2), (Hdr.EN 0x72, 1), (Reg.KVP_PT_AREA, 0x4000000000), (Reg.KVP_PT_LOG2, 20), (Reg.KVP_SEQ_TABLE, 0x4000400000), (Reg.KVP_FREE_MIN, 32),
      (Reg.KVP_HBM_AREA, 0x4000800000), (Reg.KVP_HBM_SIZE, 0x10000), (Reg.KVP_CELLAR_AREA, 0xA0000000000), (Reg.KVP_CELLAR_SIZE, 0x400000), (Reg.KVP_SEQ_HANDLE, 2 ^ 20 + 1)] with
    kvSeqs := [kvSeq]
    kvPages := [kvPage none] }
where
  kvPage (m : Option (Nat × Nat × Nat)) : KvPage := ⟨1, 1, 0, 1, 0, 0, 0x4000800000, false, m, none⟩

set_option maxRecDepth 100000 in
theorem witness_KvPager :
    (let c := kvp
     pageState 0x72 c ≠ 6 ∧ guardOk (.host 0) 0x72 c = true ∧ isHost (.host 0) = true ∧ isHost .steward = false ∧ guardOk .steward 0x72 c = true ∧ working 0x72 c = true ∧
     (seqCreate 4095 (rd Reg.KVP_SEQ_OWNER c) false (fun _ => 3) c).isSome = true ∧ (seqCreate 4095 0 false (fun _ => 3) (wr Reg.KVP_PT_LOG2 0 c)).isSome = false ∧
     working 0x72 (wr (Hdr.STATE 0x72) 4 c) = false ∧ seqNamed (rd Reg.KVP_SEQ_HANDLE c) c = some kvSeq ∧ kvSeq.eph = false ∧ kvSeq.state ≠ 2 ∧ kvSeq.reserved = 0 ∧
     seqMoving 1 c = false ∧ seqNamed 1 c = none ∧ ({ kvSeq with state := 2 } : KvSeq).state = 2) ∧
    (let m := (2, 0, 0xA0000000000)
     let c := { kvp with kvPages := [kvp.kvPage (some m)] }
     pageOf 1 c = some (kvp.kvPage (some m)) ∧ pageOf 2 c = none ∧ (pageData (kvp.kvPage (some m)) m (wr (Reg.MEM_ACTIVITY 0 0) 2 c)).1 = .ok) ∧
    (rd Reg.KVP_HBM_SIZE kvp * rd Reg.KVP_FREE_MIN kvp ≤ 64 * tierFree 1 0 { kvp with kvPages := [] } ∧
     64 * tierFree 1 0 kvp < (tierSpace 1 0 kvp).2 * rd Reg.KVP_FREE_MIN kvp ∧ Tier.hbm ≠ .cellar ∧
     oldestIdle (fun s => s.state == 1 && !s.freeing && !((seqPages s.ix kvp).filter fun p => inTier p.tier p.acc 1 0 && p.move.isNone).isEmpty && !(1 == 2 && s.eph)) kvp.kvSeqs
       = some kvSeq) := by decide

/-- A Layby job of members 0 and 1 in state `st`, its own rank 1, the leader's 0; the manifest has one well-formed entry of one BF16 element. -/
def lby (st : Nat) : Chip :=
  put spDev 0x4000010000 (leBytes 8 (1 + 2 * 2 ^ 8 + 2 ^ 12) ++ leBytes 8 0 ++ leBytes 8 7 ++ List.replicate 32 0 ++ leBytes 6 1 ++ List.replicate 42 0 ++ leBytes 6 0 ++
      List.replicate 42 0 ++ leBytes 6 1)
    (on [(Hdr.STATE 0x78, 2), (Hdr.EN 0x78, 1), (Reg.LBY_JOB_STATE, st), (Reg.LBY_MEMBERS, 2), (Reg.LBY_MY_RANK, 1), (Reg.LBY_MEMBER_TABLE, 0x4000000000),
      (Reg.LBY_MANIFEST, 0x4000010000), (Reg.LBY_MANIFEST_COUNT, 1), (Reg.LBY_NEAR_AREA, 0x4000020000), (Reg.LBY_NEAR_SLOT, 0x10000), (Reg.LBY_ACC_MASK, 128),
      (Reg.LBY_MARK_AREA, 0x4000060000)])

def lbyMsg (rank a0 a1 : Nat) : LbyMsg := ⟨0, rank, 0, a0, a1, 0, 0, 0, 0⟩

theorem witness_LaybyJobs :
    (pageState 0x78 (lby 0) ≠ 6 ∧ guardOk (.host 0) 0x78 (lby 0) = true ∧ working 0x78 (lby 0) = true ∧ working 0x78 Chip.reset = false ∧
     rd Reg.LBY_JOB_STATE (lby 0) = 0 ∧ rd Reg.LBY_JOB_STATE (lby 1) = 1 ∧ rd Reg.LBY_JOB_STATE (lby 2) = 2 ∧ rd Reg.LBY_JOB_STATE (lby 3) = 3 ∧ rd Reg.LBY_JOB_STATE (lby 4) = 4 ∧
     rd Reg.LBY_JOB_STATE (lby 5) = 5 ∧ rd Reg.LBY_JOB_STATE (lby 6) = 6) ∧
    (lbyJobOk (lby 0) = true ∧ lbyJobOk (wr Reg.LBY_MEMBERS 1 (lby 5)) = false ∧ (lbyRanks (lby 0)).head? = some 0 ∧ 0 % 2 ^ 16 ≠ rd Reg.LBY_MY_RANK (lby 0)) ∧
    (let c := lby 1
     let n := wakeHosts 0 (nodeRecord 3 (wr Reg.LBY_RECLAIM_DEADLINE 9 c))
     c.lby.own = false ∧ rd Reg.LBY_LEADER n ≠ rd Reg.LBY_MY_RANK n ∧ rd Reg.LBY_LEADER (wr Reg.LBY_LEADER 1 c) = rd Reg.LBY_MY_RANK c ∧ lbyHeeds (lbyMsg 0 0 0) c = true ∧
     lbyHeeds (lbyMsg 0 0 0) (wr Reg.LBY_JOB_ID 1 c) = false ∧ rdb Reg.LBY_CMD_BUSY c = false ∧ rdb Reg.LBY_CMD_BUSY (wr Reg.LBY_CMD_BUSY 1 c) = true ∧
     (lbyMsg 0 0 1).a1 < rd Reg.LBY_MEMBERS c ∧ rd Reg.LBY_MEMBERS c ≤ (lbyMsg 0 0 2).a1 ∧ c.lby.goHeld = false ∧ c.lby.steps = none ∧
     (lbyMsg 0 0 0).a0 < rd Reg.LBY_MEMBERS c ∧ (lbyMsg 0 0 0).a0 ≠ rd Reg.LBY_MY_RANK c ∧ rd Reg.LBY_MEMBER_TABLE c + 8 * 0 + 8 ≤ 2 ^ 64) ∧
    (let c := { lby 2 with lby := { LbySt.idle with steps := some [(1, 4)] } }
     c.lby.steps = some [(1, 4)] ∧ c.lby.last = none ∧
     (lbyRanks c).all (fun r => [(0, 5), (1, 4)].any fun x => x.1 == r) = true ∧ (lbyRanks c).all (fun r => [(1, 4)].any fun x => x.1 == r) = false) ∧
    ((lby 4).lby.shifted = false ∧ (lby 4).lby.left = false ∧ ({ LbySt.idle with left := true } : LbySt).left = true ∧ rd Reg.LBY_LEADER (lby 4) ≠ rd Reg.LBY_MY_RANK (lby 4)) := by decide

def lbyRun (stage due : Nat) : LbyRun := ⟨1, 4, false, stage, false, due⟩

def lbyAt (stage due : Nat) : Chip := { lby 1 with lby := { LbySt.idle with run := some (lbyRun stage due), acted := some 3 } }

set_option maxRecDepth 100000 in
theorem witness_LaybyEpochs :
    (∀ st ∈ [1, 2, 3], let c := lbyAt st 0
      lbyHeeds (lbyMsg 0 1 7) c = true ∧ c.lby.run = some (lbyRun st 0) ∧ (lbyRun st 0).epoch = (lbyMsg 0 1 7).a0 ∧ rd Reg.LBY_LEADER c ≠ rd Reg.LBY_MY_RANK c ∧
      c.lby.query = none ∧ c.lby.wait = none ∧ rd Reg.LBY_COMMITTED c < (lbyMsg 0 1 7).a0 ∧ rd Reg.LBY_DUR_KIND c = 0 ∧ (lbyNamed (lbyMsg 0 1 7) c).isSome = true) ∧
    (let c := lbyAt 3 0
     let x := ((lbyNamed (lbyMsg 0 1 7) c).getD (0, []))
     let h := nearHeader 1 x.1 c
     hdrF h 0x28 63 0 = (lbyMsg 0 1 7).a3 ∧ hdrF h 0x30 63 0 = (lbyMsg 0 1 7).a4 ∧ (lbyRun 3 0).held = false ∧ (lbyRun 3 0).final = false ∧ (lbyRun 2 1).due ≠ 0 ∧
     (lbyMsg 0 0 0).a0 ≤ rd Reg.LBY_COMMITTED c ∧ c.lby.next = (lbyMsg 0 1 0).a0 ∧ c.lby.next ≠ (lbyMsg 0 2 0).a0 ∧
     (lbyRanks c).all (fun q => (setAdd c.lby.ready 0).elem q) = false ∧ (lbyRanks c).all (fun q => (setAdd [0] 1).elem q) = true) ∧
    ((lby 1).lby.run = none ∧ rd Reg.LBY_DUR_KIND (wr Reg.LBY_DUR_KIND 1 (lby 1)) = 1 ∧ rd Reg.LBY_DUR_DEV (lby 1) = 0 ∧ (lby 1).lby.drains.head? ≠ some 1 ∧ rd Reg.LBY_DUR_KIND (lby 1) ≠ 1) ∧
    (let c := lbyAt 1 0
     working 0x78 c = true ∧ rd Reg.LBY_JOB_STATE c = 1 ∧ 6 ∉ lbyAccs c ∧ lbyAccs c = [7] ∧ c.lby.acted = some 3 ∧ 3 < 2 ^ 40 - 1 ∧ c.lby.last = none ∧ rd Reg.LBY_MARK_AREA c + 512 ≤ 2 ^ 64) ∧
    (let n : Chip := { lbyAt 3 0 with lby := { (lbyAt 3 0).lby with failed := setAdd [] (rd Reg.LBY_LEADER (lbyAt 3 0)) } }
     lbyLeaderOf n % 2 ^ 16 = rd Reg.LBY_MY_RANK n ∧ lbyLeaderOf n % 2 ^ 16 ≠ rd Reg.LBY_MY_RANK (wr Reg.LBY_MY_RANK 0 n) ∧
     rd Reg.LBY_LEADER (wr Reg.LBY_LEADER 1 n) = rd Reg.LBY_MY_RANK n) ∧
    (let c := wr Reg.LBY_DUR_KIND 1 (wr Reg.LBY_LEADER 1 { lby 1 with lby := { LbySt.idle with drains := [1] } })
     c.lby.drains = [1] ∧ working 0x78 c = true ∧ rd Reg.LBY_LEADER c = rd Reg.LBY_MY_RANK c ∧ rd Reg.LBY_DUR_KIND c = 1 ∧ c.lby.wait = none ∧ rd Reg.LBY_JOB_STATE c ≠ 4) := by decide

theorem witness_WaymarkContexts :
    (let c := on [(Hdr.STATE 0x79, 2)]
     pageState 0x79 c ≠ 6 ∧ guardOk (.host 0) 0x79 c = true ∧ bankOf (.host 0) c = some 1 ∧ rdB 1 Reg.WMK_CTX_SEL c < 0xFF00 ∧
     0xFF00 ≤ rdB 1 Reg.WMK_CTX_SEL (wrB 1 Reg.WMK_CTX_SEL 0xFF00 c) ∧ (wmkGet 0 c).owner = 0xFFFF ∧ (wmkGet 0 c).owner ≠ ownerCode (.host 0) c ∧
     (let d := { c with wmk := [(0, { WmkCtx.free with owner := 0x8000 })] }
      (wmkGet 0 d).owner = ownerCode (.host 0) d ∧ (wmkGet 0 d).owner ≠ 0xFFFF) ∧
     bankOf (.wayside 0) c = none ∧ guardOk (.wayside 0) 0x79 c = true) := by decide

/-! ### Toll and the Separator -/

/-- TOL works, and port 12 is up; its queue 5 transmits with weight 1; ring 8191 of host port 0 is ACTIVE where `act`. -/
def toll (act : Nat) : Chip :=
  put spDev (0x4000000000 + 64 * 8191) (leBytes 8 0x10004 ++ leBytes 8 (0x8000 * 2 ^ 16) ++ leBytes 8 0 ++ leBytes 8 12 ++ leBytes 8 act)
    (tolSet 12 5 { TolQ.off with role := 1, weight := 1 }
      (on [(Hdr.STATE 0x30, 2), (Hdr.EN 0x30, 1), (Hdr.STATE 0x23, 2), (Hdr.EN 0x23, 1), (Reg.ETH_PORT_EN 3 0, 1), (Reg.ETH_LINK_UP 3 0, 1), (Reg.ETH_MAX_FRAME 3 0, 9600),
        (Reg.ETH_MODE 3, 0), (Reg.TOL_TXQ_TABLE, 0x4000000000), (Reg.TOL_QUANTUM, 1600), (Reg.TOL_NONSTALL_WEIGHT, 1), (Reg.TOL_CLASS_MAP 12, 5)]))

set_option maxRecDepth 100000 in
theorem witness_TollConfiguration :
    (ownerCode (.host 0) (toll 1) = txOwner 8191 (toll 1) ∧ txActive 8191 (toll 1) = true ∧ pageState 0x30 (toll 1) ≠ 6 ∧ txActive 8191 (toll 0) = false ∧
     guardOk (.host 0) 0x30 (toll 1) = true ∧ tolMay (.wayside 0) (toll 1) = false ∧ guardOk (.wayside 0) 0x30 (toll 1) = true ∧ tolMay (.host 0) (toll 1) = true ∧
     bankOf (.host 0) (toll 1) = some 1 ∧ ownerCode (.host 1) (toll 1) ≠ txOwner 8191 (toll 1) ∧ isControl (.host 1) (toll 1) = false ∧ tolMay (.host 1) (toll 1) = true ∧
     rd Reg.TOL_TXQ_TABLE (toll 1) + 64 * 8191 + 64 ≤ 2 ^ 64 ∧ txContextOk 8191 (toll 0) = true ∧ txContextOk 8190 (toll 0) = false) ∧
    (let g := fun (f : Fld) (c : Chip) => rdB 1 f c
     let c := toll 0
     (g Reg.TOL_METER_EN c ≠ 1 ∧ g Reg.TOL_WEIGHT (wrB 1 Reg.TOL_WEIGHT 1 c) ≠ 0 ∧ g Reg.TOL_Q_INDEX (wrB 1 Reg.TOL_Q_INDEX 4 c) = 4 ∧ g Reg.TOL_Q_INDEX c < 4 ∧
      g Reg.TOL_ROLE (wrB 1 Reg.TOL_ROLE 3 c) = 3) ∧
     (let d := wrB 1 Reg.TOL_METER_EN 1 (wrB 1 Reg.TOL_CIR 1 c)
      g Reg.TOL_METER_EN d = 1 ∧ g Reg.TOL_PIR d < g Reg.TOL_CIR d) ∧
     g Reg.TOL_SHP_EN (wrB 1 Reg.TOL_SHP_EN 1 c) = 1 ∧ g Reg.TOL_SHP_BURST (wrB 1 Reg.TOL_SHP_BURST 9599 c) < 9600 ∧ 9600 ≤ g Reg.TOL_SHP_BURST (wrB 1 Reg.TOL_SHP_BURST 9600 c) ∧
     g Reg.TOL_SHP_EN c ≠ 1) := by decide

/-- A frame of 64 bytes for port 12, class 0. -/
def tolFrame (stall : Option Nat) (ring : Option TxDesc) : TxFrame := ⟨12, 0, 64, stall, ring, .frame 12 []⟩
def txDesc : TxDesc := ⟨8191, 0, 0, 1, false, 0x10000, 60⟩

set_option maxRecDepth 100000 in
theorem witness_TollFrames :
    (let c := tolQueueSet 12 5 [tolFrame none none] (toll 1)
     working 0x30 c = true ∧ ethUp 12 c = true ∧ mapGet none c.tolWire 12 = none ∧ c.txTail = [] ∧ c.txWait = [] ∧ (tolPick 12 c).1 = some 5 ∧
     tolQueue 12 5 (tolPick 12 c).2 = [tolFrame none none] ∧ ¬ ethUp 0 c = true ∧ working 0x30 Chip.reset = false ∧ (∀ n < 64, tolEligible 12 n (toll 1) = false)) ∧
    (let c := tolQueueSet 12 5 [tolFrame none (some txDesc)] (toll 1)
     (tolPick 12 c).1 = some 5 ∧ tolQueue 12 5 (tolPick 12 c).2 = [tolFrame none (some txDesc)]) ∧
    (let c := tolQueueSet 12 3 [tolFrame none none] (tolSet 12 3 { TolQ.off with role := 1 } (toll 1))
     3 < 4 ∧ tolEligible 12 3 c = true ∧ ∀ n < 3, tolEligible 12 n c = false) ∧
    (let c := { toll 1 with txWait := [tolFrame none none] }
     working 0x30 c = true ∧ c.txTail = [] ∧ classQueue 12 0 c = (5, false) ∧ (tolQueue 12 5 c).length < 256 ∧ mapGet ⟨0, true, []⟩ c.tolAdmit (tolKey 12 5) = ⟨0, true, []⟩ ∧
     64 ≤ rd Reg.TOL_NONSTALL_WEIGHT c * rd Reg.TOL_QUANTUM c ∧ 256 ≤ (tolQueue 12 5 (tolQueueSet 12 5 (List.replicate 256 (tolFrame none none)) c)).length) ∧
    (let c := shpSet 7 { Shaper.off with en := true, tok := 0 } { toll 1 with txWait := [tolFrame (some 7) none] }
     (shpGet 7 c).en = true ∧ (shpGet 7 c).tok ≤ 0) ∧
    (let c := { toll 1 with tolWire := [(12, some (tolFrame none (some txDesc), 9))] }
     mapGet none c.tolWire 12 = some (tolFrame none (some txDesc), 9) ∧ (ownRead (txOwner 8191 c) 0x10000 60 c).2 = false ∧
     (ownRead (txOwner 8191 c) 0x10000 60 (poisonRange (spHost 0) 0x10000 60 c)).2 = true) := by decide

/-- SEP works with a stall range from 8000 on; a staged rule of host port 0 in its bank matches everything and drops it. -/
def sep : Chip :=
  wrB 1 Reg.SEP_STG_OWNER 0x8000 (on [(Hdr.STATE 0x28, 2), (Hdr.EN 0x28, 1), (Reg.SEP_STALL_BASE, 8000), (Reg.SEP_TABLE_OWNER 255, 0x8000)])

set_option maxRecDepth 100000 in
theorem witness_SeparatorRules :
    (let c := sep
     let x := stagedRule 1 c
     pageState 0x28 c ≠ 6 ∧ guardOk (.host 0) 0x28 c = true ∧ bankOf (.host 0) c = some 1 ∧ bankOf (.wayside 0) c = none ∧ guardOk (.wayside 0) 0x28 c = true ∧
     (isControl (.host 0) c = false ∧ ownerCode (.host 0) c = x.owner) ∧ (ruleGet 0 0 c).valid = false ∧ isStallCode x.owner = false ∧ ruleAllowed 7999 x c = true ∧ ¬ 8000 ≤ 7999 ∧
     ruleAllowed 7999 { x with value := 1 } c = false ∧ (isStallCode 0x8001 = false ∧ ownerCode (.host 0) c ≠ 0x8001) ∧
     (ruleGet 0 5 { c with sepRules := [(5, { x with owner := 0x8001, valid := true })] }).valid = true) ∧
    (let c := { sep with sepRules := [(8192 + 5, { stagedRule 1 sep with valid := true, action := 7 })] }
     rd Reg.SEP_SWAP_BUSY c ≠ 1 ∧ rd Reg.SEP_ACTIVE_BANK c = 0 ∧ (ruleGet 1 5 c).valid = true ∧ ruleAllowed 5 (ruleGet 1 5 c) c = false ∧ (∀ n < 5, (ruleGet 1 n c).valid = false) ∧
     rd Reg.SEP_SWAP_BUSY (wr Reg.SEP_SWAP_BUSY 1 c) = 1 ∧ rd Reg.SEP_STALL_BASE c ≤ 8192) ∧
    (rd (Reg.SEP_TABLE_OWNER 255) sep = ownerCode (.host 0) sep ∧ isStallCode 0x8000 = false ∧ rd (Reg.SEP_TABLE_OWNER 255) sep ≠ ownerCode (.host 1) sep ∧
     (∀ f ∈ sep.sepFrames, f.bank = 0)) := by decide

/-- No rule of an empty shadow bank is unsound, so that SWAP exchanges the banks. -/
theorem witness_SeparatorRules_swap (n : Nat) : (ruleGet 1 n sep).valid = false := by
  simp [ruleGet, sep, on, SepRule.none, wr, wrB, Chip.reset, mapGet]

/-- A received frame of 64 bytes on port 12 with a good FCS. -/
def rxFrame : Frame :=
  let body := List.replicate 60 0
  { port := 12, bytes := body ++ leBytes 4 (crc32 body), time := 9, fec := false, full := false, begun := false }

/-- SEP works and port 12 is up; receive queue 8191 of host port 0 is ACTIVE where `act`. -/
def sepUp (act : Nat) : Chip :=
  put spDev (0x4000000000 + 64 * 8191) (leBytes 8 0x10004 ++ leBytes 8 (8 + 0x8000 * 2 ^ 16) ++ leBytes 8 0 ++ leBytes 8 0 ++ leBytes 8 act)
    (on [(Hdr.STATE 0x28, 2), (Hdr.EN 0x28, 1), (Hdr.STATE 0x23, 2), (Hdr.EN 0x23, 1), (Reg.ETH_PORT_EN 3 0, 1), (Reg.ETH_LINK_UP 3 0, 1), (Reg.ETH_MAX_FRAME 3 0, 64),
      (Reg.ETH_MODE 3, 0), (Reg.ETH_MAC_ADDR 3 0, 0), (Reg.SEP_RXQ_TABLE, 0x4000000000), (Reg.SEP_DEF_QUEUE 12, 8191)])

def sepFrame : SepFrame :=
  { id := 3, port := 12, bytes := List.replicate 60 0, head := List.replicate 60 0, time := 9, error := false, bank := 0, pass := 1, info := 0, fallback := 8191, stall := none, cls := none, colour := 0,
    tollQ := none, hash := 0, rule := none }

set_option maxRecDepth 100000 in
theorem witness_SeparatorFrames :
    (let c := sepUp 1
     rxFrame.port < 16 ∧ ethUp 12 c = true ∧ ethUp 0 c = false ∧ rxFrame.bytes.length = 64 ∧ 64 ≤ rd (Reg.ETH_MAX_FRAME 3 0) c ∧ rd (Reg.ETH_MAX_FRAME 3 0) (wr (Reg.ETH_MAX_FRAME 3 0) 63 c) < 64 ∧
     { rxFrame with full := true }.full = true ∧ { rxFrame with fec := true }.begun = false ∧ rxFrame.bytes.drop 60 = leBytes 4 (crc32 (rxFrame.bytes.take 60)) ∧
     (List.replicate 64 0).drop 60 ≠ leBytes 4 (crc32 (rxFrame.bytes.take 60)) ∧ macAccepts 12 rxFrame.bytes c = true ∧ macAccepts 12 rxFrame.bytes (wr (Reg.ETH_MAC_ADDR 3 0) 2 c) = false ∧
     working 0x28 c = true ∧ working 0x28 (wr (Hdr.STATE 0x28) 4 c) = false ∧ sepLookup 0 (passKey sepFrame) c = none ∧ rd (Reg.SEP_DEF_KIND 12) c = 0 ∧
     rd (Reg.SEP_DEF_KIND 12) (wr (Reg.SEP_DEF_KIND 12) 1 c) = 1 ∧ rxActive (rd (Reg.SEP_DEF_QUEUE 12) (sepUp 0)) (sepUp 0) = false ∧
     (∀ k ∈ [0, 1], let y : SepRule := ⟨0, 0, k, 0x8000, true, 0, false⟩
       sepLookup 0 (passKey sepFrame) { c with sepRules := [(7, y)] } = some 7 ∧ actF y 77 77 ≠ 1 ∧ actF y 2 0 = k)) ∧
    (let c := { sepUp 1 with sepFrames := [sepFrame] }
     c.sepFrames = [sepFrame] ∧ sepFrame.id = 3 ∧ sepFrame.id ≠ 4) ∧
    (let c := sepUp 1
     ownerCode (.host 0) c = rxOwner 8191 c ∧ rxActive 8191 c = true ∧ pageState 0x28 c ≠ 6 ∧ (getRx 8191 c).frames = [] ∧ (getRx 8191 c).backs = [] ∧ getRx 8191 c = RxQ.idle ∧
     ownerCode (.host 1) c ≠ rxOwner 8191 c ∧ isStallCode (rxOwner 8191 c) = false ∧ guardOk (.host 0) 0x28 c = true ∧ rd Reg.SEP_RXQ_TABLE c + 64 * 8191 + 64 ≤ 2 ^ 64 ∧
     rxContextOk 8191 (sepUp 0) = true ∧ rxActive 8191 (sepUp 0) = false ∧ rxContextOk 8190 c = false) ∧
    (let b : RxBack := ⟨0, 0, List.replicate 28 0, 1, false⟩
     let c := setRx 8191 ⟨0, [], [b]⟩ (sepUp 1)
     (getRx 8191 c).backs = [b] ∧ b.gen = rxGen 8191 c ∧ { b with gen := 1 }.gen ≠ rxGen 8191 c ∧ b.last = false) ∧
    ((⟨sepFrame, [0], []⟩ : RxPlace).frame.id = 3 ∧ sepFrame.error = false) ∧
    (let c := sepUp 1
     rd (Reg.ETH_PFC_EN 3 0) c < 256 ∧ rd (Reg.ETH_LINK_UP 3 0) c = 1 ∧ rd (Reg.ETH_LINK_UP 0 0) c ≠ 1 ∧ mapGet none c.tolWire 12 = none ∧ (∀ k < 64, tolQueue 12 k c = []) ∧
     working 0x23 (wr (Hdr.STATE 0x23) 4 c) = false ∧ working 0x23 c = true ∧ portExists 12 c = true ∧ rd (Reg.ETH_PORT_EN 3 0) c = 1 ∧ ¬ portExists 13 c = true) := by decide

/-! ### Pail -/

/-- A sound entry of operation `op` for the 50 stripes of volume 0: one block for the operations that move any, to 0x20000 of host port 0. -/
def palEntry (op ps abort : Nat) : List Nat :=
  leBytes 4 (op + abort * 2 ^ 9 + ps * 2 ^ 24) ++ leBytes 4 0 ++ leBytes 8 0 ++ leBytes 8 (if op = 1 ∨ op = 2 ∨ op = 4 ∨ op = 5 then 1 else 0) ++ leBytes 8 0x20000 ++ List.replicate 32 0

/-- PAL works with an array of 50 stripes, all in volume 0 of host port 0; queue 1 of that port is ACTIVE where `act`, and holds the entry `b`. -/
def pal (act : Nat) (b : List Nat) : Chip :=
  setPalQ 1 { PalQ.idle with sqTail := 1 } (put (spHost 0) 0x10000 b (put spDev 0x4000000040 (leBytes 8 0x10004 ++ leBytes 8 0x30005 ++ leBytes 8 0x8000 ++ leBytes 8 0 ++ leBytes 8 act)
    (on [(Hdr.STATE 0x80, 2), (Hdr.EN 0x80, 1), (Reg.PAL_QUEUE_TABLE, 0x4000000000), (Reg.PAL_ARRAY_STATE, 1), (Reg.PAL_ARRAY_STRIPES, 50), (Reg.PAL_VALID 0, 1), (Reg.PAL_OWNER 0, 0x8000),
      (Reg.PAL_STRIPES 0, 50)])))

/-- The command of the entry as queue 1 runs it. -/
def palCmd (op : Nat) : PalCmd := { (palParse (palEntry op 0 0)).1 with queue := 1, owner := 0x8000 }

set_option maxRecDepth 100000 in
theorem witness_PailCommands :
    (∀ op ∈ [1, 2, 3, 4, 5, 6, 7, 8, 9],
      let c := pal 1 (palEntry op 0 0)
      let r := palParse (ldBytes (ownerSpace (palOwner 1 c) c) 0x10000 64 c)
      let x : PalCmd := { r.1 with n := c.palNext, queue := 1, owner := palOwner 1 c, base := 0 }
      working 0x80 c = true ∧ palWaits 1 c = true ∧ palMyTurn 1 c = true ∧ (c.palCmds.filter fun x => isRangeOp x.op).length < 4096 ∧ palF 1 0 63 12 c * 4096 = 0x10000 ∧
      palF 1 0x20 27 16 c = 0 ∧ r.2.2.2 = false ∧ anyPoison (ownerSpace (palOwner 1 c) c) 0x10000 64 c = false ∧ r.1.op = op ∧ r.1.gen = palGen 1 c ∧ palStatus x false c = 0 ∧
      r.2.1 ≤ rd Reg.PAL_PS_CUR c ∧ r.2.2.1 = false ∧ palTest 0 c = none) ∧
    ((palParse (palEntry 7 0 1)).2.2.1 = true ∧ (palTest 0 { pal 1 [] with palCmds := [palCmd 8] }).isSome = true ∧
     ¬ palWaits 1 (pal 0 []) = true ∧ (palParse (palEntry 0 0 0)).2.2.2 = true ∧ ¬ 1 ≤ (palParse (palEntry 0 0 0)).1.op ∧ (palParse (palEntry 15 0 0)).2.2.2 = true ∧ (pal 1 []).palCmds = [] ∧
     palStatus { palCmd 1 with vol := 63 } false (pal 1 []) ≠ 0 ∧ (palParse (leBytes 8 (2 ^ 32 + 1))).1.gen ≠ palGen 1 (pal 1 [])) ∧
    (let w := { palCmd 1 with active := [(0, [])] }
     w.queue = 1 ∧ w.tag = 0 ∧ (∃ a ∈ w.active, a.1 = 0) ∧ w.queue ≠ 2 ∧ (∀ a ∈ w.active, a.1 ≠ 1)) ∧
    (let w := { palCmd 3 with flushed := [0, 1, 2, 3, 4, 5, 6] }
     let c := { pal 1 [] with palCmds := [w] }
     w.op = 3 ∧ w.vol = 0 ∧ (∀ k < 8, ssdMissing k c = true ∨ k ∈ setAdd w.flushed 7) ∧ (∃ k < 8, ssdMissing k c = false ∧ k ∉ setAdd w.flushed 6)) ∧
    (rd (Reg.PAL_TEST_STATE 0) (pal 1 []) ≠ 1 ∧ rd (Reg.PAL_TEST_STATE 0) (wr (Reg.PAL_TEST_STATE 0) 1 (pal 1 [])) = 1 ∧ (palCmd 7).op = 7 ∧ (palCmd 8).op = 8) := by decide

set_option maxRecDepth 100000 in
theorem witness_PailArray :
    (let c := pal 1 []
     ownerCode (.host 0) c = palOwner 1 c ∧ palActive 1 c = true ∧ ¬ ownerCode (.host 1) c = palOwner 1 c ∧ isControl (.host 1) c = false ∧ pageState 0x80 c ≠ 6 ∧ guardOk (.host 0) 0x80 c = true ∧
     (getPalQ 1 c).recs = [] ∧ rd Reg.PAL_QUEUE_TABLE c + 64 * 1 + 64 ≤ 2 ^ 64 ∧ c.palCmds = [] ∧ palContextOk 1 (pal 0 []) = true ∧ palActive 1 (pal 0 []) = false ∧ palContextOk 2 c = false ∧
     isHost .steward = false ∧ isHost (.host 0) = true ∧ rd (Reg.PAL_VALID 0) c = 1 ∧ rd (Reg.PAL_VALID 63) c ≠ 1) ∧
    (let c := wr (Reg.PAL_BASE_STRIPE 63) 49 (wr (Reg.PAL_STRIPES 63) 1 (pal 1 []))
     let d := wr (Reg.PAL_STRIPES 0) 49 c
     rd (Reg.PAL_BASE_STRIPE 63) c + rd (Reg.PAL_STRIPES 63) c ≤ rd Reg.PAL_ARRAY_STRIPES c ∧
     (∃ w < 64, rd (Reg.PAL_VALID w) c = 1 ∧ rd (Reg.PAL_BASE_STRIPE 63) c < rd (Reg.PAL_BASE_STRIPE w) c + rd (Reg.PAL_STRIPES w) c ∧
       rd (Reg.PAL_BASE_STRIPE w) c < rd (Reg.PAL_BASE_STRIPE 63) c + rd (Reg.PAL_STRIPES 63) c) ∧
     (¬ ∃ w < 64, rd (Reg.PAL_VALID w) d = 1 ∧ rd (Reg.PAL_BASE_STRIPE 63) d < rd (Reg.PAL_BASE_STRIPE w) d + rd (Reg.PAL_STRIPES w) d ∧
       rd (Reg.PAL_BASE_STRIPE w) d < rd (Reg.PAL_BASE_STRIPE 63) d + rd (Reg.PAL_STRIPES 63) d) ∧
     rd Reg.PAL_ARRAY_STRIPES c < rd (Reg.PAL_BASE_STRIPE 63) (wr (Reg.PAL_BASE_STRIPE 63) 50 c) + rd (Reg.PAL_STRIPES 63) c) ∧
    (let c := pal 1 []
     c.palRebuild = none ∧ ({ c with palRebuild := some 7 }).palRebuild = some 7 ∧ ¬ ssdMissing 7 c = true ∧ working 0x80 c = true ∧ ssdMissing 7 c = false ∧
     ssdMissing 7 (wr Reg.PAL_MISSING 128 c) = true ∧ running 0x80 c = true ∧ rd Reg.PAL_PS_CUR c < rd Reg.PAL_PS_MAX (wr Reg.PAL_PS_MAX 1 c) ∧ ¬ rd Reg.PAL_PS_CUR c < rd Reg.PAL_PS_MAX (wr Reg.PAL_PS_MAX 0 c) ∧
     rd (Reg.PAL_TEST_STATE 63) (wr (Reg.PAL_TEST_STATE 63) 2 c) = 2 ∧ ∀ x ∈ c.palCmds, x.op = 7 ∨ x.op = 8) := by decide

/-! ### PCI Express ports -/

/-- The aperture of host port 0 begins at device memory, whose first channel is Herd's; port 7's link is up where `up`, its window 7 of 0x1000 bytes at 0x8000 permits what the bits `rw` say. -/
def ports (up rw : Nat) : Chip :=
  on [(Reg.HEP_APERTURE_BASE 0, 0x4000000000), (Reg.MEM_ACTIVITY 0 0, 2), (Hdr.STATE 0xA0, 2), (Hdr.STATE 0x17, 2), (Hdr.EN 0x17, 1), (Reg.SPR_LINK_FIELDS 7, up), (Reg.SPR_IW_BASE 7 7, 0x8000),
    (Reg.SPR_IW_SIZE 7 7, 0x1000), (Reg.SPR_IW_TARGET 7 7, 0x4000000000), (Reg.SPR_IW_READ 7 7, rw % 2), (Reg.SPR_IW_WRITE 7 7, rw / 2), (Reg.SPR_BIND_HOST 7, 1)]

set_option maxRecDepth 100000 in
theorem witness_PortRequests :
    (let c := ports 1 3
     let a := (rd (Reg.HEP_APERTURE_BASE 0) c + 64) % 2 ^ 64
     rangeAsleep apertureCode a 64 (wr (Hdr.STATE 0xA0) 6 c) = some 0xA0 ∧ rangeAsleep apertureCode a 64 c = none ∧ (∀ p ∈ route apertureCode a 64 c, p.dest ≠ .outside) ∧
     ¬ (rd (Reg.HEP_FLR_BUSY 0) c).testBit 0 = true ∧ (rd (Reg.HEP_FLR_BUSY 0) (wr (Reg.HEP_FLR_BUSY 0) 1 c)).testBit 0 = true ∧
     rangeAsleep apertureCode 0 64 c = none ∧ (∃ p ∈ route apertureCode 0 64 c, p.dest = .outside)) ∧
    (pageState 0x17 (wr (Hdr.STATE 0x17) 6 (ports 1 3)) = 6 ∧ pageState 0x17 (ports 0 3) ≠ 6 ∧ portUp 0x17 (ports 0 3) = false) ∧
    (∀ rw ∈ [0, 1, 2, 3], let c := ports 1 rw
      pageState 0x17 c ≠ 6 ∧ portUp 0x17 c = true ∧ accWindow 7 0x8000 c = some 7 ∧ accWindow 7 0x8FFF c = some 7 ∧ rd (Reg.SPR_IW_READ 7 7) c = rw % 2 ∧ rd (Reg.SPR_IW_WRITE 7 7) c = rw / 2 ∧
      rangeAsleep (windowCode 7 7 c) 0x4000000000 64 c = none) ∧
    (let c := ports 1 3
     accWindow 7 0x9000 c = none ∧ accPeer 7 0x9000 c = none ∧ anyPoison (spHost 1) 0x9000 4 c = false ∧ anyPoison (spHost 1) 0x9000 8 c = false) := by decide

set_option maxRecDepth 100000 in
theorem witness_PortResets :
    (let c := on [(Reg.HEP_FLR_BUSY 1, 8), (Reg.HEP_DSTATE 1, 0x80)]
     let b := rd (Reg.HEP_FLR_BUSY 1) c
     b.testBit 3 = true ∧ b < 16 ∧ rd (Reg.HEP_DSTATE 1) c < 256 ∧ b.testBit 0 = false ∧ dState 1 3 c = 2 ∧ dState 1 0 c = 0) ∧
    (let c := on [(Reg.HEP_LINK_UP 1, 1)]
     rd (Reg.HEP_LINK_UP 1) c = 1 ∧ rd (Reg.HEP_LINK_UP 0) c ≠ 1 ∧ mapGet none c.perstAt 1 = none ∧ mapGet none { c with perstAt := [(1, some 0)] }.perstAt 1 ≠ none) ∧
    (let c := on [(Hdr.STATE 0x1F, 2), (Hdr.STATE 0x10, 6), (Hdr.STATE 0x11, 1), (Hdr.STATE 0x12, 4), (Reg.SSD_LINK_FIELDS 7, 1), (Reg.SPR_LINK_FIELDS 1, 1)]
     pageState 0x1F c ≠ 0 ∧ pageState 0x1F c ≠ 4 ∧ pageState 0x13 c = 0 ∧ pageState 0x12 c = 4 ∧ portUp 0x1F c = true ∧ running 0x1F c = true ∧ portUp 0x11 c = true ∧ running 0x11 c = false ∧
     portUp 0x12 c = false ∧ pageState 0x10 c = 6 ∧ pageState 0x1F c ≠ 6) ∧
    (let c := on [(Reg.CRS_OWNER 0, 1), (Hdr.EN 0x17, 1)]
     pageState 0x17 c ≠ 6 ∧ guardOk (.host 0) 0x17 c = true ∧ guardOk (.host 1) 0x17 c = true ∧ holdsSem (.host 0) 0 c = true ∧ holdsSem (.host 1) 0 c = false ∧ rd (Hdr.EN 0x17) c = 1 ∧
     rd (Hdr.EN 0x10) c ≠ 1) := by decide

/-! ### Stalls -/

/-- A record without resources: one mapped range of `size` bytes at 0x10000, with a control ring of 16 entries in it. -/
def stallRecord (size : Nat) : List Nat :=
  List.replicate 0x40 0 ++ leBytes 8 0x10000 ++ leBytes 8 size ++ List.replicate 0x70 0 ++ leBytes 4 1 ++ leBytes 4 4096 ++ leBytes 4 1 ++ leBytes 4 33554432 ++ leBytes 4 1 ++ leBytes 4 9600 ++
  leBytes 4 1 ++ leBytes 4 0 ++ leBytes 8 0x10004 ++ leBytes 8 0x11000

/-- STL works with image 0 on core 0; stall 2047 of host port 1 is in state `st` with generation 1. -/
def stallIn (st size : Nat) : Chip :=
  put spDev (0x4000000000 + 512 * 2047) (leBytes 4 (st + 2 ^ 8 + 2 ^ 16) ++ (stallRecord size).drop 4)
    { on [(Hdr.STATE 0x90, 2), (Hdr.EN 0x90, 1), (Reg.STL_STALL_TABLE, 0x4000000000), (Reg.CRS_OWNER 0, 2), (Reg.STL_STALLS_USED, 1)] with images := [(0, 1)] }

/-- Port 1's `CMD_ADDR` is 0x40000, where a record stands. -/
def stallCmd (st : Nat) (b : List Nat) : Chip := wrB 2 Reg.STL_CMD_ADDR 0x40000 (put (spHost 1) 0x40000 b (stallIn st 0x10000))

set_option maxRecDepth 100000 in
theorem witness_StallCommands :
    (let c := stallIn 1 0x10000
     isHost .steward = false ∧ pageState 0x90 c ≠ 6 ∧ guardOk .steward 0x90 c = true ∧ guardOk (.host 0) 0x90 c = true ∧ guardOk (.host 1) 0x90 c = true ∧ working 0x90 c = true ∧
     working 0x90 (wr (Hdr.STATE 0x90) 4 c) = false ∧ holdsSem (.host 0) 0 c = false ∧ holdsSem (.host 1) 0 c = true ∧ controlRuns c = true ∧ controlRuns { c with images := [] } = false ∧
     stallState 2047 c ≠ 0 ∧ stallHome 2047 c ≠ 0 ∧ stallHome 2047 c = 1 ∧ stallState 0 c = 0 ∧ 2047 ∉ c.freezing ∧ rd Reg.STL_STALL_TABLE c + 512 * 2047 + 512 ≤ 2 ^ 64) ∧
    (∀ st ∈ [0, 1, 2, 3, 4], stallState 2047 (stallIn st 0x10000) = st) ∧
    (¬ 0x1000000000 < ((stallMaps 2047 (stallIn 1 0x1000000000)).map (·.2)).sum ∧ 0x1000000000 < ((stallMaps 2047 (stallIn 1 0x1000001000)).map (·.2)).sum) ∧
    (let c := stallCmd 0 (stallRecord 0x10000)
     let a := rdB 2 Reg.STL_CMD_ADDR c
     a = 0x40000 ∧ (stallMake 1 2047 1 (ldBytes (spHost 1) a 240 c) (anyPoison (spHost 1) a 240 c) c).1 = 0 ∧
     (stallMake 1 2047 1 (ldBytes (spHost 1) a 240 c) true c).1 ≠ 0 ∧ recordClean (leNat (ldBytes (spHost 1) a 240 (stallCmd 0 (List.replicate 240 255)))) = false) ∧
    (let c := stallCmd 1 (stallRecord 0x10000)
     let e := put spDev (stallBase 2047 c + 0xC0) (ldBytes (spHost 1) (0x40000 + 0xC0) 0x1C c) c
     anyPoison (spHost 1) (0x40000 + 0xC0) 0x1C c = false ∧ stallF 2047 0xC4 31 24 e = 0 ∧ stallF 2047 0xCC 31 26 e = 0 ∧ stallF 2047 0xD8 31 2 e = 0 ∧ recordOk 2047 1 e = true ∧
     anyPoison (spHost 1) (0x40000 + 0xC0) 0x1C (poisonRange (spHost 1) 0x400C0 0x1C c) = true) ∧
    leNat (ldBytes (spHost 1) (0x40000 + 0x10) 8 (stallCmd 0 (leBytes 8 0 ++ leBytes 8 0 ++ leBytes 8 591))) = 591 ∧
    leNat (ldBytes (spHost 1) (0x40000 + 0x10) 8 (stallCmd 0 (leBytes 8 0 ++ leBytes 8 0 ++ leBytes 8 0x4000001))) = 0x4000001 ∧
    (let c := { stallIn 1 0x10000 with freezing := [2047] }
     2047 ∈ c.freezing ∧ stallIdle 2047 c = true ∧ 2046 ∉ c.freezing) := by decide

set_option maxRecDepth 100000 in
/-- The image that SAVE writes of a FROZEN stall is one that RESTORE takes when the stall is FREE. -/
theorem witness_StallCommands_restore :
    (stallRestore 1 2047 (let c := stallIn 3 0x10000; wr Reg.STL_STALLS_USED 0 (stallPut 2047 0 2 0 0 (wrB 2 Reg.STL_CMD_ADDR 0x40000 (put (spHost 1) 0x40000 (stallImage 2047 c) c))))).1 = 0 := by decide

/-- A control request of operation `op` and kind `k` on local index `ix` with an argument of `len` bytes at `addr`. -/
def ctlEntry (op k ix addr len arg : Nat) : List Nat :=
  leBytes 4 (op + k * 2 ^ 8 + 2 ^ 16) ++ leBytes 4 ix ++ leBytes 8 addr ++ leBytes 4 len ++ leBytes 4 arg ++ leBytes 4 77 ++ List.replicate 36 0

/-- Stall 2047 is ACTIVE with one queue pair, receive queue, transmit ring, Mover channel, COL, Pail and intake queue, region, rule, table, key page, context and member, all of index 0 (rule and table too); a request waits in its control ring. -/
def ctlStall (b : List Nat) : Chip :=
  { put (spHost 1) 0x10000 b (put spDev (0x4000000000 + 512 * 2047 + 0x10)
      (leBytes 4 0x01010101 ++ leBytes 4 0x01010101 ++ leBytes 4 0x00010001 ++ leBytes 4 0x00010101) (stallIn 1 0x10000)) with
    stallCtl := [(2047, { StallCtl.idle with tail := 1 })] }

set_option maxRecDepth 100000 in
theorem witness_StallRings :
    (let c := ctlStall []
     working 0x90 c = true ∧ working 0x90 (wr (Hdr.STATE 0x90) 4 c) = false ∧ stallHome 2047 c = 1 ∧ stallHome 2047 c ≠ 0 ∧
     (∀ k ∈ [0, 1, 2, 3, 4, 5, 6], stallCount 2047 k c = 1) ∧ stallCount 2047 0 c ≤ 64 / 64 ∧ stallCount 2047 5 c ≤ 0x7FF / 64 ∧ stallCount 2047 6 c ≤ 64 / 64) ∧
    (∀ st ∈ [1, 2, 3, 4], stallState 2047 (stallIn st 0x10000) = st) ∧
    (∀ x ∈ [(0, 1, 32, 0), (1, 6, 0, 2), (2, 7, 64, 1), (3, 8, 144, 0), (4, 9, 2048, 0), (5, 10, 4, 2 ^ 31), (6, 11, 16, 3), (7, 12, 0x68, 0), (8, 0, 0, 0)],
      let c := ctlStall (ctlEntry x.1 x.2.1 0 0x12000 x.2.2.1 x.2.2.2)
      let e := ownRead 2047 (ctlBase 2047 c + 64 * (0 % ctlSize 2047 c)) 64 c
      let r := ctlParse e.1
      ctlReady 2047 c = true ∧ e.2 = false ∧ r.gen = stallGen 2047 c ∧ r.op = x.1 ∧ r.kind = x.2.1 ∧ (x.1 < 8 → ctlFormOk r = true) ∧ (7 < x.1 → ctlFormOk r = false) ∧
      pageState (ctlPage r.kind 0) c ≠ 6 ∧ (ownRead 2047 r.addr r.len c).2 = false ∧ (x.1 < 6 → ctlTarget 2047 r.kind r.ix c = some 0)) ∧
    (let c := ctlStall (ctlEntry 6 11 0 0x12000 0 0)
     ctlTarget 2047 11 0 c = some 0 ∧ ctlTarget 2047 0 1 c = none ∧ (ownRead 2047 0x20000 16 c).2 = true ∧
     ctlReady 2047 { c with images := [] } = false ∧ ctlResting 1 0 (put spDev 0x20 [1] c) = false ∧
     (ctlParse (ownRead 2047 (ctlBase 2047 c) 64 (put spDev (0x4000000000 + 512 * 2047) (leBytes 4 (1 + 2 ^ 8 + 2 ^ 17)) c)).1).gen ≠ stallGen 2047 (put spDev (0x4000000000 + 512 * 2047) (leBytes 4 (1 + 2 ^ 8 + 2 ^ 17)) c)) ∧
    (let c := wr (Reg.CHN_POOL_OF 0) 0 (wr (Reg.PWR_DOM_AWAKE 0) 1 (ctlStall (ctlEntry 7 12 0 0x12000 0x68 0)))
     ctlTarget 2047 12 0 c = some 0 ∧ pageState (ctlPage 12 0) c ≠ 6 ∧ domAwake (pageDomain (ctlPage 12 0)) c = true) := by decide

/-! ### Boot and firmware -/

set_option maxRecDepth 100000 in
theorem witness_BootSequence :
    (let c := { Chip.reset with module := { Chip.reset.module with good := true } }
     c.module.good = true ∧ rd Reg.BOOT_BOOT_STATE c = 0 ∧ ¬ (({ c with module := { c.module with good := false } }).module.good = true)) ∧
    (∀ k ≤ 2, imgCheck (some (k / 2)) (List.replicate 512 255) Chip.reset ≠ 0) ∧ imgCheck none [] Chip.reset ≠ 0 ∧ rd Reg.BOOT_BOOT_STATE Chip.reset ≠ 6 ∧ rd Reg.BOOT_BOOT_STATE Chip.reset ≠ 2 ∧
    (let c := on [(Reg.BOOT_BOOT_STATE, 2)]
     rd Reg.BOOT_BOOT_STATE c = 2 ∧ rd Reg.BOOT_BOOT_CAUSE c ≠ 2 ∧ c.boot.hold = false ∧ pageState 0xA6 (wr (Hdr.STATE 0xA6) 0 c) = 0) ∧
    rd Reg.BOOT_BOOT_STATE (on [(Reg.BOOT_BOOT_STATE, 6)]) = 6 ∧ ({ Chip.reset with boot := { BootSt.reset with hold := true } }).boot.hold = true := by decide

/-- Host port 0 holds semaphore 0, slot 0 runs, and `UPD_ADDR` and `UPD_LEN` are as given. -/
def update (l : List (Fld × Nat)) : Chip := on ([(Reg.CRS_OWNER 0, 1), (Reg.BOOT_BOOT_STATE, 3), (Reg.BOOT_BOOT_SOURCE, 0)] ++ l)

set_option maxRecDepth 100000 in
theorem witness_FirmwareUpdates :
    (let c := update [(Reg.BOOT_UPD_LEN, 512), (Reg.BOOT_UPD_ADDR, 0x1000)]
     isHost .steward = false ∧ holdsSem (.host 1) 0 c = false ∧ holdsSem (.host 0) 0 c = true ∧ pageState 5 c ≠ 6 ∧ guardOk .steward 5 c = true ∧ guardOk (.host 0) 5 c = true ∧ guardOk (.host 1) 5 c = true ∧
     rd Reg.BOOT_UPD_BUSY c ≠ 1 ∧ rd Reg.BOOT_UPD_BUSY (wr Reg.BOOT_UPD_BUSY 1 c) = 1 ∧
     rd Reg.BOOT_UPD_ADDR c % 4096 = 0 ∧ 512 ≤ rd Reg.BOOT_UPD_LEN c ∧ rd Reg.BOOT_UPD_LEN c ≤ 0x400000 ∧ anyPoison (spHost 0) 0x1000 512 c = false ∧
     anyPoison (spHost 0) 0x1000 512 (poisonRange (spHost 0) 0x1000 64 c) = true ∧ imgCheck none (ldBytes (spHost 0) 0x1000 512 c) c ≠ 0) ∧
    (rd Reg.BOOT_UPD_LEN (update [(Reg.BOOT_UPD_LEN, 511)]) < 512 ∧ 0x400000 < rd Reg.BOOT_UPD_LEN (update [(Reg.BOOT_UPD_LEN, 0x400001)])) ∧
    (let c := update [(Reg.BOOT_IMG_VALID 1, 1)]
     spareSlot c = 1 ∧ rd (Reg.BOOT_IMG_VALID (spareSlot c)) c = 1 ∧ rd (Reg.BOOT_IMG_VALID (spareSlot (update []))) (update []) ≠ 1 ∧ rd Reg.BOOT_BOOT_SOURCE c < 2 ∧
     2 ≤ rd Reg.BOOT_BOOT_SOURCE (wr Reg.BOOT_BOOT_SOURCE 2 c)) ∧
    (let c := put (spFlash 1) 0 (leBytes 4 0 ++ leBytes 4 (2 ^ 8)) (update [(Reg.BOOT_FW_SVN, 0)])
     runsOnTrial c = false ∧ rd Reg.BOOT_FW_SVN c ≤ imgSvn (imgBytes 2 c) ∧ runsOnTrial (wr (Reg.BOOT_IMG_TRIAL 0) 1 c) = true ∧ rd Reg.BOOT_FW_KEY_SLOT c = 0 ∧
     ¬ (rd Reg.BOOT_FW_KEY_SLOT c = 3 ∨ (rd (Reg.BOOT_IMG_VALID (spareSlot c)) c = 1 ∧ imgKey (imgBytes (spareSlot c) c) = 3) ∨ imgKey (imgBytes 2 c) = 3 ∨ ∀ n < 4, keySlotLive n c = true ↔ n = 3) ∧
     imgCheck (some 0) (imgBytes (spareSlot c) c) c ≠ 0) ∧
    (let c := { update [] with boot := { BootSt.reset with hold := true, job := some (2, [1]) } }
     c.boot.hold = true ∧ c.boot.kept = [] ∧ c.boot.job = some (2, [1]) ∧ (update []).boot.hold = false ∧ (update []).boot.job = none) := by decide

/-! ### Power and thermal management -/

set_option maxRecDepth 100000 in
theorem witness_PowerWakes :
    (let c := { Chip.reset with pllTries := [(3, 1), (2, 2)], waking := [381] }
     mapGet 0 c.pllTries 0 = 0 ∧ mapGet 0 c.pllTries 3 = 1 ∧ 2 ≤ mapGet 0 c.pllTries 2 ∧ (0 ∈ domainPlls 381 ∧ 381 ∈ c.waking) ∧ (3 ∈ domainPlls 380 ∧ domAwake 380 (wr (Reg.PWR_DOM_AWAKE 11) (2 ^ 28) c) = true) ∧
     (∀ e < 431, domAwake e Chip.reset = false ∧ e ∉ Chip.reset.waking)) ∧
    (let c := { Chip.reset with wakes := [⟨430, .work, 0⟩] }
     (∀ r ∈ c.wakes, wakeRefusal r.dom r.item c = 0) ∧ (∀ r ∈ c.wakes, grantDomain r c = 430) ∧ domAwake 430 c = false ∧ 430 ∉ c.waking ∧ (∀ r ∈ Chip.reset.wakes, wakeRefusal r.dom r.item c = 0) ∧
     (∃ r ∈ ({ c with wakes := [⟨0, .work, 0⟩] }).wakes, grantDomain r c = 336)) := by decide

set_option maxRecDepth 100000 in
theorem witness_PowerWakes_complete :
    (∀ d ∈ [320, 335], let c := { Chip.reset with wakes := [⟨d, .access .steward 0x2000 0x100 32 none, 0⟩] }
      wakeRefusal d (.access .steward 0x2000 0x100 32 none) c = 2) ∧
    wakeRefusal 430 .work (on [(Reg.THM_TRIPPED, 1)]) = 3 ∧ wakeRefusal 430 .work { Chip.reset with pllFailed := [0] } = 4 ∧
    (let c := { on [(Hdr.STATE 0x50, 6), (Reg.PWR_PLL_ON, 1)] with waking := [381], wakes := [⟨381, .access .steward 0x50 0x100 32 none, 0⟩] }
     381 ∈ c.waking ∧ clusterAsleep 381 c = false ∧ (∀ j ∈ domainPlls 381, pllOn j c = true) ∧ domainPage 381 = some 0x50 ∧ wakeRefusal 381 (.access .steward 0x50 0x100 32 none) c = 0 ∧ pageState 0x50 c = 6 ∧
     rd (Hdr.FENCE 0x50) c ≠ 1 ∧ rd (Hdr.QUIESCE 0x50) c ≠ 1 ∧ (∀ r ∈ ({ c with wakes := [] }).wakes, r.dom ≠ 381)) ∧
    (let c := { on [(Reg.PWR_PLL_ON, 8)] with waking := [357] }
     357 ∈ c.waking ∧ clusterAsleep 357 c = false ∧ (∀ j ∈ domainPlls 357, pllOn j c = true) ∧ domainPage 357 = none ∧ (∀ r ∈ c.wakes, r.dom ≠ 357) ∧ ¬ 0 ∈ c.waking) ∧
    (let c := { Chip.reset with wakes := [⟨0, .work, 0⟩] }
     0 ∉ c.waking ∧ domAwake 0 c = false ∧ c.wakes = [⟨0, .work, 0⟩] ∧ (0 : Nat).testBit 1 = false ∧ (∀ r ∈ c.wakes, r.dom ≠ 1)) := by decide

/-- MOV 0 may sleep after 5 us; Wayside core 23 waits in WFI; cluster 20 is awake and its cores are OFF. -/
def sleepy : Chip :=
  setCore (.wayside 23) { CoreSt.reset with wfi := true }
    (on [(Hdr.STATE 0x50, 2), (Hdr.EN 0x50, 1), (Hdr.SLEEP_OK 0x50, 1), (Hdr.IDLE_US 0x50, 5), (Reg.PWR_WAYSIDE_IDLE_US, 1), (Reg.PWR_CLUSTER_IDLE_US, 1), (Reg.PWR_DOM_AWAKE 11, 2 ^ 28 + 2 ^ 4),
      (Reg.PWR_PLL_ON, 3)])

set_option maxRecDepth 100000 in
theorem witness_SleepAndEdges :
    (let c := sleepy
     running 0x50 c = true ∧ rd (Hdr.SLEEP_OK 0x50) c = 1 ∧ rd (Hdr.IDLE_US 0x50) c ≠ 0 ∧ pageIdle 0x50 c = true ∧ wakeWaits (pageDomain 0x50) c = false ∧ pageDomain 0x50 < 430 ∧
     blockType 0x50 ≠ some 0xA0 ∧ running 0x51 c = false) ∧
    (let c := sleepy
     rd Reg.PWR_CLUSTER_IDLE_US c ≠ 0 ∧ domAwake (336 + 20) c = true ∧ wakeWaits (336 + 20) c = false ∧
     (∀ n < 336, 16 * 20 ≤ n → (pageState (0x2000 + n) c = 6 ∨ pageState (0x2000 + n) c = 0) ∧ n ∉ c.waking ∧ wakeWaits n c = false) ∧ domAwake 336 c = false) ∧
    (let c := sleepy
     rd Reg.PWR_WAYSIDE_IDLE_US c ≠ 0 ∧ domAwake (357 + 23) c = true ∧ wakeWaits (357 + 23) c = false ∧ (getCore (.wayside 23) c).wfi = true ∧
     (getCore (.wayside 23) c).irqPending &&& (getCore (.wayside 23) c).irqEnable = 0 ∧ domAwake 357 c = false) ∧
    (pllOn 0 sleepy = true ∧ pllOn 1 sleepy = true ∧ pllOn 2 sleepy = false) ∧
    (let a : TolQ := { TolQ.off with meter := true }
     (mapGet TolQ.off ({ Chip.reset with tolQs := [(7, a)] }).tolQs 7).meter = true ∧ (mapGet TolQ.off Chip.reset.tolQs 7).meter = false) ∧
    ((mapGet Shaper.off ({ Chip.reset with tolShp := [(7, { Shaper.off with en := true })] }).tolShp 7).en = true ∧ (mapGet Shaper.off Chip.reset.tolShp 7).en = false) ∧
    (rd Reg.STL_STALLS_USED (stallIn 1 0x10000) ≠ 0 ∧ stallState 2047 (stallIn 1 0x10000) ≠ 0) := by decide

set_option maxRecDepth 100000 in
theorem witness_Throttling :
    (∀ x ∈ [(0, 0), (0, 23), (1, 24), (1, 47), (2, 48), (2, 57), (3, 57)], let c := on [(Reg.THM_VALID x.2, 1), (Reg.THM_TEMP x.2, 16 * 105)]
      rd (Reg.THM_VALID x.2) c = 1 ∧ 16 * 105 ≤ sensorTemp x.2 c ∧ stepForced x.1 c = false ∧ rd (Reg.THM_HW_STEP x.1) c < 4) ∧
    (let c := on [(Reg.THM_VALID 57, 1), (Reg.THM_TEMP 57, 16 * 100 - 1), (Reg.THM_HW_STEP 3, 4)]
     (∀ i < 76, rd (Reg.THM_VALID i) c = 1 → sensorTemp i c < 16 * 100) ∧ c.powerRise ≠ some (now c) ∧ rd (Reg.THM_HW_STEP 3) c = 4 ∧ stepForced 3 c = false) ∧
    (let c := on [(Reg.THM_VALID 57, 1), (Reg.THM_TEMP 57, 16 * 105), (Reg.THM_HW_STEP 3, 4)]
     rd (Reg.THM_VALID 57) c = 1 ∧ 16 * 105 ≤ sensorTemp 57 c ∧ 4 ≤ rd (Reg.THM_HW_STEP 3) c) ∧
    (let c := on [(Reg.THM_POWER_CAP_W, 800), (Reg.THM_AVG10_W, 799)]
     rd Reg.THM_AVG10_W c < rd Reg.THM_POWER_CAP_W c ∧ stepForced 0 { c with sensorFailed := [0, 5, 9, 22, 23] } = true ∧ stepForced 0 { c with sensorFailed := [0, 5, 9, 22, 24] } = false) ∧
    (now Chip.reset / 10 % 16 = 0 ∧ now (on [(Reg.MST_MS_TIME, 10)]) / 10 % 16 ≠ 0) ∧
    (rd Reg.THM_TRIPPED Chip.reset ≠ 1 ∧ 2 ≤ mapGet 0 ({ Chip.reset with hotSamples := [(63, 2)] }).hotSamples 63 ∧ mapGet 0 ({ Chip.reset with hotSamples := [(63, 1)] }).hotSamples 63 < 2 ∧
     rd Reg.THM_TRIPPED (on [(Reg.THM_TRIPPED, 1)]) = 1 ∧ ∃ p ∈ dataPages, pageState p (on [(Hdr.STATE p, 2)]) = 2) ∧
    (∀ st ∈ [3, 4], let c := on [(Reg.BOOT_BOOT_STATE, st)]
      c.boot.hold = false ∧ rd Reg.BOOT_BOOT_STATE c = st) ∧ rd Reg.BOOT_BOOT_STATE Chip.reset ≠ 3 ∧ 75 ∉ Chip.reset.sensorFailed ∧ 75 ∈ ({ Chip.reset with sensorFailed := [75] }).sensorFailed := by decide

/-! ### Faults and resets -/

set_option maxRecDepth 100000 in
theorem witness_FatalErrors :
    (∀ q ∈ [0x50, 0x80], q ∈ dataPages ∧ ∀ st ∈ [1, 2, 6], pageState q (on [(Hdr.STATE q, st)]) ∈ [1, 2, 6]) ∧
    (0x10 ∉ dataPages ∧ ∀ st ∈ [0, 3, 4], pageState 0x10 (on [(Hdr.STATE 0x10, st)]) ∈ [0, 3, 4]) ∧
    (let c := on [(Reg.RST_FAULT_PULSE, 1), (Reg.RST_FAULT_HOLD, 1)]
     rd Reg.RST_FAULT_PULSE c = 1 ∧ rd Reg.RST_FAULT_HOLD c = 1 ∧ rd Reg.RST_FAULT_PULSE Chip.reset ≠ 1) ∧
    (let c := on [(Reg.CRS_OWNER 0, 1), (Hdr.GUARDED 4, 0)]
     pageState 4 c ≠ 6 ∧ guardOk (.host 0) 4 c = true ∧ guardOk (.host 1) 4 c = true ∧ holdsSem (.host 0) 0 c = true ∧ holdsSem (.host 1) 0 c = false ∧ isSteward .steward = true ∧ isSteward (.host 0) = false) := by decide

/-- Host port 0 holds semaphore 0 and RST is not guarded; stall 2047 is ACTIVE; core 0 has enabled and works. -/
def resets (l : List (Fld × Nat)) : Chip :=
  { put spDev (0x4000000000 + 512 * 2047) (leBytes 4 1) (on ([(Reg.CRS_OWNER 0, 1), (Hdr.GUARDED 4, 0), (Reg.STL_STALL_TABLE, 0x4000000000), (Hdr.STATE 0x2000, 2), (Hdr.EN 0x2000, 1)] ++ l)) with
    numbered := [0] }

set_option maxRecDepth 100000 in
theorem witness_ResetCommands :
    (let c := resets []
     pageState 4 c ≠ 6 ∧ guardOk (.host 0) 4 c = true ∧ guardOk (.host 1) 4 c = true ∧ holdsSem (.host 1) 0 c = false ∧ holdsSem (.host 0) 0 c = true ∧ rd Reg.RST_SAFE_STATE c ≠ 1 ∧
     rd Reg.RST_SAFE_STATE (wr Reg.RST_SAFE_STATE 1 c) = 1 ∧ tooHot c = false ∧ tooHot (wr (Reg.THM_VALID 63) 1 (wr (Reg.THM_TEMP 63) 1520 c)) = true) ∧
    (let c := resets []
     767 / 64 < 12 ∧ 12 ≤ 768 / 64 ∧ (0x50 + 767 / 64) ∉ c.recovering ∧ movRunOf 11 63 c = none ∧ movOwner 11 63 c ≠ 0x9001 ∧ (0x50 + 767 / 64) ∈ ({ c with recovering := [0x5B] }).recovering ∧
     (movRunOf 11 63 (movSetRun 11 63 (some (movParse 0 [])) c)).isSome = true) ∧
    (let c := resets []
     2047 < 2048 ∧ stallState 2047 c ≠ 0 ∧ stallState 0 c = 0 ∧ coreRuns 0 c = true ∧ coreRuns 1 c = false ∧ coreRuns 336 c = false ∧ isEngine 0x5B = true ∧ isEngine 0x5C = false ∧ 0x88 ∉ c.recovering ∧
     isEngine 0x88 = true ∧ 0x88 ∈ ({ c with recovering := [0x88] }).recovering) := by decide

set_option maxRecDepth 100000 in
theorem witness_ErrorRecovery :
    (let c := { on [(Hdr.STATE 0x70, 2), (Hdr.EN 0x70, 1)] with herdLive := [0] }
     isEngine 0x70 = true ∧ ¬ (0x50 ≤ 0x70 ∧ 0x70 < 0x5C) ∧ pageIdle 0x70 c = false ∧ working 0x70 c = true ∧ working 0x70 (wr (Hdr.STATE 0x70) 5 c) = true ∧
     rd Reg.RST_AUTO_RECOVER (wr Reg.RST_AUTO_RECOVER 1 c) = 1 ∧ rd Reg.RST_AUTO_RECOVER (wr Reg.RST_AUTO_RECOVER 0 c) ≠ 1 ∧ rd Reg.RST_SAFE_STATE c ≠ 1 ∧ ¬ (0x5B < 0x50 ∨ 0x5C ≤ 0x5B) ∧ isEngine 0x5C = false) ∧
    (let c := { on [(Hdr.DRV_MAJOR 0x79, 1), (Reg.PWR_PLL_ON, 15), (Reg.PWR_DOM_AWAKE 13, 0x7FFF)] with recovering := [0x79, 0x80] }
     0x79 ∈ c.recovering ∧ 0x70 ∉ c.recovering ∧ rd Reg.RST_SAFE_STATE c ≠ 1 ∧ rd Reg.RST_SAFE_STATE (wr Reg.RST_SAFE_STATE 1 c) = 1 ∧
     (pageCheck 0x79 (wr (Hdr.EN 0x79) 1 (pageOff true 0x79 (wr (Hdr.EN 0x79) 0 c))) = none) ∧
     (pageCheck 0x80 (wr (Hdr.EN 0x80) 1 (pageOff true 0x80 (wr (Hdr.EN 0x80) 0 c)))).isSome = true) ∧
    (∀ a ∈ [0x4000000000, 0x4047FFFFC0, 0xBFFFFFFFFC0], (devChannel a).isSome = true ∧ retiredHit a 1 Chip.reset = false) ∧ devChannel 0x4048000000 = none ∧
    (let c := on [(Reg.MEM_RETIRED_VALID 0 0, 1), (Reg.MEM_RETIRED_ADDR 0 0, 0x4000000000), (Reg.MEM_CORR_THRESHOLD 0, 1), (Reg.MEM_SPARES_LEFT 0 0, 0), (Reg.MEM_SPARES_LEFT 0 1, 1)]
     devChannel 0x400000FFFF = some (0, 0) ∧ retiredHit 0x400000FFFF 1 c = true ∧ retiredHit 0x4000010000 1 c = false ∧ devChannel 0x4000010000 = some (0, 0) ∧ rd (Reg.MEM_SPARES_LEFT 0 0) c = 0 ∧
     (∀ i < 1, rd (Reg.MEM_RETIRED_VALID 0 i) c = 1) ∧ rd (Reg.MEM_RETIRED_VALID 0 1) c ≠ 1 ∧ rd (Reg.MEM_SPARES_LEFT 0 1) c ≠ 0 ∧ devChannel 0x4080000000 = some (0, 1) ∧
     rd (Reg.MEM_CORR_THRESHOLD 0) c ≠ 0 ∧ rd (Reg.MEM_CORR_THRESHOLD 0) c ≤ (c.rowCorr.filter fun e => e.1 == 0).length + 1 ∧
     (c.rowCorr.filter fun e => e.1 == 0).length + 1 < rd (Reg.MEM_CORR_THRESHOLD 0) (wr (Reg.MEM_CORR_THRESHOLD 0) 2 c)) ∧
    (let c := { Chip.reset with regs := (List.range 128).foldl (fun (m : List (Nat × Nat)) i => m ++ [(fldKey (Reg.MEM_RETIRED_VALID 0 i), 1)]) [] }
     ∀ i < 128, rd (Reg.MEM_RETIRED_VALID 0 i) c = 1) := by decide

/-! ### Management and the module -/

set_option maxRecDepth 100000 in
theorem witness_TimeAndFrames :
    (let c := on [(Hdr.GUARDED 6, 0)]
     pageState 6 c ≠ 6 ∧ guardOk (.host 0) 6 c = true ∧ guardOk .steward 6 c = true ∧ isHost (.host 0) = true ∧ isHost .steward = false ∧
     pageState 0x70 c = 0 ∧ pageState 0x61 c = 0 ∧ pageState 0x78 c = 0 ∧ ¬ pageState 0x78 (wr (Hdr.STATE 0x78) 4 c) = 0) ∧
    ((-160 : Int) % 160 = 0 ∧ (-160 : Int) < 0 ∧ -2 ^ 63 ≤ (-160 : Int) ∧ (159 : Int) % 160 ≠ 0 ∧ (160 : Int) % 160 = 0 ∧ (160 : Int) < 2 ^ 63) ∧
    (let c := { Chip.reset with timeStep := some 160 }
     c.timeStep = some 160 ∧ now c / 10 % 16 = 0 ∧ now (wr Reg.MST_MS_TIME 10 c) / 10 % 16 ≠ 0 ∧ Chip.reset.timeStep = none) ∧
    (∀ st ∈ [0, 1, 2, 3], ∀ d ∈ [0, 1, 2], let c := on [(Reg.MST_TIME_STATE, st), (Reg.MST_DISC_SRC, d)]
      rd Reg.MST_TIME_STATE c = st ∧ rd Reg.MST_DISC_SRC c = d) ∧
    (let c := on [(Reg.SBI_MGMT_PEER, 9), (Reg.LBY_JOB_ID, 0)]
     c.boot.hold = false ∧ ({ c with boot := { c.boot with hold := true } }).boot.hold = true ∧ rd Reg.SBI_MGMT_PEER c = 9 ∧ (lbyMsg 0 0 0).jobId = rd Reg.LBY_JOB_ID c) := by decide

/-- Publish ring 31 of host port 0 is enabled with 16 slots; the first two have `PHASE` as `p` and `q` say. -/
def pub (p q : Nat) : Chip :=
  put (spHost 0) (0x10000 + 64) (List.replicate 60 0 ++ [p, 0, 0, 0] ++ List.replicate 60 0 ++ [q, 0, 0, 0])
    (on [(Reg.MST_PUB_EN 31, 1), (Reg.MST_PUB_LOC 31, 0), (Reg.MST_PUB_BASE 31, 0x10000), (Reg.MST_PUB_LOG2 31, 4)])

set_option maxRecDepth 100000 in
theorem witness_Telemetry :
    (let c := { on [(Reg.MST_EXPORT_EN, 1), (Reg.BOOT_BOOT_STATE, 3)] with tel := [⟨1, 0, 0, 0, 0, []⟩] }
     rd Reg.MST_EXPORT_EN c = 1 ∧ c.boot.hold = false ∧ rd Reg.BOOT_BOOT_STATE c = 3 ∧ c.tel ≠ [] ∧ 16 + ((c.tel.take 1).map telBytes).sum ≤ 1452 ∧ ¬ Chip.reset.tel ≠ []) ∧
    (let c := on [(Reg.MST_SENSOR_PERIOD_MS, 1), (Reg.MST_COUNTER_PERIOD_S, 1)]
     rd Reg.MST_SENSOR_PERIOD_MS c ≠ 0 ∧ rd Reg.MST_COUNTER_PERIOD_S c ≠ 0 ∧ c.ctrPage % counterPages.length = 0 ∧ rd (Reg.THM_TEMP 75) c < 2 ^ 16 ∧ rd (Reg.THM_VALID 75) c < 2 ∧
     rd Reg.MST_SENSOR_PERIOD_MS (wr Reg.MST_SENSOR_PERIOD_MS 0 c) = 0 ∧ rd Reg.MST_COUNTER_PERIOD_S (wr Reg.MST_COUNTER_PERIOD_S 0 c) = 0) ∧
    (∀ p ∈ [0, 1], let c := pub p 0
      let reach := pubReach 31 c
      let slot := fun (n : Nat) => readRange reach.1 (reach.2 + 64 + 64 * (n % 16)) 64 c
      rd (Reg.MST_PUB_EN 31) c = 1 ∧ rd (Reg.MST_PUB_LOC 31) c < 2 ∧ funcLive 0 0 c = true ∧ pubPolled 31 c = true ∧ rd (Reg.MST_PUB_CONSUMED 31) c = 0 ∧ 2 ^ rd (Reg.MST_PUB_LOG2 31) c = 16 ∧
      (slot 0).2 = false ∧ (slot 1).2 = false ∧ leNat (((slot 0).1.drop 60).take 1) % 2 = p ∧ leNat (((slot 1).1.drop 60).take 1) % 2 = 0 ∧
      (readRange reach.1 (reach.2 + 64) 64 (poisonRange (spHost 0) (0x10000 + 64) 64 c)).2 = true) ∧
    (rd (Reg.MST_PUB_EN 30) (pub 0 0) ≠ 1 ∧ funcLive 0 0 (wr (Reg.HEP_DSTATE 0) 1 (pub 0 0)) = false) := by decide

set_option maxRecDepth 100000 in
theorem witness_ManagementPorts :
    (let c := Chip.reset
     funcLive 0 0 c = true ∧ c.boot.hold = false ∧ funcLive 1 0 (wr (Reg.HEP_FLR_BUSY 1) 1 c) = false ∧ ({ c with boot := { c.boot with hold := true } }).boot.hold = true ∧ rd (Reg.THM_VALID 75) c ≠ 1 ∧
     rd (Reg.THM_VALID 75) (wr (Reg.THM_VALID 75) 1 c) = 1) ∧
    (let c := { on [(Hdr.GUARDED 0xB0, 0)] with uartRx := List.replicate 64 65, nonce := some 5 }
     64 ≤ c.uartRx.length ∧ Chip.reset.uartRx.length < 64 ∧ pageState 0xB0 c ≠ 6 ∧ guardOk (.host 0) 0xB0 c = true ∧ guardOk .steward 0xB0 c = true ∧ isSteward .steward = true ∧ isSteward (.host 0) = false ∧
     c.nonce = some 5 ∧ Chip.reset.nonce = none) ∧
    (let c := on [(Reg.SBI_JTAG_FAILS, 2)]
     rd Reg.SBI_JTAG_FAILS c < 3 ∧ 3 ≤ rd Reg.SBI_JTAG_FAILS (wr Reg.SBI_JTAG_FAILS 3 c) ∧ c.nonce ≠ some 0) ∧
    (let c := on [(Reg.BOOT_BOOT_STATE, 6)]
     rd Reg.BOOT_BOOT_STATE c = 6 ∧ rd Reg.SBI_PERST_IN c = 0 ∧ ¬ rd Reg.SBI_PERST_IN (wr Reg.SBI_PERST_IN 3 c) = 0) := by decide

set_option maxRecDepth 100000 in
theorem witness_ModulePower :
    (let c := on [(Reg.SBI_PWR_EN_IN, 1), (Reg.SBI_COOLANT_OK_IN, 1)]
     rd Reg.SBI_PWR_EN_IN c = 1 ∧ rd Reg.SBI_COOLANT_OK_IN c = 1 ∧ c.module.good = true ∧ c.module.noFlow = false) ∧
    (∀ good ∈ [false, true], ∀ low ∈ [false, true], ∀ held ∈ [false, true], ∀ en ∈ [0, 1], let c := { on [(Reg.SBI_PWR_EN_IN, en)] with module := ⟨true, good, low, held, true⟩ }
      c.module.good = good ∧ c.module.low = low ∧ c.module.held = held ∧ c.module.input = true ∧ c.module.noFlow = true ∧ rd Reg.SBI_PWR_EN_IN c = en) ∧
    (36000 ≤ 36000 ∧ 39999 < 40000) ∧ (∀ st ∈ [3, 4], rd Reg.BOOT_BOOT_STATE (on [(Reg.BOOT_BOOT_STATE, st)]) = st) := by decide

/-! ### The queue -/

theorem witness_MemoryCanonical : Memory.wf State.reset.chip.mem = true ∧ queueOk State.reset = true := by decide

/-! ### Worked examples of the spec -/

/-- The block after a command. -/
def after (i : Instr) (c : Chip) : Chip :=
  match exec i ⟨c, []⟩ with
  | .next t => t.chip
  | _ => c

/-- Chapter 05's save of ACC1 = -5 through value registers. -/
theorem test_flrs_saves_high :
    getV (getCore (.churn 0) (after (.flrs (.churn 0) 0 1 0 64) (setCore (.churn 0) (setA CoreSt.reset 1 (-5)) runs0))) 0 = 0xFFFFFFFFFFFFFFFF := by decide
theorem test_accsubs_leaves_low :
    getA (getCore (.churn 0) (after (.accsubs (.churn 0) 1 0 0 64) (setCore (.churn 0) (setA (setV CoreSt.reset 0 0xFFFFFFFFFFFFFFFF) 1 (-5)) runs0))) 1 = 0xFFFFFFFFFFFFFFFB := by decide
theorem test_flru_saves_low :
    getV (getCore (.churn 0) (after (.flru (.churn 0) 1 1 0 0) (setCore (.churn 0) (setA CoreSt.reset 1 0xFFFFFFFFFFFFFFFB) runs0))) 1 = 0xFFFFFFFFFFFFFFFB := by decide
theorem test_accadds_restores :
    getA (getCore (.churn 0) (after (.accadds (.churn 0) 1 0 0 64) (setCore (.churn 0) (setA (setV CoreSt.reset 0 0xFFFFFFFFFFFFFFFF) 1 0xFFFFFFFFFFFFFFFB) runs0))) 1 = -5 := by decide

/-- Chapter 03's four FP32 contributions: W64 partials and the final rounding. -/
theorem test_w64_contributions :
    [0x3FC00000, 0x33800000, 0xBF800000].map (fun x => wireInt 1 (wireOf (wireL 1 0 0) (decodeElem 0 x))) = [0xC0000000000, 0x80000, -0x80000000000] := by decide
theorem test_w64_result : (finalRound (floatFmt 0) false (2 ^ 42 + 2 ^ 20) (-43)).1 = 0x3F000002 := by decide

/-- Chapter 03's W32 limit: 131,072 contributions of the largest FP16 number. -/
theorem test_w32_limit :
    wireInt 0 (wireOf (wireL 0 1 (anchorOfByte 1 (anchorByte 1 (decodeElem 1 0x7BFF)))) (decodeElem 1 0x7BFF)) = 0x3FF8 ∧ finalRound (floatFmt 0) false 0x7FF00000 2 = (0x4FFFE000, false) ∧
    finalRound (floatFmt 1) false 0x7FF00000 2 = (0x7C00, false) ∧ finalRound (floatFmt 1) true 0x7FF00000 2 = (0x7BFF, true) := by decide

/-- Chapter 09's five BF16 contributions on a W32 grid. -/
theorem test_w32_bf16 :
    [0x4040, 0xC000, 0x3C00, 0x3940, 0xBF80].map (fun x => wireInt 0 (wireOf (wireL 0 2 (anchorOfByte 2 0x80)) (decodeElem 2 x))) = [12288, -8192, 32, 1, -4096] := by decide

/-- Chapter 02's semaphore: a grant, and the other port's read. -/
theorem test_sem_grant :
    (after (.semaphoreRead 0 [.host 0] false) (on [(Reg.CRS_SEQUENCE 0, 4)])).out = [.readData (.host 0) 0x00050005] := by decide
theorem test_sem_held :
    (after (.semaphoreRead 0 [.host 1] false) (on [(Reg.CRS_SEQUENCE 0, 5), (Reg.CRS_OWNER 0, 1)])).out = [.readData (.host 1) 0x00050004] := by decide

/-- Chapter 02's refused write of `CH_OWNER_12` by the other port: BLK_REFUSAL of MEM6. -/
theorem test_refusal_word :
    (let c := after (.registerWrite (.host 1) 0xA6 0x130 32 2) (on [(Reg.CRS_OWNER 0, 1), (Reg.PWR_DOM_AWAKE 13, 2 ^ 3)])
     (rd (Hdr.REFUSAL_CODE 0xA6) c, rd (Hdr.REFUSAL_OFFSET 0xA6) c)) = (0x07, 0x130) := by decide

/-- Chapter 15's policer: rows 1, 3 and 6 of its table, and the gain of one edge. -/
def policer (c p : Int) : Chip := tolSet 2 9 { TolQ.off with role := 2, meter := true, redDrop := true, cTok := c * 65536, pTok := p * 65536 } Chip.reset
theorem test_policer_rows :
    ([(16384, 32768), (2384, 20768), (5384, 2768)].map fun x => let r := tolMeter 2 9 8000 0 (policer x.1 x.2); let q := tolGet 2 9 r.2
      (r.1, q.cTok / 65536, q.pTok / 65536, q.green, q.yellow, q.red)) =
    [(true, 8384, 24768, 1, 0, 0), (true, 2384, 12768, 0, 1, 0), (false, 5384, 2768, 0, 0, 1)] := by decide
theorem test_bucket_gain : bucketGain 0xA0000 16384 (8384 * 65536) = 8394 * 65536 := by decide

/-- Chapter 14's frame that outruns its ring: the quadword at 0x08 of the two descriptors. -/
theorem test_rx_discard :
    ((rxBacks ⟨{ sepFrame with bytes := List.replicate 8996 0 }, [], [(0x40, 5, 1, 4096), (0x41, 5, 1, 4096)]⟩ true).map fun b => leNat ((b.body.drop 8).take 8)) =
    [0x0000000505010000, 0x0000000502010000] := by decide

/-- Chapter 18's FLR: HEP1 records FLR. -/
theorem test_flr_recorded :
    (let c := after (.flr 1 1) (on [(Reg.HEP_FLR_BUSY 1, 2)])
     (rd (Hdr.ERR_STATUS 9) c, rd (Hdr.FIRST_VALID 9) c, rd (Hdr.FIRST_CODE 9) c)) = (4, 1, 0x1103) := by decide

/-- Chapter 21: at step 4 a core runs in 12 of 16 periods. -/
theorem test_gated : ((List.range 16).filter fun p => !gated 4 p).length = 12 := by decide

/-- Chapter 23's two characters. -/
theorem test_uart_chars :
    (after (.uartRxChar 0x41 false true false) Chip.reset).uartRx = [0x80000041] ∧ (after (.uartRxChar 0x42 true false false) Chip.reset).uartRx = [0x80000142] := by decide

end Sys2Proof.Tests
end

section
/-! The arithmetic of Sterok words: what the value, pointer and accumulator operations of the model compute, as integer arithmetic (R195, R206, R208). -/

namespace Sys2Proof.Machine

/-! ### Word arithmetic (R206, R208): the model's word operations as integer arithmetic -/

theorem word_shiftLeft_eq (a : Word) (n : Nat) : a <<< n = BitVec.ofNat 64 (a.toNat * 2 ^ n) := by
  apply BitVec.eq_of_toNat_eq
  simp [Nat.shiftLeft_eq]

theorem word_shiftRight_eq (a : Word) (n : Nat) : a >>> n = BitVec.ofNat 64 (a.toNat / 2 ^ n) := by
  apply BitVec.eq_of_toNat_eq
  have hlt : a.toNat / 2 ^ n < 2 ^ 64 := Nat.lt_of_le_of_lt (Nat.div_le_self _ _) a.isLt
  rw [BitVec.toNat_ushiftRight, Nat.shiftRight_eq_div_pow, BitVec.toNat_ofNat, Nat.mod_eq_of_lt hlt]

theorem word_sshiftRight_eq (a : Word) (n : Nat) : a.sshiftRight n = BitVec.ofInt 64 (a.toInt / 2 ^ n) := by
  rw [BitVec.sshiftRight_eq, Int.shiftRight_eq_div_pow, Int.natCast_pow]
  rfl

theorem word_mul_eq (a b : Word) : a * b = BitVec.ofInt 64 (a.toInt * b.toInt) := by
  rw [BitVec.ofInt_mul, BitVec.ofInt_toInt, BitVec.ofInt_toInt]

theorem word_add_eq (a b : Word) : a + b = BitVec.ofNat 64 (a.toNat + b.toNat) := by
  rw [BitVec.ofNat_add, BitVec.ofNat_toNat, BitVec.ofNat_toNat, BitVec.setWidth_eq, BitVec.setWidth_eq]

theorem word_sub_eq (a b : Word) : a - b = BitVec.ofInt 64 (a.toInt - b.toInt) := by
  exact BitVec.eq_of_toInt_eq (by rw [BitVec.toInt_sub, BitVec.toInt_ofInt])

theorem word_addShifted_eq (a b : Word) (n : Nat) : a + b <<< n = BitVec.ofNat 64 (a.toNat + b.toNat * 2 ^ n) := by
  rw [BitVec.ofNat_add, ← word_shiftLeft_eq, BitVec.ofNat_toNat, BitVec.setWidth_eq]

theorem divS_eq (a b : Word) :
    divS a b = if b = 0 then BitVec.allOnes 64 else BitVec.ofInt 64 (a.toInt.tdiv b.toInt) := by
  have hq : a.sdiv b = BitVec.ofInt 64 (a.toInt.tdiv b.toInt) :=
    BitVec.eq_of_toInt_eq (by rw [BitVec.toInt_sdiv, BitVec.toInt_ofInt])
  rw [divS, hq]

theorem divU_eq (a b : Word) :
    divU a b = if b = 0 then BitVec.allOnes 64 else BitVec.ofNat 64 (a.toNat / b.toNat) := by
  have hq : a / b = BitVec.ofNat 64 (a.toNat / b.toNat) := by
    rw [← BitVec.toNat_udiv, BitVec.ofNat_toNat, BitVec.setWidth_eq]
  rw [divU, hq]

theorem remS_eq (a b : Word) : remS a b = if b = 0 then a else BitVec.ofInt 64 (a.toInt.tmod b.toInt) := by
  rw [remS, ← BitVec.toInt_srem, BitVec.ofInt_toInt]

theorem remU_eq (a b : Word) : remU a b = if b = 0 then a else BitVec.ofNat 64 (a.toNat % b.toNat) := by
  rw [remU, ← BitVec.toNat_umod, BitVec.ofNat_toNat, BitVec.setWidth_eq]

/-- A choice by a strict comparison is the choice by the weak one when an equal pair leaves nothing to choose. -/
theorem ite_eq_ite_of_imp {α : Type} {p q : Prop} [Decidable p] [Decidable q] {c d : α} (hpq : p → q)
    (h : q → ¬p → c = d) : (if p then c else d) = if q then c else d := by
  by_cases hp : p
  · rw [if_pos hp, if_pos (hpq hp)]
  · by_cases hq : q
    · rw [if_neg hp, if_pos hq, h hq hp]
    · rw [if_neg hp, if_neg hq]

theorem le_of_slt {a b : Word} (h : a.slt b = true) : a.toInt ≤ b.toInt := Int.le_of_lt (BitVec.slt_iff_toInt_lt.mp h)

theorem eq_of_le_of_not_slt {a b : Word} (hle : a.toInt ≤ b.toInt) (hlt : ¬a.slt b = true) : a = b :=
  BitVec.toInt_inj.mp (Int.le_antisymm hle (Int.not_lt.mp fun h => hlt (BitVec.slt_iff_toInt_lt.mpr h)))

theorem le_of_ult {a b : Word} (h : a.ult b = true) : a.toNat ≤ b.toNat := Nat.le_of_lt (BitVec.ult_iff_lt.mp h)

theorem eq_of_le_of_not_ult {a b : Word} (hle : a.toNat ≤ b.toNat) (hlt : ¬a.ult b = true) : a = b :=
  BitVec.eq_of_toNat_eq (Nat.le_antisymm hle (Nat.not_lt.mp fun h => hlt (BitVec.ult_iff_lt.mpr h)))

/-- `word1` of a test that decides `p`. -/
theorem word1_eq_ite {b : Bool} {p : Prop} [Decidable p] (h : b = true ↔ p) : word1 b = if p then 1 else 0 := by
  unfold word1
  by_cases hp : p
  · rw [if_pos (h.mpr hp), if_pos hp]
  · rw [if_neg fun hb => hp (h.mp hb), if_neg hp]

theorem word1_bne_eq_ite (a b : Word) : word1 (a != b) = if a = b then 0 else 1 := by
  rw [word1_eq_ite bne_iff_ne, ite_not]

/-- The leading zeros of a word are counted by the search for its first one-bit from the top. -/
theorem clz64_eq_find (a : Word) :
    clz64 a = BitVec.ofNat 64 (((List.range 64).find? fun n => a.getLsbD (63 - n)).getD 64) := by
  unfold clz64
  congr 1
  split
  · next h0 =>
    have hnone : ((List.range 64).find? fun n => a.getLsbD (63 - n)) = none := by
      rw [List.find?_range_eq_none]
      intro n _
      simp [BitVec.getLsbD, h0]
    rw [hnone, Option.getD_none]
  · next h0 =>
    have hlog : a.toNat.log2 < 64 := (Nat.log2_lt h0).mpr a.isLt
    have hsome : ((List.range 64).find? fun n => a.getLsbD (63 - n)) = some (63 - a.toNat.log2) := by
      rw [List.find?_range_eq_some]
      refine ⟨?_, List.mem_range.mpr (by omega), fun j hj => ?_⟩
      · rw [BitVec.getLsbD, show 63 - (63 - a.toNat.log2) = a.toNat.log2 by omega, Nat.testBit_log2 h0]
      · have hlt : a.toNat < 2 ^ (63 - j) :=
          Nat.lt_of_lt_of_le Nat.lt_log2_self (Nat.pow_le_pow_right (by decide) (by omega))
        rw [BitVec.getLsbD, Nat.testBit_lt_two_pow hlt, Bool.not_false]
    rw [hsome, Option.getD_some]

theorem popCount_eq_length_filter (n v : Nat) :
    popCount n v = ((List.range n).filter fun i => v.testBit i).length := by
  induction n generalizing v with
  | zero => rfl
  | succ n ih =>
    have hbit : (v.testBit 0).toNat = v % 2 := by
      rw [Nat.testBit_zero]; rcases Nat.mod_two_eq_zero_or_one v with h | h <;> simp [h]
    have htail : ((List.range n).map Nat.succ).filter (fun i => v.testBit i) =
        ((List.range n).filter fun i => (v / 2).testBit i).map Nat.succ := by
      rw [List.filter_map]
      simp only [Function.comp_def, Nat.succ_eq_add_one, Nat.testBit_succ]
    rw [popCount, ih, List.range_succ_eq_map, List.filter_cons, htail, ← hbit]
    cases v.testBit 0 <;> simp [Nat.add_comm]

theorem popc64_eq_length_filter (a : Word) :
    popc64 a = BitVec.ofNat 64 ((List.range 64).filter fun n => a.getLsbD n).length := by
  rw [popc64, popCount_eq_length_filter]; rfl

/-- The low 18 bits that SHI appends are free after the shift, so the union is the sum. -/
theorem word_shiftIn_eq (a : Word) (imm : BitVec 18) :
    (a <<< (18 : Nat)) ||| imm.zeroExtend 64 = a * 2 ^ 18 + BitVec.ofNat 64 imm.toNat := by
  have hfree : a <<< (18 : Nat) &&& imm.zeroExtend 64 = 0#64 := by
    ext j hj
    simp only [BitVec.getElem_and, BitVec.getElem_shiftLeft, BitVec.getElem_zero]
    by_cases h : j < 18
    · simp [h]
    · simp [h, BitVec.getLsbD_of_ge imm j (by omega)]
  rw [← BitVec.add_eq_or_of_and_eq_zero _ _ hfree, BitVec.shiftLeft_eq_mul_twoPow, BitVec.ofNat_toNat]
  rfl

theorem ofNat_add_signExtend_eq (p : Nat) (imm : BitVec 18) :
    BitVec.ofNat 64 p + imm.signExtend 64 = BitVec.ofInt 64 (p + imm.toInt) := by
  rw [BitVec.ofInt_add, BitVec.ofInt_natCast]; rfl

theorem word_add_signExtend_eq (a : Word) (imm : BitVec 18) :
    a + imm.signExtend 64 = BitVec.ofInt 64 (a.toInt + imm.toInt) := by
  rw [BitVec.ofInt_add, BitVec.ofInt_toInt]; rfl

theorem slt_signExtend_iff (a : Word) (imm : BitVec 18) : a.slt (imm.signExtend 64) = true ↔ a.toInt < imm.toInt := by
  rw [BitVec.slt_iff_toInt_lt, BitVec.toInt_signExtend_of_le (by decide)]

theorem beq_signExtend_iff (a : Word) (imm : BitVec 18) : (a == imm.signExtend 64) = true ↔ a.toInt = imm.toInt := by
  rw [beq_iff_eq, ← BitVec.toInt_inj, BitVec.toInt_signExtend_of_le (by decide)]

/-! ### Rounding of accumulators (R195) -/

/-- Half-even rounding by sign and magnitude is half-even rounding of the floor: the tie goes to the even one of the two
neighbours, whichever side of 0 they lie on. -/
theorem roundHalfEven_eq (v : Int) (d : Nat) :
    roundHalfEven v d =
      if 2 * (v % 2 ^ d) < 2 ^ d ∨ (2 * (v % 2 ^ d) = 2 ^ d ∧ v / 2 ^ d % 2 = 0) then v / 2 ^ d else v / 2 ^ d + 1 := by
  unfold roundHalfEven roundShift
  cases d with
  | zero =>
    simp only [if_true, Int.pow_zero, Int.emod_one, Int.ediv_one]
    split <;> split <;> omega
  | succ d =>
    have hpow : (2 : Nat) ^ (d + 1) = 2 * 2 ^ d := by rw [Nat.pow_succ, Nat.mul_comm]
    have hpowI : (2 : Int) ^ (d + 1) = 2 * ((2 ^ d : Nat) : Int) := by
      rw [Int.pow_succ, Int.natCast_pow, Int.mul_comm]; rfl
    have hpos : 0 < 2 ^ d := Nat.two_pow_pos d
    simp only [Nat.add_one_ne_zero, if_false, Nat.add_sub_cancel, hpow, hpowI]
    generalize 2 ^ d = h at hpos
    have hmag : v.natAbs % (2 * h) + 2 * h * (v.natAbs / (2 * h)) = v.natAbs := Nat.mod_add_div _ _
    have hrem : v.natAbs % (2 * h) < 2 * h := Nat.mod_lt _ (by omega)
    generalize v.natAbs / (2 * h) = q at hmag
    generalize v.natAbs % (2 * h) = r at hmag hrem
    have hval : (r : Int) + 2 * h * q = v.natAbs := by exact_mod_cast hmag
    by_cases hneg : v < 0
    · rw [if_pos hneg]
      by_cases hr : r = 0
      · obtain ⟨hq, hm⟩ := (Int.ediv_emod_unique (a := v) (b := 2 * h) (r := 0) (q := -q) (by omega)).mpr
          ⟨by subst hr; rw [Int.mul_neg]; omega, by omega, by omega⟩
        rw [hq, hm]; split <;> split <;> omega
      · obtain ⟨hq, hm⟩ := (Int.ediv_emod_unique (a := v) (b := 2 * h) (r := 2 * h - r) (q := -q - 1) (by omega)).mpr
          ⟨by rw [Int.mul_sub, Int.mul_neg]; omega, by omega, by omega⟩
        rw [hq, hm]; split <;> split <;> omega
    · rw [if_neg hneg]
      obtain ⟨hq, hm⟩ := (Int.ediv_emod_unique (a := v) (b := 2 * h) (r := r) (q := q) (by omega)).mpr
        ⟨by omega, by omega, by omega⟩
      rw [hq, hm]; split <;> split <;> omega

end Sys2Proof.Machine
end

section
/-! The shared forms of Sterok instructions: one rule for each form that completes, one for each that is illegal or absent (R189, R197, R207). -/

namespace Sys2Proof.Machine

/-! ### Instructions at their boundary: one rule per shared form -/

variable {i : CoreId} {s : State} {k : CoreSt}

/-- A meaning that completes leaves the registers `k'` and goes on at the next word. -/
theorem runInstr_completes {w n : Nat} {f : CoreSt → Chip → IRes} {k' : CoreSt} (h : atInstr i s.chip = some k)
    (hn : nextWordOk i k) (hf : f k s.chip = .ok k' s.chip none n) (hpc : k'.pc = k.pc) :
    onChip (runInstr i w f) s = completes i k' n s := by
  rw [onChip_runInstr_next h hn hf, completes, hpc]

theorem valOp_completes {x y z : Fin 16} {minor cyc : Nat} {f : Word → Word → Word} {v : Word} (h : atInstr i s.chip = some k)
    (hn : nextWordOk i k) (hv : f (getV k y) (getV k z) = v) :
    onChip (valOp i minor x y z cyc f) s = completes i (setV k x v) cyc s :=
  runInstr_completes h hn (hv ▸ rfl) rfl

theorem immOp_completes {x y : Fin 16} {major : Nat} {imm : BitVec 18} {f : Word → Word} {v : Word}
    (h : atInstr i s.chip = some k) (hn : nextWordOk i k) (hv : f (getV k y) = v) :
    onChip (immOp i major x y imm f) s = completes i (setV k x v) 1 s :=
  runInstr_completes h hn (hv ▸ rfl) rfl

theorem ptrOp_completes {x y z : Fin 16} {minor : Nat} {f : CoreSt → Word} {v : Word} (h : atInstr i s.chip = some k)
    (hn : nextWordOk i k) (hv : f k = v) : onChip (ptrOp i minor x y z f) s = completes i (setP k x v) 1 s :=
  runInstr_completes h hn (hv ▸ rfl) rfl

/-- A meaning that finds its form illegal traps with cause 0x01 and the instruction word (R207). -/
theorem runInstr_illegal {w w' : Nat} {f : CoreSt → Chip → IRes} (h : atInstr i s.chip = some k)
    (hf : f k s.chip = illegal w') : onChip (runInstr i w f) s = traps i 0x01 w' k.pc s.chip s :=
  onChip_runInstr_trap h hf

theorem shifti_completes {x y : Fin 16} {imm : BitVec 18} {v : Word} (h : atInstr i s.chip = some k) (hn : nextWordOk i k)
    (hk : imm.toNat / 64 < 3)
    (hv : (if imm.toNat / 64 = 0 then getV k y <<< (imm.toNat % 64)
      else if imm.toNat / 64 = 1 then getV k y >>> (imm.toNat % 64) else (getV k y).sshiftRight (imm.toNat % 64)) = v) :
    execShifti i x y imm s = completes i (setV k x v) 1 s := by
  have hkind : bits imm.toNat 7 6 = imm.toNat / 64 := by unfold bits; omega
  refine runInstr_completes h hn ?_ rfl
  rw [if_neg (by rw [hkind]; omega), hkind, hv]

theorem shifti_illegal {x y : Fin 16} {imm : BitVec 18} (h : atInstr i s.chip = some k) (hk : 192 ≤ imm.toNat) :
    execShifti i x y imm s = traps i 0x01 (encI 0x05 x y imm) k.pc s.chip s :=
  runInstr_illegal h (if_pos (by unfold bits; omega))

theorem shi_completes {x y : Fin 16} {imm : BitVec 18} (h : atInstr i s.chip = some k) (hn : nextWordOk i k) (hy : y = 0) :
    execShi i x y imm s = completes i (setV k x (getV k x * 2 ^ 18 + BitVec.ofNat 64 imm.toNat)) 1 s := by
  rw [← word_shiftIn_eq]
  exact runInstr_completes h hn (if_pos hy) rfl

/-! ### Accumulators -/

theorem accOp_completes {x y z : Fin 16} {sh : BitVec 7} {minor : Nat} {ok : Bool} {f : CoreSt → CoreSt} {k' : CoreSt}
    (h : atInstr i s.chip = some k) (hn : nextWordOk i k) (hok : ok = true) (hf : f k = k') (hpc : k'.pc = k.pc) :
    onChip (accOp i minor x y z sh ok f) s = completes i k' 2 s :=
  runInstr_completes h hn (by rw [if_pos hok, hf]) hpc

theorem accOp_illegal {x y z : Fin 16} {sh : BitVec 7} {minor : Nat} {ok : Bool} {f : CoreSt → CoreSt}
    (h : atInstr i s.chip = some k) (hok : ok = false) :
    onChip (accOp i minor x y z sh ok f) s = traps i 0x01 (0x34 * 2 ^ 26 + x.val * 2 ^ 22 + y.val * 2 ^ 18 + z.val * 2 ^ 14 +
      (sh.toNat * 2 ^ 7 + minor)) k.pc s.chip s := by
  rw [← Nat.add_assoc]
  exact runInstr_illegal h (if_neg (by simp [hok]))

/-- A write of an accumulator wraps, and sets ACC_OVF when the exact value lies out of range (R194). -/
theorem accPut_eq (k : CoreSt) (x : Nat) (v : Int) :
    accPut k x v = setA (if -(2 ^ 127) ≤ v ∧ v < 2 ^ 127 then k else setStatus k 2 true) x (BitVec.ofInt 128 v) := by
  unfold accPut
  by_cases hin : -(2 ^ 127) ≤ v ∧ v < 2 ^ 127
  · rw [if_pos hin, if_neg (by omega)]
  · rw [if_neg hin, if_pos (by omega)]

theorem accPut_pc (k : CoreSt) (x : Nat) (v : Int) : (accPut k x v).pc = k.pc := by
  rw [accPut_eq]; split <;> rfl

/-- An accumulator instruction that writes an accumulator with an exact value. -/
theorem accOp_puts {x y z : Fin 16} {sh : BitVec 7} {minor : Nat} {ok : Bool} {v : CoreSt → Int}
    (h : atInstr i s.chip = some k) (hn : nextWordOk i k) (hok : ok = true) :
    onChip (accOp i minor x y z sh ok fun k => accPut k x (v k)) s =
      completes i (setA (if -(2 ^ 127) ≤ v k ∧ v k < 2 ^ 127 then k else setStatus k 2 true) x (BitVec.ofInt 128 (v k))) 2 s := by
  rw [← accPut_eq]
  exact accOp_completes h hn hok rfl (accPut_pc _ _ _)

/-- The bounds of a read move's result. -/
abbrev readLow (signed : Bool) : Int := if signed then -(2 ^ 63) else 0
abbrev readHigh (signed : Bool) : Int := if signed then 2 ^ 63 - 1 else 2 ^ 64 - 1

theorem readLow_le_readHigh (signed : Bool) : readLow signed ≤ readHigh signed := by cases signed <;> decide

theorem clamp_eq_max_min {lo hi : Int} (v : Int) (h : lo ≤ hi) :
    (if v < lo then lo else if hi < v then hi else v) = max lo (min hi v) := by
  split
  · omega
  · split <;> omega

/-- A read move clamps to its bounds, and sets SAT when the value lies outside (R195). -/
theorem accRead_eq (k : CoreSt) (x : Nat) (v : Int) (signed : Bool) :
    accRead k x v signed =
      setV (if readLow signed ≤ v ∧ v ≤ readHigh signed then k else setStatus k 0 true) x
        (BitVec.ofInt 64 (max (readLow signed) (min (readHigh signed) v))) := by
  have hle := readLow_le_readHigh signed
  have hsat : max (readLow signed) (min (readHigh signed) v) = v ↔ readLow signed ≤ v ∧ v ≤ readHigh signed := by omega
  simp only [accRead, clamp_eq_max_min v hle, hsat]

theorem accRead_pc (k : CoreSt) (x : Nat) (v : Int) (signed : Bool) : (accRead k x v signed).pc = k.pc := by
  rw [accRead_eq]; split <;> rfl

/-- An accumulator instruction that reads an accumulator into a value register. -/
theorem accOp_reads {x y z : Fin 16} {sh : BitVec 7} {minor : Nat} {ok signed : Bool} {v : CoreSt → Int} {r : Int}
    (h : atInstr i s.chip = some k) (hn : nextWordOk i k) (hok : ok = true) (hv : v k = r) :
    onChip (accOp i minor x y z sh ok fun k => accRead k x (v k) signed) s =
      completes i (setV (if readLow signed ≤ r ∧ r ≤ readHigh signed then k else setStatus k 0 true) x
        (BitVec.ofInt 64 (max (readLow signed) (min (readHigh signed) r)))) 2 s := by
  rw [← accRead_eq, ← hv]
  exact accOp_completes h hn hok rfl (accRead_pc _ _ _ _)

/-! ### Instructions that a running tile operation would delay -/

theorem afterTile_of_idle {c : Chip} (ht : (getCore i c).tile = none) : afterTile i c = c := by
  cases i with
  | churn n => simp only [afterTile, waitTile, ht, ite_self]
  | wayside w => rfl
  | steward => rfl

theorem waitOverlap_of_idle {c : Chip} (y : Fin 16) (mode : BitVec 2) (disp : BitVec 16) (n : Nat)
    (ht : (getCore i c).tile = none) : waitOverlap i y mode disp n c = c := by
  cases i with
  | churn m => simp [waitOverlap, tileWriteOverlap, ht]
  | wayside w => rfl
  | steward => rfl

theorem loadOp_illegal {major n : Nat} {x y : Fin 16} {mode : BitVec 2} {disp : BitVec 16} {put : CoreSt → Nat → CoreSt}
    (h : atInstr i s.chip = some k) (ht : (getCore i s.chip).tile = none) (hm : memIllegal y mode = true) :
    onChip (loadOp i major n x y mode disp put) s = traps i 0x01 (encM major x y mode disp) k.pc s.chip s := by
  unfold onChip loadOp
  rw [waitOverlap_of_idle y mode disp n ht]
  exact runInstr_illegal h (if_pos hm)

theorem storeOp_illegal {major n : Nat} {x y : Fin 16} {mode : BitVec 2} {disp : BitVec 16} {val : CoreSt → Word}
    (h : atInstr i s.chip = some k) (ht : (getCore i s.chip).tile = none) (hm : memIllegal y mode = true) :
    onChip (storeOp i major n x y mode disp val) s = traps i 0x01 (encM major x y mode disp) k.pc s.chip s := by
  unfold onChip storeOp
  rw [waitOverlap_of_idle y mode disp n ht]
  exact runInstr_illegal h (if_pos hm)

theorem memIllegal_of {y : Fin 16} {mode : BitVec 2} (hm : mode = 3 ∨ (mode = 2 ∧ 8 ≤ y.val)) : memIllegal y mode = true := by
  rcases hm with rfl | ⟨rfl, hy⟩
  · rfl
  · simpa [memIllegal, Nat.lt_iff_add_one_le] using hy

/-- A tile operation with an odd DN is illegal on every core (R197). -/
theorem tileIssue_odd {major : Nat} {sub : BitVec 6} {dn : Fin 16} {g : Bool} (h : atInstr i s.chip = some k)
    (ht : (getCore i s.chip).tile = none) (hd : dn.val % 2 = 1) :
    onChip (tileIssue i major sub dn g) s = traps i 0x01 (encX major sub dn g) k.pc s.chip s := by
  unfold onChip tileIssue
  rw [afterTile_of_idle ht]
  exact runInstr_illegal h (if_pos hd)

/-- The tile majors are absent outside the Churn cores (R189). -/
theorem tileIssue_absent {major : Nat} {sub : BitVec 6} {dn : Fin 16} {g : Bool} (h : atInstr i s.chip = some k)
    (ht : (getCore i s.chip).tile = none) (hi : isChurn i = false) (hd : dn.val % 2 = 0) :
    onChip (tileIssue i major sub dn g) s = traps i 0x02 (encX major sub dn g) k.pc s.chip s := by
  have hodd : ¬dn.val % 2 = 1 := by omega
  unfold onChip tileIssue
  rw [afterTile_of_idle ht]
  refine onChip_runInstr_trap h ?_
  cases i with
  | churn n => cases hi
  | wayside w => exact if_neg hodd
  | steward => exact if_neg hodd

theorem digest_odd {sub : BitVec 6} {dn : Fin 16} {g : Bool} (h : atInstr i s.chip = some k)
    (ht : (getCore i s.chip).tile = none) (hd : dn.val % 2 = 1) :
    execDigest i sub dn g s = traps i 0x01 (encX 0x3C sub dn g) k.pc s.chip s := by
  cases i with
  | churn n => exact tileIssue_odd h ht hd
  | wayside w => exact runInstr_illegal h (if_pos hd)
  | steward => exact tileIssue_odd h ht hd

theorem atomicOp_absent {x y z : Fin 16} {minor : Nat} {f : CoreSt → Word → Option Word} (h : atInstr i s.chip = some k)
    (hi : isChurn i = true) :
    onChip (atomicOp i minor x y z f) s = traps i 0x01 (encT 0x32 minor x y z) k.pc s.chip s :=
  runInstr_illegal h (if_pos hi)

theorem eventOp_absent {x : Fin 16} {slot : BitVec 3} {imm : BitVec 16} {minor : Nat} {f : Fin 336 → CoreSt → Chip → IRes}
    (h : atInstr i s.chip = some k) (hi : isChurn i = false) :
    onChip (eventOp i minor x slot imm f) s = traps i 0x01 (encE minor x slot imm) k.pc s.chip s := by
  refine runInstr_illegal h ?_
  cases i with
  | churn n => cases hi
  | wayside w => rfl
  | steward => rfl

/-- HALT and MARK wait for the tile of a Churn core only, so elsewhere they are absent as they stand. -/
theorem halt_absent {x : Fin 16} {slot : BitVec 3} {imm : BitVec 16} (h : atInstr i s.chip = some k) (hi : isChurn i = false) :
    execHalt i x slot imm s = traps i 0x01 (encE 0 x slot imm) k.pc s.chip s := by
  cases i with
  | churn n => cases hi
  | wayside w => exact eventOp_absent h hi
  | steward => exact eventOp_absent h hi

theorem mark_absent {x : Fin 16} {slot : BitVec 3} {imm : BitVec 16} (h : atInstr i s.chip = some k) (hi : isChurn i = false) :
    execMark i x slot imm s = traps i 0x01 (encE 4 x slot imm) k.pc s.chip s := by
  cases i with
  | churn n => cases hi
  | wayside w => exact eventOp_absent h hi
  | steward => exact eventOp_absent h hi

end Sys2Proof.Machine
end

section
/-! The register instructions of the Sterok cores. -/

namespace Sys2Proof.Proofs

open Sys2Proof.Machine

/-- Settles O2: each instruction by the rule of its shared form, each value by the arithmetic of its word operation. -/
theorem registerInstructions : Obligations.RegisterInstructions := by
  unfold Obligations.RegisterInstructions
  refine ⟨?values, ?immediates, ?pointers, ?accumulators, ?illegalForms, ?absent⟩
  case values =>
    intro i s k x y z h hn a b puts
    exact ⟨valOp_completes h hn rfl,
      valOp_completes h hn rfl,
      valOp_completes h hn rfl,
      valOp_completes h hn rfl,
      valOp_completes h hn rfl,
      valOp_completes h hn rfl,
      valOp_completes h hn (word_shiftLeft_eq _ _),
      valOp_completes h hn (word_shiftRight_eq _ _),
      valOp_completes h hn (word_sshiftRight_eq _ _),
      valOp_completes h hn (word_mul_eq _ _),
      valOp_completes h hn rfl,
      valOp_completes h hn rfl,
      valOp_completes h hn (divS_eq _ _),
      valOp_completes h hn (divU_eq _ _),
      valOp_completes h hn (remS_eq _ _),
      valOp_completes h hn (remU_eq _ _),
      valOp_completes h hn (ite_eq_ite_of_imp le_of_slt eq_of_le_of_not_slt),
      valOp_completes h hn (ite_eq_ite_of_imp le_of_slt fun hle hlt => (eq_of_le_of_not_slt hle hlt).symm),
      valOp_completes h hn (ite_eq_ite_of_imp le_of_ult eq_of_le_of_not_ult),
      valOp_completes h hn (ite_eq_ite_of_imp le_of_ult fun hle hlt => (eq_of_le_of_not_ult hle hlt).symm),
      valOp_completes h hn (word1_eq_ite beq_iff_eq),
      valOp_completes h hn (word1_bne_eq_ite _ _),
      valOp_completes h hn (word1_eq_ite BitVec.slt_iff_toInt_lt),
      valOp_completes h hn (word1_eq_ite BitVec.ult_iff_lt),
      fun hz => runInstr_completes h hn ((if_pos hz).trans (by rw [clz64_eq_find])) rfl,
      fun hz => runInstr_completes h hn ((if_pos hz).trans (by rw [popc64_eq_length_filter])) rfl⟩
  case immediates =>
    intro i s k x y imm h hn a sx zx puts
    exact ⟨immOp_completes h hn rfl,
      immOp_completes h hn rfl,
      immOp_completes h hn (congrArg (a ||| ·) (BitVec.ofNat_toNat 64 imm).symm),
      immOp_completes h hn (congrArg (a ^^^ ·) (BitVec.ofNat_toNat 64 imm).symm),
      fun hs => shifti_completes h hn (by omega) (by rw [if_pos hs, word_shiftLeft_eq]),
      fun hs => shifti_completes h hn (by omega) (by rw [if_neg (by omega), if_pos hs, word_shiftRight_eq]),
      fun hs => shifti_completes h hn (by omega) (by rw [if_neg (by omega), if_neg (by omega), word_sshiftRight_eq]),
      fun hy => runInstr_completes h hn (if_pos hy) rfl,
      fun hy => shi_completes h hn hy,
      immOp_completes h hn (word1_eq_ite (slt_signExtend_iff _ _)),
      immOp_completes h hn (word1_eq_ite (beq_signExtend_iff _ _))⟩
  case pointers =>
    intro i s k x y z sh imm h hn p puts
    exact ⟨ptrOp_completes h hn (word_add_eq _ _),
      ptrOp_completes h hn (word_sub_eq _ _),
      ptrOp_completes h hn (word_addShifted_eq _ _ _),
      ptrOp_completes h hn rfl,
      runInstr_completes h hn rfl rfl,
      runInstr_completes h hn (by rw [word_add_signExtend_eq]) rfl,
      fun hy => runInstr_completes h hn ((if_pos hy).trans (by rw [ofNat_add_signExtend_eq])) rfl⟩
  case accumulators =>
    intro i s k x y z sh h hn q a puts v fl half reads
    have ok : ∀ {r : Fin 16}, r.val < 4 → decide (r.val < 4) = true := decide_eq_true
    exact ⟨fun hx => accOp_puts h hn (ok hx),
      fun hx => accOp_puts h hn (ok hx),
      fun hx => accOp_puts h hn (ok hx),
      fun hx => accOp_puts h hn (ok hx),
      fun hx => accOp_puts h hn (ok hx),
      fun hx => accOp_puts h hn (ok hx),
      fun hx => accOp_completes h hn (ok hx) rfl rfl,
      fun hx hy => accOp_puts h hn (by rw [ok hx, ok hy, Bool.and_self]),
      fun hy => accOp_reads h hn (ok hy) (roundHalfEven_eq _ _),
      fun hy => accOp_reads h hn (ok hy) (roundHalfEven_eq _ _),
      fun hy => accOp_reads h hn (ok hy) rfl,
      fun hy => accOp_reads h hn (ok hy) rfl⟩
  case illegalForms =>
    intro i s k x y z imm mode disp sh sub g h ht t3 im me ac cp bad
    have no : ∀ {r : Fin 16}, 4 ≤ r.val → decide (r.val < 4) = false := fun hr => decide_eq_false (Nat.not_lt.mpr hr)
    refine ⟨fun hz => ⟨runInstr_illegal h (if_neg hz), runInstr_illegal h (if_neg hz)⟩,
      fun hk => shifti_illegal h hk,
      fun hy => ⟨runInstr_illegal h (if_neg hy), runInstr_illegal h (if_neg hy), runInstr_illegal h (if_neg hy),
        runInstr_illegal h (if_pos hy)⟩,
      fun hm => ?_,
      fun hx => ⟨accOp_illegal h (no hx), accOp_illegal h (no hx), accOp_illegal h (no hx), accOp_illegal h (no hx),
        accOp_illegal h (no hx), accOp_illegal h (no hx), accOp_illegal h (no hx)⟩,
      fun hxy => accOp_illegal h ?_,
      fun hy => ⟨accOp_illegal h (no hy), accOp_illegal h (no hy), accOp_illegal h (no hy), accOp_illegal h (no hy)⟩,
      fun hd => ⟨tileIssue_odd h ht hd, tileIssue_odd h ht hd, tileIssue_odd h ht hd, tileIssue_odd h ht hd,
        digest_odd h ht hd⟩⟩
    · have hill := memIllegal_of hm
      exact ⟨loadOp_illegal h ht hill, loadOp_illegal h ht hill, loadOp_illegal h ht hill, loadOp_illegal h ht hill,
        loadOp_illegal h ht hill, loadOp_illegal h ht hill, loadOp_illegal h ht hill, loadOp_illegal h ht hill,
        storeOp_illegal h ht hill, storeOp_illegal h ht hill, storeOp_illegal h ht hill, storeOp_illegal h ht hill,
        storeOp_illegal h ht hill⟩
    · rcases hxy with hx | hy
      · rw [no hx, Bool.false_and]
      · rw [no hy, Bool.and_false]
  case absent =>
    intro i s k x y z slot imm sub g h ht am ev cp
    exact ⟨fun hi => ⟨atomicOp_absent h hi, atomicOp_absent h hi, atomicOp_absent h hi, atomicOp_absent h hi,
        atomicOp_absent h hi⟩,
      fun hi => ⟨halt_absent h hi, eventOp_absent h hi, eventOp_absent h hi, eventOp_absent h hi, mark_absent h hi⟩,
      fun hi hd => ⟨tileIssue_absent h ht hi hd, tileIssue_absent h ht hi hd, tileIssue_absent h ht hi hd,
        tileIssue_absent h ht hi hd, fun hst => by subst hst; exact tileIssue_absent h ht rfl hd⟩⟩

end Sys2Proof.Proofs
end

section
/-! Traps of the Sterok cores: entry on each kind of core (R214, R216), and the instructions that trap, return and wait (R206, R212, R217). -/

namespace Sys2Proof.Machine

/-! ### Entry on a Wayside core or the Steward (R216) -/

/-- P15 and SUP_SP exchanged. -/
def exchangeSp (k : CoreSt) : CoreSt := { setP k 15 k.supSp with supSp := getP k 15 }

@[simp] theorem getP_exchangeSp_same (k : CoreSt) : getP (exchangeSp k) 15 = k.supSp := getP_setP_same k 15 _
theorem getP_exchangeSp_ne (k : CoreSt) {r : Nat} (h : r ≠ 15) : getP (exchangeSp k) r = getP k r := getP_setP_ne k _ h

/-- The trap registers written, before the exchange of the stack pointers. -/
def trapRecord (k : CoreSt) (cause val pc : Nat) : CoreSt :=
  let k' := { k with trapCause := BitVec.ofNat 64 cause, trapPc := BitVec.ofNat 64 pc, trapVal := BitVec.ofNat 64 val }
  setStatus (setStatus (setStatus k' 5 (statusBit k 4)) 4 true) 3 false

theorem statusBit_trapRecord (k : CoreSt) (cause val pc b : Nat) :
    statusBit (trapRecord k cause val pc) b =
      if b = 5 then statusBit k 4 else if b = 4 then true else if b = 3 then false else statusBit k b := by
  rw [trapRecord, statusBit_setStatus _ _ _ _ (by decide), statusBit_setStatus _ _ _ _ (by decide),
    statusBit_setStatus _ _ _ _ (by decide)]
  by_cases h3 : b = 3
  · subst h3; rfl
  by_cases h4 : b = 4
  · subst h4; rfl
  by_cases h5 : b = 5
  · subst h5; rfl
  rw [if_neg h3, if_neg h4, if_neg h5, if_neg h5, if_neg h4, if_neg h3]
  rfl

/-- The registers with which the trap handler begins. -/
def trapRegs (k : CoreSt) (cause val pc : Nat) : CoreSt :=
  { if statusBit k 4 then trapRecord k cause val pc else exchangeSp (trapRecord k cause val pc) with
    pc := k.trapVec.toNat / 4 * 4 }

/-- Trap entry outside the Churn cores changes the core's registers and nothing else of the block. -/
theorem trapEntry_of_not_churn {i : CoreId} (hi : isChurn i = false) (cause val pc : Nat) (c : Chip) :
    trapEntry i cause val pc c = setCore i (trapRegs (getCore i c) cause val pc) c := by
  cases i with
  | churn n => cases hi
  | wayside w => simp only [trapEntry, trapRegs, trapRecord]; cases statusBit (getCore (.wayside w) c) 4 <;> rfl
  | steward => simp only [trapEntry, trapRegs, trapRecord]; cases statusBit (getCore .steward c) 4 <;> rfl

theorem trapRegs_of_user {k : CoreSt} (hu : statusBit k 4 = false) (cause val pc : Nat) :
    trapRegs k cause val pc = { exchangeSp (trapRecord k cause val pc) with pc := k.trapVec.toNat / 4 * 4 } := by
  rw [trapRegs, hu]; rfl

theorem trapRegs_of_supervisor {k : CoreSt} (hs : statusBit k 4 = true) (cause val pc : Nat) :
    trapRegs k cause val pc = { trapRecord k cause val pc with pc := k.trapVec.toNat / 4 * 4 } := by
  rw [trapRegs, hs]; rfl

/-- What a trap keeps and records whichever mode it came from. -/
theorem trapRegs_fields (k : CoreSt) (cause val pc : Nat) :
    (trapRegs k cause val pc).trapCause = BitVec.ofNat 64 cause ∧ (trapRegs k cause val pc).trapPc = BitVec.ofNat 64 pc ∧
    (trapRegs k cause val pc).trapVal = BitVec.ofNat 64 val ∧ (trapRegs k cause val pc).v = k.v ∧
    (trapRegs k cause val pc).acc = k.acc ∧ (trapRegs k cause val pc).wrap = k.wrap ∧
    (trapRegs k cause val pc).status = (trapRecord k cause val pc).status := by
  cases hs : statusBit k 4
  · rw [trapRegs_of_user hs]; exact ⟨rfl, rfl, rfl, rfl, rfl, rfl, rfl⟩
  · rw [trapRegs_of_supervisor hs]; exact ⟨rfl, rfl, rfl, rfl, rfl, rfl, rfl⟩

theorem getP_trapRegs_ne (k : CoreSt) (cause val pc : Nat) {r : Nat} (h : r ≠ 15) :
    getP (trapRegs k cause val pc) r = getP k r := by
  cases hs : statusBit k 4
  · rw [trapRegs_of_user hs]; exact getP_exchangeSp_ne (trapRecord k cause val pc) h
  · rw [trapRegs_of_supervisor hs]; rfl

/-! ### Entry on a Churn core (R214) -/

/-- The error fields of a page other than its status bits. -/
def errDetailFields (p : Nat) : List Fld :=
  [Hdr.ERR_COUNT p, Hdr.FIRST_CODE p, Hdr.FIRST_SEVERITY p, Hdr.FIRST_VALID p, Hdr.FIRST_TIME p]

/-- After the status bit, latching an error changes the page's other error fields only. -/
theorem onlyFields_latchErr_afterStatus (p code sev : Nat) (c : Chip) :
    onlyFields (errDetailFields p) (wr (Hdr.ERR_STATUS p) (rd (Hdr.ERR_STATUS p) c ||| 2 ^ errBit code) c)
      (latchErr p code sev c).1 := by
  have hwr : ∀ f ∈ errDetailFields p, ∀ v c, onlyFields (errDetailFields p) c (wr f v c) := fun f hf v c => onlyFields_wr hf v c
  unfold latchErr
  simp only []
  generalize wr (Hdr.ERR_STATUS p) _ c = c0
  have hcount : onlyFields (errDetailFields p) c0 (bumpSat (Hdr.ERR_COUNT p) 1 c0) :=
    hwr (Hdr.ERR_COUNT p) (by simp [errDetailFields]) _ c0
  refine onlyFields_trans hcount ?_
  generalize bumpSat (Hdr.ERR_COUNT p) 1 c0 = c1
  generalize hd : (if (!(rd (Hdr.ERR_STATUS p) c).testBit (errBit code) && _) = true then pageIrq p c1 else c1) = c2
  have hirq : onlyFields (errDetailFields p) c1 c2 := by
    rw [← hd]; split
    · exact onlyFields_pageIrq _ _ _
    · exact onlyFields_refl _ _
  refine onlyFields_trans hirq ?_
  split
  · exact onlyFields_refl _ _
  · exact onlyFields_trans (hwr (Hdr.FIRST_CODE p) (by simp [errDetailFields]) _ _)
      (onlyFields_trans (hwr (Hdr.FIRST_SEVERITY p) (by simp [errDetailFields]) _ _)
        (onlyFields_trans (hwr (Hdr.FIRST_VALID p) (by simp [errDetailFields]) _ _)
          (hwr (Hdr.FIRST_TIME p) (by simp [errDetailFields]) _ _)))

theorem rd_errStatus_latchErr (p code sev : Nat) (c : Chip) :
    rd (Hdr.ERR_STATUS p) (latchErr p code sev c).1 = (rd (Hdr.ERR_STATUS p) c ||| 2 ^ errBit code) % 2 ^ 32 := by
  have hkey : fldKey (Hdr.ERR_STATUS p) ∉ (errDetailFields p).map fldKey := by
    simp [errDetailFields, fldKey, Hdr.ERR_STATUS, Hdr.ERR_COUNT, Hdr.FIRST_CODE, Hdr.FIRST_SEVERITY, Hdr.FIRST_VALID,
      Hdr.FIRST_TIME]
    omega
  rw [onlyFields_latchErr_afterStatus p code sev c _ hkey, rd_wr_same]
  rfl

/-- An error of a page other than MST sets its bit of the page's status register. -/
theorem testBit_errStatus_raise {p code : Nat} (sev : Nat) (c : Chip) (hp : 7 ≤ p) (hb : errBit code < 32) :
    (rd (Hdr.ERR_STATUS p) (raise p code sev c)).testBit (errBit code) = true := by
  have hkey : fldKey (Hdr.ERR_STATUS p) ∉ (errFields 6 ++ telFields).map fldKey := by
    simp [fldKey, errFields, telFields, Hdr.ERR_STATUS, Hdr.ERR_COUNT, Hdr.FIRST_CODE, Hdr.FIRST_SEVERITY, Hdr.FIRST_VALID,
      Hdr.FIRST_TIME, Reg.MST_CTR, Reg.MST_TEL_SEQ, Reg.MST_TEL_LOST]
    omega
  have hlatched : rd (Hdr.ERR_STATUS p) (raise p code sev c) = rd (Hdr.ERR_STATUS p) (latchErr p code sev c).1 := by
    unfold raise
    simp only []
    split
    · exact onlyFields_telemetry _ _ _ _ _ _ hkey
    · rfl
  rw [hlatched, rd_errStatus_latchErr, Nat.testBit_mod_two_pow, Nat.testBit_or, Nat.testBit_two_pow_self]
  simp [hb]

/-- The own registers of a Churn core's page stand apart from what an error of the page records. -/
theorem rd_raise_corePage {g : Fld} {n code sev : Nat} {c : Chip}
    (hg : g.page = corePage n ∧ 0x100 ≤ g.off ∧ g.off < 0x1000 ∧ g.lo < 128) :
    rd g (raise (corePage n) code sev c) = rd g c := by
  obtain ⟨hp, ho, ho', hl⟩ := hg
  refine onlyFields_raise (corePage n) code sev c g ?_
  simp [fldKey, errFields, telFields, Hdr.ERR_STATUS, Hdr.ERR_COUNT, Hdr.FIRST_CODE, Hdr.FIRST_SEVERITY, Hdr.FIRST_VALID,
    Hdr.FIRST_TIME, Reg.MST_CTR, Reg.MST_TEL_SEQ, Reg.MST_TEL_LOST, hp, corePage]
  omega

theorem getCore_trapEntry_churn (n : Fin 336) (cause val pc : Nat) (c : Chip) :
    getCore (.churn n) (trapEntry (.churn n) cause val pc c) = { getCore (.churn n) c with wait := none, mark := false } := by
  rw [trapEntry, getCore_raise, getCore_wr, getCore_wr, getCore_wr, getCore_setCore_same]

theorem getCore_trapEntry_churn_ne {n : Fin 336} {j : CoreId} (cause val pc : Nat) (c : Chip) (hj : j ≠ .churn n) :
    getCore j (trapEntry (.churn n) cause val pc c) = getCore j c := by
  rw [trapEntry, getCore_raise, getCore_wr, getCore_wr, getCore_wr, getCore_setCore_ne _ _ hj]

theorem trapEntry_churn_mem (n : Fin 336) (cause val pc : Nat) (c : Chip) :
    (trapEntry (.churn n) cause val pc c).mem = c.mem := by
  rw [trapEntry, raise_mem, wr_mem, wr_mem, wr_mem, setCore_mem]

/-- The record of a Churn core's trap in the registers of its page. -/
theorem trapEntry_churn_record (n : Fin 336) {cause val pc : Nat} (c : Chip) (hc : cause < 256) (hpc : pc < 0x10000) :
    rd (Reg.CC_RUN_STATE n.val) (trapEntry (.churn n) cause val pc c) = 4 ∧
    rd (Reg.CC_TRAP_CAUSE n.val) (trapEntry (.churn n) cause val pc c) = cause ∧
    rd (Reg.CC_TRAP_PC n.val) (trapEntry (.churn n) cause val pc c) = pc := by
  have hrs : fldKey (Reg.CC_RUN_STATE n.val) ≠ fldKey (Reg.CC_TRAP_CAUSE n.val) ∧
      fldKey (Reg.CC_RUN_STATE n.val) ≠ fldKey (Reg.CC_TRAP_PC n.val) ∧
      fldKey (Reg.CC_TRAP_CAUSE n.val) ≠ fldKey (Reg.CC_TRAP_PC n.val) := by
    simp [fldKey, Reg.CC_RUN_STATE, Reg.CC_TRAP_CAUSE, Reg.CC_TRAP_PC]
    omega
  obtain ⟨hsc, hsp, hcp⟩ := hrs
  unfold trapEntry
  refine ⟨?_, ?_, ?_⟩
  · rw [rd_raise_corePage (by simp [Reg.CC_RUN_STATE, corePage]), rd_wr_ne _ _ hsp, rd_wr_ne _ _ hsc, rd_wr_same]
    rfl
  · rw [rd_raise_corePage (by simp [Reg.CC_TRAP_CAUSE, corePage]), rd_wr_ne _ _ hcp, rd_wr_same]
    exact Nat.mod_eq_of_lt hc
  · rw [rd_raise_corePage (by simp [Reg.CC_TRAP_PC, corePage]), rd_wr_same]
    exact Nat.mod_eq_of_lt hpc

/-! ### The instructions -/

theorem badTarget_of_not_churn {i : CoreId} (hi : isChurn i = false) (t : Nat) : badTarget i t = false := by
  rw [badTarget, hi, Bool.false_and]

/-- ERET exchanges the stack pointers on a return to user mode, that is with `PPRIV` 0 (R217). -/
theorem eretRegs_eq (k : CoreSt) :
    eretRegs k = if statusBit k 5 then setStatus (setStatus k 4 (statusBit k 5)) 3 true
      else exchangeSp (setStatus (setStatus k 4 (statusBit k 5)) 3 true) := by
  unfold eretRegs
  cases statusBit k 5 <;> rfl

end Sys2Proof.Machine

namespace Sys2Proof.Proofs

open Sys2Proof.Machine

/-- Settles O10: the instructions by the rule of their outcome, entry outside the Churn cores by the registers it leaves
(`trapRegs`), entry on a Churn core by what its record and the error of the page change. -/
theorem traps : Obligations.Traps := by
  unfold Obligations.Traps
  refine ⟨?instructions, ?supervisor, ?churn⟩
  case instructions =>
    intro i s k x ct imm h word pp k1 back
    refine ⟨fun hi => ⟨onChip_runInstr_trap h (if_neg (by simp [hi])), onChip_runInstr_trap h (if_neg (by simp [hi])),
        fun hs => ⟨?_, ?_⟩, fun hu => ⟨?_, ?_⟩⟩,
      fun hi => ⟨runInstr_illegal h (if_pos hi), runInstr_illegal h (if_pos hi), runInstr_illegal h (if_pos hi),
        runInstr_illegal h (if_pos hi)⟩⟩
    · refine onChip_runInstr_some h ?_ (badTarget_of_not_churn hi _)
      rw [if_neg (by simp [hi]), hs, if_neg (by decide), eretRegs_eq]
      rfl
    · refine onChip_runInstr_next h (badTarget_of_not_churn hi _) ?_
      rw [if_neg (by simp [hi]), hs, if_neg (by decide)]
      rfl
    · exact onChip_runInstr_trap h (by rw [if_neg (by simp [hi]), hu]; rfl)
    · exact onChip_runInstr_trap h (by rw [if_neg (by simp [hi]), hu]; rfl)
  case supervisor =>
    intro i cause val pc c hi k k'
    have hk' : k' = trapRegs k cause val pc := by
      rw [show k' = getCore i (trapEntry i cause val pc c) from rfl, trapEntry_of_not_churn hi, getCore_setCore_same]
    obtain ⟨hcause, hpc, hval, hv, hacc, hwrap, hstatus⟩ := trapRegs_fields k cause val pc
    rw [hk', trapEntry_of_not_churn hi]
    refine ⟨hcause, hpc, hval, fun b => ?_, fun hu => ?_, fun hs => ?_, fun r hr => getP_trapRegs_ne k cause val pc hr, rfl,
      hv, hacc, hwrap, fun j hj => getCore_setCore_ne _ _ hj, rfl, rfl⟩
    · rw [hstatus]; exact statusBit_trapRecord k cause val pc b
    · rw [trapRegs_of_user hu]
      exact ⟨getP_exchangeSp_same (trapRecord k cause val pc), rfl⟩
    · rw [trapRegs_of_supervisor hs]
      exact ⟨rfl, rfl⟩
  case churn =>
    intro n cause val pc c hc hpc t
    obtain ⟨hstate, hcause, haddr⟩ := trapEntry_churn_record n (val := val) c hc hpc
    have hcore := getCore_trapEntry_churn n cause val pc c
    exact ⟨hstate, hcause, haddr, testBit_errStatus_raise (code := 0x0107) 0 _ (by omega) (by decide),
      trapEntry_churn_mem n cause val pc c, (congrArg CoreSt.v hcore).trans rfl, (congrArg CoreSt.p hcore).trans rfl,
      (congrArg CoreSt.acc hcore).trans rfl, (congrArg CoreSt.pc hcore).trans rfl,
      fun j hj => getCore_trapEntry_churn_ne cause val pc c hj⟩

end Sys2Proof.Proofs
end

section
/-! Loads and stores of the Sterok cores: the bytes they reach, the base they step and the frame of a store (R141, R201–R206, R209, R212). -/

namespace Sys2Proof.Machine

/-! ### Addresses and bases (R201, R203) -/

theorem memAddr_toNat (k : CoreSt) (y : Fin 16) (mode : BitVec 2) (disp : BitVec 16) :
    (memAddr k y mode disp).toNat =
      if mode = 0 then (getP k y + BitVec.ofInt 64 disp.toInt).toNat else (getP k y).toNat :=
  apply_ite BitVec.toNat _ _ _

theorem stepBase_offset (k : CoreSt) (y : Fin 16) (disp : BitVec 16) : stepBase k y 0 disp = k := rfl

theorem stepBase_postStep (k : CoreSt) (y : Fin 16) (disp : BitVec 16) :
    stepBase k y 1 disp = setP k y (getP k y + BitVec.ofInt 64 disp.toInt) := rfl

/-- The base after an access in wrap mode: the window's length is taken once off a base at or past its end, and added once
to a base before its start. -/
theorem stepBase_wrap {k : CoreSt} {y : Fin 16} {disp : BitVec 16} {p start len : Word}
    (hp : getP k y + BitVec.ofInt 64 disp.toInt = p) (hs : mapGet 0 k.wrap (2 * y.val) = start)
    (hl : mapGet 0 k.wrap (2 * y.val + 1) = len) :
    stepBase k y 2 disp = setP k y (if len = 0 then p else if start.toNat + len.toNat ≤ p.toNat then p - len
      else if p.toNat < start.toNat then p + len else p) := by
  subst hp hs hl
  rfl

/-- The step of the base changes the base register alone. -/
theorem stepBase_frame (k : CoreSt) (y : Fin 16) (mode : BitVec 2) (disp : BitVec 16) :
    (∀ r, r ≠ y.val → getP (stepBase k y mode disp) r = getP k r) ∧ (stepBase k y mode disp).v = k.v ∧
    (stepBase k y mode disp).acc = k.acc ∧ (stepBase k y mode disp).status = k.status ∧
    (stepBase k y mode disp).wrap = k.wrap := by
  unfold stepBase
  split
  · exact ⟨fun _ _ => rfl, rfl, rfl, rfl, rfl⟩
  · exact ⟨fun _ hr => getP_setP_ne k _ hr, rfl, rfl, rfl, rfl⟩

/-! ### Bytes and values (R7, R205) -/

theorem leBytes_eq_map (n v : Nat) : leBytes n v = (List.range n).map fun j => v / 256 ^ j % 256 := by
  induction n generalizing v with
  | zero => rfl
  | succ n ih =>
    rw [leBytes, ih, List.range_succ_eq_map, List.map_cons, List.map_map, Nat.pow_zero, Nat.div_one]
    congr 1
    refine List.map_congr_left fun j _ => ?_
    rw [Function.comp_apply, Nat.div_div_eq_div_mul, Nat.succ_eq_add_one, Nat.pow_succ, Nat.mul_comm 256]

theorem leBytes_length (n v : Nat) : (leBytes n v).length = n := by
  rw [leBytes_eq_map, List.length_map, List.length_range]

theorem leBytes_getD (n v : Nat) {j : Nat} (hj : j < n) : (leBytes n v).getD j 0 = v / 256 ^ j % 256 := by
  rw [leBytes_eq_map]
  simp [List.getD, hj]

theorem leNat_lt (bs : List Nat) : leNat bs < 256 ^ bs.length := by
  induction bs with
  | nil => exact Nat.one_pos
  | cons b t ih =>
    have hb : b % 256 < 256 := Nat.mod_lt _ (by decide)
    rw [leNat, List.length_cons, Nat.pow_succ]
    omega

/-- Sign extension of a value of `n` bytes (R206). -/
theorem toSigned_bytes {n v : Nat} (hv : v < 256 ^ n) :
    toSigned (8 * n) v = if v < 2 ^ (8 * n - 1) then (v : Int) else (v : Int) - (2 ^ (8 * n) : Nat) := by
  have hlt : v < 2 ^ (8 * n) := by rwa [Nat.pow_mul]
  rw [toSigned, Nat.mod_eq_of_lt hlt]

theorem ldPieces_length (ps : List (Nat × Nat × Nat)) (c : Chip) :
    (ldPieces ps c).length = (ps.map fun p => p.2.2).sum := by
  induction ps with
  | nil => rfl
  | cons p r ih =>
    have hp : (ldBytes p.1 p.2.1 p.2.2 c).length = p.2.2 := by rw [ldBytes_eq, List.length_map, List.length_range]
    rw [List.map_cons, List.sum_cons, ← ih, ← hp, ← List.length_append]; rfl

/-! ### Where an access goes (R141, R219) -/

theorem placePhys_at {i : CoreId} {k k' : CoreSt} {kind : MemKind} {pa n : Nat} {c : Chip} {ps : List (Nat × Nat × Nat)}
    (h : placePhys i k kind pa n c = .at k' ps) : (ps.map fun p => p.2.2).sum = n := by
  unfold placePhys at h
  split at h
  · cases h; simp
  · split at h <;> cases h
  · cases h

/-- The pieces of an access hold its bytes, no more and no fewer. -/
theorem locate_at_sum {i : CoreId} {k k' : CoreSt} {kind : MemKind} {a n : Nat} {c : Chip} {ps : List (Nat × Nat × Nat)}
    (h : locate i k kind a n c = .at k' ps) : (ps.map fun p => p.2.2).sum = n := by
  cases i with
  | churn m =>
    simp only [locate] at h
    split at h
    · cases h; simp
    · cases h
  | steward => exact placePhys_at h
  | wayside w =>
    simp only [locate] at h
    split at h
    · cases h
    · split at h
      · exact placePhys_at h
      · split at h
        · cases h
        · split at h
          next hp hq =>
            cases h
            rw [List.map_append, List.sum_append, placePhys_at hp, placePhys_at hq]
            omega
          all_goals cases h

theorem locate_value_lt {i : CoreId} {k k' : CoreSt} {kind : MemKind} {a n : Nat} {c : Chip} {ps : List (Nat × Nat × Nat)}
    (h : locate i k kind a n c = .at k' ps) : leNat (ldPieces ps c) < 256 ^ n := by
  have hlt := leNat_lt (ldPieces ps c)
  rwa [ldPieces_length, locate_at_sum h] at hlt

theorem locate_churn_in (m : Fin 336) (k : CoreSt) (kind : MemKind) {a n : Nat} (c : Chip) (h : a + n ≤ 0x100000) :
    locate (.churn m) k kind a n c = .at k [(spSpad m.val, a, n)] := if_pos h

theorem locate_churn_out (m : Fin 336) (k : CoreSt) (kind : MemKind) {a n : Nat} (c : Chip) (h : 0x100000 < a + n) :
    locate (.churn m) k kind a n c = .trap 0x03 0 := if_neg (by omega)

/-! ### The instructions at their boundary -/

section
variable {i : CoreId} {s : State} {k k' : CoreSt} {major n : Nat} {x y : Fin 16} {mode : BitVec 2} {disp : BitVec 16}
  {put : CoreSt → Nat → CoreSt} {val : CoreSt → Word} {ps : List (Nat × Nat × Nat)}

theorem loadOp_at (h : atInstr i s.chip = some k) (hn : nextWordOk i k) (ht : (getCore i s.chip).tile = none)
    (hm : memIllegal y mode = false) (hl : locate i k .load (memAddr k y mode disp).toNat n s.chip = .at k' ps)
    (hp : piecesPoison ps s.chip = none) :
    onChip (loadOp i major n x y mode disp put) s =
      goesOn i (put (stepBase k' y mode disp) (leNat (ldPieces ps s.chip))) (k.pc + 4)
        (memCycles 2 (memAddr k y mode disp).toNat n) s.chip s := by
  unfold onChip loadOp
  rw [waitOverlap_of_idle y mode disp n ht]
  refine onChip_runInstr_next h hn ?_
  simp only [hm, hl, hp, Bool.false_eq_true, if_false]

theorem loadV_signed_at (h : atInstr i s.chip = some k) (hn : nextWordOk i k) (ht : (getCore i s.chip).tile = none)
    (hm : memIllegal y mode = false) (hl : locate i k .load (memAddr k y mode disp).toNat n s.chip = .at k' ps)
    (hp : piecesPoison ps s.chip = none) :
    onChip (loadV i major n true x y mode disp) s =
      goesOn i (setV (stepBase k' y mode disp) x (BitVec.ofInt 64 (if leNat (ldPieces ps s.chip) < 2 ^ (8 * n - 1)
          then (leNat (ldPieces ps s.chip) : Int) else (leNat (ldPieces ps s.chip) : Int) - (2 ^ (8 * n) : Nat)))) (k.pc + 4)
        (memCycles 2 (memAddr k y mode disp).toNat n) s.chip s := by
  rw [← toSigned_bytes (locate_value_lt hl)]
  exact loadOp_at h hn ht hm hl hp

theorem storeOp_at (h : atInstr i s.chip = some k) (hn : nextWordOk i k) (ht : (getCore i s.chip).tile = none)
    (hm : memIllegal y mode = false) (hl : locate i k .store (memAddr k y mode disp).toNat n s.chip = .at k' ps) :
    onChip (storeOp i major n x y mode disp val) s =
      goesOn i (stepBase k' y mode disp) (k.pc + 4) (memCycles 1 (memAddr k y mode disp).toNat n)
        (stPieces ps ((List.range n).map fun j => (val k).toNat / 256 ^ j % 256) s.chip) s := by
  unfold onChip storeOp
  rw [waitOverlap_of_idle y mode disp n ht, ← leBytes_eq_map]
  refine onChip_runInstr_next h hn ?_
  simp only [hm, hl, Bool.false_eq_true, if_false]

theorem loadOp_trap {cause v : Nat} (h : atInstr i s.chip = some k) (ht : (getCore i s.chip).tile = none)
    (hm : memIllegal y mode = false) (hl : locate i k .load (memAddr k y mode disp).toNat n s.chip = .trap cause v) :
    onChip (loadOp i major n x y mode disp put) s = traps i cause v k.pc s.chip s := by
  unfold onChip loadOp
  rw [waitOverlap_of_idle y mode disp n ht]
  refine onChip_runInstr_trap h ?_
  simp only [hm, hl, Bool.false_eq_true, if_false]

theorem storeOp_trap {cause v : Nat} (h : atInstr i s.chip = some k) (ht : (getCore i s.chip).tile = none)
    (hm : memIllegal y mode = false) (hl : locate i k .store (memAddr k y mode disp).toNat n s.chip = .trap cause v) :
    onChip (storeOp i major n x y mode disp val) s = traps i cause v k.pc s.chip s := by
  unfold onChip storeOp
  rw [waitOverlap_of_idle y mode disp n ht]
  refine onChip_runInstr_trap h ?_
  simp only [hm, hl, Bool.false_eq_true, if_false]

end

/-! ### The frame of a store on a Churn core -/

/-- A Churn core has no interrupts, so nothing happens at its boundaries (R188). -/
theorem boundary_churn (m : Fin 336) (c : Chip) : boundary (.churn m) c = c := rfl

theorem getCore_retire_churn (j : CoreId) (m : Fin 336) (n : Nat) (c : Chip) :
    getCore j (retire (.churn m) n c) = getCore j c := rfl

theorem onlyFields_retire_churn (m : Fin 336) (n : Nat) (c : Chip) :
    onlyFields [Reg.CC_RETIRED m.val, Reg.CC_CYCLES m.val] c (retire (.churn m) n c) :=
  onlyFields_trans (b := bump (Reg.CC_CYCLES m.val) n c) (onlyFields_wr (by simp) _ _) (onlyFields_wr (by simp) _ _)

/-- What an instruction that goes on leaves on a Churn core. -/
theorem goesOn_churn (m : Fin 336) (k : CoreSt) (pc n : Nat) (c : Chip) (s : State) :
    goesOn (.churn m) k pc n c s =
      .next { s with chip := retire (.churn m) n (setCore (.churn m) { k with pc := pc % 2 ^ 64 } c) } := by
  rw [goesOn, boundary_churn]

theorem cellKey_add (sp : Nat) {a j : Nat} (h : a + j < 2 ^ 64) : cellKey sp (a + j) = cellKey sp a + j := by
  rw [cellKey, cellKey, Nat.mod_eq_of_lt h, Nat.mod_eq_of_lt (by omega : a < 2 ^ 64), Nat.add_assoc]

/-- Bytes put into a space read back, -/
theorem ld8_put_in (sp a n v : Nat) (c : Chip) {j : Nat} (ha : a + n ≤ 2 ^ 64) (hj : j < n) :
    ld8 sp (a + j) (put sp a (leBytes n v) c) = v / 256 ^ j % 256 := by
  have hput : ld8 sp (a + j) (put sp a (leBytes n v) c) = ld8 sp (a + j) (stBytes sp a (leBytes n v) c) := rfl
  rw [hput, ld8_stBytes, leBytes_length, cellKey_add sp (by omega), if_pos ⟨by omega, by omega⟩, Nat.add_sub_cancel_left,
    leBytes_getD n v hj, Nat.mod_mod]

/-- and every other byte reads as before. -/
theorem ld8_put_out (sp a n v sp' b : Nat) (c : Chip) (ha : a + n ≤ 2 ^ 64)
    (hout : ¬∃ j, j < n ∧ cellKey sp' b = cellKey sp (a + j)) :
    ld8 sp' b (put sp a (leBytes n v) c) = ld8 sp' b c := by
  have hput : ld8 sp' b (put sp a (leBytes n v) c) = ld8 sp' b (stBytes sp a (leBytes n v) c) := rfl
  rw [hput, ld8_stBytes, leBytes_length, if_neg]
  rintro ⟨hlo, hhi⟩
  exact hout ⟨cellKey sp' b - cellKey sp a, by omega, by rw [cellKey_add sp (by omega)]; omega⟩

/-- A store inside the scratchpad of a Churn core: the bytes put into it, the base stepped, the PC moved on and the counters
advanced; nothing else of the block changes. -/
theorem storeOp_churn_next {m : Fin 336} {s : State} {k : CoreSt} {major n : Nat} {x y : Fin 16} {mode : BitVec 2}
    {disp : BitVec 16} {val : CoreSt → Word} (h : atInstr (.churn m) s.chip = some k) (hn : nextWordOk (.churn m) k)
    (ht : (getCore (.churn m) s.chip).tile = none) (hm : memIllegal y mode = false)
    (ha : (memAddr k y mode disp).toNat + n ≤ 0x100000) :
    ∃ t, onChip (storeOp (.churn m) major n x y mode disp val) s = .next t ∧ t.pending = s.pending ∧
      t.chip.mem = (put (spSpad m.val) (memAddr k y mode disp).toNat (leBytes n (val k).toNat) s.chip).mem ∧
      getCore (.churn m) t.chip = { stepBase k y mode disp with pc := (k.pc + 4) % 2 ^ 64 } ∧
      (∀ j, j ≠ .churn m → getCore j t.chip = getCore j s.chip) ∧
      onlyFields [Reg.CC_RETIRED m.val, Reg.CC_CYCLES m.val] s.chip t.chip := by
  have hrun := storeOp_at (major := major) (x := x) (val := val) h hn ht hm (locate_churn_in m k .store s.chip ha)
  have hall : (leBytes n (val k).toNat).take n = leBytes n (val k).toNat := List.take_of_length_le (Nat.le_of_eq (leBytes_length _ _))
  rw [← leBytes_eq_map, goesOn_churn] at hrun
  simp only [stPieces, hall] at hrun
  refine ⟨_, hrun, rfl, rfl, getCore_setCore_same _ _ _, fun j hj => ?_, ?_⟩
  · rw [getCore_retire_churn, getCore_setCore_ne _ _ hj, getCore_put]
  · exact onlyFields_trans (onlyFields_of_regs rfl) (onlyFields_retire_churn m _ _)

/-- The five stores are one operation, on the register that each names. -/
theorem exec_store {i : CoreId} {s : State} {x y : Fin 16} {mode : BitVec 2} {disp : BitVec 16} {n : Nat} {c : Instr}
    (k : CoreSt) (hc : (c, n) ∈ [(Instr.sb i x y mode disp, 1), (Instr.sh i x y mode disp, 2), (Instr.sw i x y mode disp, 4),
      (Instr.sd i x y mode disp, 8), (Instr.stp i x y mode disp, 8)]) :
    ∃ major val, exec c s = onChip (storeOp i major n x y mode disp val) s ∧
      val k = if c = Instr.stp i x y mode disp then getP k x else getV k x := by
  simp only [List.mem_cons, Prod.mk.injEq, List.not_mem_nil, or_false] at hc
  rcases hc with ⟨rfl, rfl⟩ | ⟨rfl, rfl⟩ | ⟨rfl, rfl⟩ | ⟨rfl, rfl⟩ | ⟨rfl, rfl⟩
  · exact ⟨0x1C, fun k => getV k x, rfl, (if_neg (by simp)).symm⟩
  · exact ⟨0x1D, fun k => getV k x, rfl, (if_neg (by simp)).symm⟩
  · exact ⟨0x1E, fun k => getV k x, rfl, (if_neg (by simp)).symm⟩
  · exact ⟨0x1F, fun k => getV k x, rfl, (if_neg (by simp)).symm⟩
  · exact ⟨0x20, fun k => getP k x, rfl, (if_pos rfl).symm⟩

end Sys2Proof.Machine

namespace Sys2Proof.Proofs

open Sys2Proof.Machine

/-- Settles O7: loads and stores by the rule of their operation, the frame by the chip that a store on a Churn core leaves. -/
theorem loadsAndStores : Obligations.LoadsAndStores := by
  unfold Obligations.LoadsAndStores
  refine ⟨?loads, ?stores, ?storeFrame, ?range, ?base⟩
  case loads =>
    intro i s k k' x y mode disp n ps h hn ht hm a hl hp v sx zx gives b
    have ha : a = (memAddr k y mode disp).toNat := (memAddr_toNat k y mode disp).symm
    rw [ha] at hl
    simp only [gives, ha]
    refine ⟨?_, ?_, ?_, ?_⟩
    · rintro rfl
      exact ⟨loadV_signed_at h hn ht hm hl hp, loadOp_at h hn ht hm hl hp⟩
    · rintro rfl
      exact ⟨loadV_signed_at h hn ht hm hl hp, loadOp_at h hn ht hm hl hp⟩
    · rintro rfl
      exact ⟨loadV_signed_at h hn ht hm hl hp, loadOp_at h hn ht hm hl hp⟩
    · rintro rfl
      exact ⟨loadOp_at h hn ht hm hl hp, loadOp_at h hn ht hm hl hp⟩
  case stores =>
    intro i s k k' x y mode disp n ps h hn ht hm a hl gives
    have ha : a = (memAddr k y mode disp).toNat := (memAddr_toNat k y mode disp).symm
    rw [ha] at hl
    simp only [gives, ha]
    refine ⟨?_, ?_, ?_, ?_⟩
    · rintro rfl
      exact storeOp_at h hn ht hm hl
    · rintro rfl
      exact storeOp_at h hn ht hm hl
    · rintro rfl
      exact storeOp_at h hn ht hm hl
    · rintro rfl
      exact ⟨storeOp_at h hn ht hm hl, storeOp_at h hn ht hm hl⟩
  case storeFrame =>
    intro m s k x y mode disp i h hn ht hm a n c hc hin
    obtain ⟨major, val, hexec, hval⟩ := exec_store (s := s) k hc
    obtain ⟨t, hrun, hpending, hmem, hcore, hothers, hregs⟩ :=
      storeOp_churn_next (major := major) (x := x) (val := val) h hn ht hm hin
    obtain ⟨hp, hv, hacc, hstatus, hwrap⟩ := stepBase_frame k y mode disp
    have hroom : a + n ≤ 2 ^ 64 := by omega
    refine ⟨t, hexec.trans hrun, hpending, fun sp b hout => ?_, fun j hj => ?_, fun r hr => ?_, fun hmode => ?_, ?_, ?_, ?_, ?_,
      hothers, hregs⟩
    · rw [ld8_congr hmem, ld8_put_out _ _ _ _ _ _ _ hroom hout]
    · rw [ld8_congr hmem, ld8_put_in _ _ _ _ _ hroom hj, hval]
    · rw [hcore]; exact hp r hr
    · rw [hcore, hmode]; rfl
    · rw [hcore]; exact hv
    · rw [hcore]; exact hacc
    · rw [hcore]; exact hstatus
    · rw [hcore]; exact hwrap
  case range =>
    intro m s k x y mode disp i h ht hm a out
    have loads : ∀ {major n put}, 0x100000 < a + n →
        onChip (loadOp i major n x y mode disp put) s = Machine.traps i 0x03 0 k.pc s.chip s :=
      fun ho => loadOp_trap h ht hm (locate_churn_out m k .load s.chip ho)
    have stores : ∀ {major n val}, 0x100000 < a + n →
        onChip (storeOp i major n x y mode disp val) s = Machine.traps i 0x03 0 k.pc s.chip s :=
      fun ho => storeOp_trap h ht hm (locate_churn_out m k .store s.chip ho)
    exact ⟨loads, loads, loads, loads, loads, loads, loads, loads, stores, stores, stores, stores, stores⟩
  case base =>
    intro k y disp p start len
    have hwrap : stepBase k y 2 disp = _ := stepBase_wrap (p := p) (start := start) (len := len) rfl rfl rfl
    refine ⟨stepBase_offset k y disp, stepBase_postStep k y disp, fun hlen => ?_, fun hlen hend => ?_, fun hlen hlow => ?_,
      fun hlow hend => ?_⟩
    · rw [hwrap, if_pos hlen]
    · rw [hwrap, if_neg hlen, if_pos hend]
    · rw [hwrap, if_neg hlen, if_neg (by omega), if_pos hlow]
    · rw [hwrap, if_neg (Nat.not_le.mpr hend), if_neg (Nat.not_lt.mpr hlow), ite_self]

end Sys2Proof.Proofs
end

section
/-! Bit fields written in a register, the awake bits of the power domains and what a domain's sleep leaves alone (R790–R797). -/

namespace Sys2Proof.Machine

/-! ### Bits of a written field -/

theorem testBit_setBits (v lo w x m : Nat) :
    (setBits v lo w x).testBit m = if m < lo then v.testBit m else if m < lo + w then x.testBit (m - lo) else v.testBit m := by
  have hsplit : setBits v lo w x = 2 ^ lo * (2 ^ w * (v / 2 ^ (lo + w)) + x % 2 ^ w) + v % 2 ^ lo := by
    rw [setBits, Nat.mul_add, ← Nat.mul_assoc, ← Nat.pow_add]
    ac_rfl
  rw [hsplit, Nat.testBit_two_pow_mul_add _ (Nat.mod_lt _ (Nat.two_pow_pos lo)),
    Nat.testBit_two_pow_mul_add _ (Nat.mod_lt _ (Nat.two_pow_pos w)), Nat.testBit_div_two_pow, Nat.testBit_mod_two_pow,
    Nat.testBit_mod_two_pow]
  by_cases hlo : m < lo
  · rw [if_pos hlo, if_pos hlo, decide_eq_true hlo, Bool.true_and]
  rw [if_neg hlo, if_neg hlo]
  by_cases hw : m < lo + w
  · have hw' : m - lo < w := by omega
    rw [if_pos hw, if_pos hw', decide_eq_true hw', Bool.true_and]
  · rw [if_neg hw, if_neg (by omega), show m - lo - w + (lo + w) = m by omega]

theorem testBit_setBits_one (v n m : Nat) (b : Bool) :
    (setBits v n 1 (b2n b)).testBit m = if m = n then b else v.testBit m := by
  rw [testBit_setBits]
  by_cases hlt : m < n
  · rw [if_pos hlt, if_neg (Nat.ne_of_lt hlt)]
  rw [if_neg hlt]
  by_cases heq : m = n
  · rw [if_pos (by omega), if_pos heq, heq, Nat.sub_self]
    cases b <;> rfl
  · rw [if_neg (by omega), if_neg heq]

/-- The bits written read back. -/
theorem setBits_div_mod (v lo w x : Nat) : setBits v lo w x / 2 ^ lo % 2 ^ w = x % 2 ^ w := by
  refine Nat.eq_of_testBit_eq fun j => ?_
  rw [Nat.testBit_mod_two_pow, Nat.testBit_div_two_pow, testBit_setBits, Nat.testBit_mod_two_pow]
  by_cases hj : j < w
  · rw [if_neg (by omega), if_pos (by omega), Nat.add_sub_cancel]
  · rw [decide_eq_false hj, Bool.false_and, Bool.false_and]

/-! ### Domains and PLLs -/

theorem fldKey_domAwake_inj {v w : Nat} (h : fldKey (Reg.PWR_DOM_AWAKE v) = fldKey (Reg.PWR_DOM_AWAKE w)) : v = w := by
  simp only [fldKey, Reg.PWR_DOM_AWAKE] at h; omega

/-- The awake bits of the power domains stand apart from the counters of PWR. -/
theorem fldKey_pwrCtr_ne_domAwake {d : Nat} (hd : d < 431) (k : Nat) :
    fldKey (Reg.PWR_CTR k) ≠ fldKey (Reg.PWR_DOM_AWAKE (d / 32)) := by
  simp only [fldKey, Reg.PWR_CTR, Reg.PWR_DOM_AWAKE]; omega

theorem domAwake_wr {f : Fld} {d : Nat} (v : Nat) (c : Chip) (h : fldKey (Reg.PWR_DOM_AWAKE (d / 32)) ≠ fldKey f) :
    domAwake d (wr f v c) = domAwake d c := by
  rw [domAwake, rd_wr_ne _ _ h, domAwake]

theorem domAwake_setAwake (d e : Nat) (on : Bool) (c : Chip) :
    domAwake e (setAwake d on c) = if e = d then on else domAwake e c := by
  unfold setAwake
  by_cases hw : e / 32 = d / 32
  · have hbit : e % 32 = d % 32 ↔ e = d := by omega
    rw [domAwake, hw, rd_wr_same, Nat.testBit_mod_two_pow, testBit_setBits_one]
    simp [Reg.PWR_DOM_AWAKE, Nat.mod_lt, hbit, domAwake, hw]
  · have hne : e ≠ d := fun h => hw (h ▸ rfl)
    rw [domAwake_wr _ _ fun h => hw (fldKey_domAwake_inj h), if_neg hne]

theorem rd_setAwake_ne {f : Fld} {d : Nat} (on : Bool) (c : Chip) (h : fldKey f ≠ fldKey (Reg.PWR_DOM_AWAKE (d / 32))) :
    rd f (setAwake d on c) = rd f c := rd_wr_ne _ _ h

theorem pllOn_setPll (i j : Fin 4) (on : Bool) (c : Chip) :
    pllOn j (setPll i on c) = if j = i then on else pllOn j c := by
  have hj : j.val < 4 := j.isLt
  rw [pllOn, setPll, rd_wr_same, Nat.testBit_mod_two_pow, testBit_setBits_one]
  simp [Reg.PWR_PLL_ON, hj, Fin.ext_iff, pllOn]

/-! ### A domain enters sleep -/

/-- Domain `d` sleeps in `t`, and from `c` to `t` one sleep was counted and neither memory nor a core changed. -/
def entersSleep (d : Nat) (c t : Chip) : Prop :=
  domAwake d t = false ∧ rd (Reg.PWR_CTR 1) t = (rd (Reg.PWR_CTR 1) c + 1) % 2 ^ 64 ∧ t.mem = c.mem ∧ t.cores = c.cores

theorem entersSleep_domainSleeps {d : Nat} (hd : d < 431) (c : Chip) : entersSleep d c (domainSleeps d c) := by
  refine ⟨?_, ?_, rfl, rfl⟩
  · rw [domainSleeps, bump_eq, domAwake_wr _ _ (fldKey_pwrCtr_ne_domAwake hd 1).symm, domAwake_setAwake, if_pos rfl]
  · rw [domainSleeps, bump_eq, rd_wr_same, rd_setAwake_ne _ _ (fldKey_pwrCtr_ne_domAwake hd 1)]
    rfl

/-- A write before the sleep of any register but the counter of sleeps does not show in it. -/
theorem entersSleep_of_wr {d : Nat} {f : Fld} {v : Nat} {c t : Chip} (hf : fldKey (Reg.PWR_CTR 1) ≠ fldKey f)
    (h : entersSleep d (wr f v c) t) : entersSleep d c t := by
  obtain ⟨hawake, hctr, hmem, hcores⟩ := h
  exact ⟨hawake, by rw [hctr, rd_wr_ne _ _ hf], hmem, hcores⟩

/-- A further domain put to sleep. -/
theorem entersSleep_setAwake {d n : Nat} {c t : Chip} (hn : n < 431) (h : entersSleep d c t) :
    entersSleep d c (setAwake n false t) := by
  obtain ⟨hawake, hctr, hmem, hcores⟩ := h
  refine ⟨?_, ?_, hmem, hcores⟩
  · rw [domAwake_setAwake, hawake, ite_self]
  · rw [rd_setAwake_ne _ _ (fldKey_pwrCtr_ne_domAwake hn 1), hctr]

theorem entersSleep_foldl_setAwake {d : Nat} {c : Chip} {ns : List Nat} (hns : ∀ n ∈ ns, n < 431) :
    ∀ {t : Chip}, entersSleep d c t → entersSleep d c (ns.foldl (fun c n => setAwake n false c) t) := by
  induction ns with
  | nil => exact fun h => h
  | cons n ns ih =>
    exact fun h => ih (fun m hm => hns m (List.mem_cons_of_mem _ hm)) (entersSleep_setAwake (hns n List.mem_cons_self) h)

/-- Domains put to sleep one after another sleep, and no other's state changes. -/
theorem domAwake_foldl_setAwake (d : Nat) (ns : List Nat) (t : Chip) :
    domAwake d (ns.foldl (fun c n => setAwake n false c) t) = (domAwake d t && !decide (d ∈ ns)) := by
  induction ns generalizing t with
  | nil => simp
  | cons n ns ih =>
    rw [List.foldl_cons, ih, domAwake_setAwake]
    by_cases hd : d = n
    · simp [hd]
    · simp [hd]

/-- A register outside the own registers of PWR reads as before a domain's sleep. -/
theorem rd_domainSleeps {f : Fld} {d : Nat} (c : Chip) (hd : d < 431)
    (hf : f.page * 0x1000 + f.off < 0x2120 ∨ 0x3000 ≤ f.page * 0x1000 + f.off) (hlo : f.lo < 128) : rd f (domainSleeps d c) = rd f c := by
  have hctr : fldKey f ≠ fldKey (Reg.PWR_CTR 1) := by simp only [fldKey, Reg.PWR_CTR]; omega
  have hawake : fldKey f ≠ fldKey (Reg.PWR_DOM_AWAKE (d / 32)) := by simp only [fldKey, Reg.PWR_DOM_AWAKE]; omega
  rw [domainSleeps, bump_eq, rd_wr_ne _ _ hctr, rd_setAwake_ne _ _ hawake]

end Sys2Proof.Machine
end

section
/-! The commands by which pages, clusters and Wayside cores sleep (R725, R792–R797). -/

namespace Sys2Proof.Machine

/-! ### Pages (R793–R795) -/

/-- Page `p` may sleep: RUNNING, allowed to, idle, no request waits for its domain, which is not the base domain; a MEM page only
when the owners of its channels sleep (R793). -/
def pageMaySleep (p : Nat) (c : Chip) : Prop :=
  running p c = true ∧ rd (Hdr.SLEEP_OK p) c = 1 ∧ rd (Hdr.IDLE_US p) c ≠ 0 ∧ pageIdle p c = true ∧
    wakeWaits (pageDomain p) c = false ∧ pageDomain p < 430 ∧ (blockType p = some 0xA0 → memMaySleep (p - 0xA0) c = true)

/-- The block with the link of page `p`, where it has one that is up, in L1.2 (R725). -/
def linkSleeps (p : Nat) (c : Chip) : Chip :=
  if isPort p && portUp p c then wr (linkFld p) (setBits (rd (linkFld p) c) 9 3 4) c else c

theorem pageGuard_iff (p : Nat) (c : Chip) :
    (!running p c || !rdb (Hdr.SLEEP_OK p) c || rd (Hdr.IDLE_US p) c == 0 || !pageIdle p c || wakeWaits (pageDomain p) c ||
      decide (430 ≤ pageDomain p) || ((blockType p == some 0xA0) && !memMaySleep (p - 0xA0) c)) = false ↔ pageMaySleep p c := by
  simp only [Bool.or_eq_false_iff, Bool.not_eq_false', rdb, beq_iff_eq, beq_eq_false_iff_ne, decide_eq_false_iff_not, Nat.not_le,
    Bool.and_eq_false_imp, and_assoc, pageMaySleep]

theorem sleepEntry_of_not {p : Nat} {c : Chip} (h : ¬ pageMaySleep p c) : sleepEntry p c = c :=
  if_pos (Bool.not_eq_false _ ▸ mt (pageGuard_iff p c).mp h)

theorem sleepEntry_of {p : Nat} {c : Chip} (h : pageMaySleep p c) :
    sleepEntry p c = domainSleeps (pageDomain p) (wr (Hdr.STATE p) 6 (linkSleeps p c)) :=
  if_neg (Bool.not_eq_true _ ▸ (pageGuard_iff p c).mpr h)

theorem pageDomain_lt_of_maySleep {p : Nat} {c : Chip} (h : pageMaySleep p c) : pageDomain p < 431 := by
  obtain ⟨-, -, -, -, -, hbase, -⟩ := h
  omega

/-- The link fields of a port stand apart from its header and from the registers of PWR. -/
theorem linkFld_place {p : Nat} (h : isPort p = true) :
    (linkFld p).page = p ∧ 0x100 ≤ (linkFld p).off ∧ (linkFld p).off < 0x108 ∧ (linkFld p).lo = 0 ∧ (linkFld p).width = 12 := by
  simp only [isPort, Bool.and_eq_true, decide_eq_true_eq] at h
  unfold linkFld
  split
  · simp only [Reg.SPR_LINK_FIELDS, and_true]; omega
  · simp only [Reg.SSD_LINK_FIELDS, and_true]; omega

theorem entersSleep_of_linkSleeps {p d : Nat} {c t : Chip} (h : entersSleep d (linkSleeps p c) t) : entersSleep d c t := by
  unfold linkSleeps at h
  split at h
  case isTrue hport =>
    have hp : isPort p = true := (Bool.and_eq_true _ _ ▸ hport).1
    obtain ⟨hpage, hoff, hoff', hlo, -⟩ := linkFld_place hp
    simp only [isPort, Bool.and_eq_true, decide_eq_true_eq] at hp
    refine entersSleep_of_wr ?_ h
    simp only [fldKey, Reg.PWR_CTR]; omega
  case isFalse => exact h

theorem entersSleep_sleepEntry {p : Nat} {c : Chip} (h : pageMaySleep p c) : entersSleep (pageDomain p) c (sleepEntry p c) := by
  have hkey : fldKey (Reg.PWR_CTR 1) ≠ fldKey (Hdr.STATE p) := by simp only [fldKey, Reg.PWR_CTR, Hdr.STATE]; omega
  rw [sleepEntry_of h]
  exact entersSleep_of_linkSleeps (entersSleep_of_wr hkey (entersSleep_domainSleeps (pageDomain_lt_of_maySleep h) _))

theorem pageState_sleepEntry {p : Nat} {c : Chip} (h : pageMaySleep p c) : pageState p (sleepEntry p c) = 6 := by
  rw [sleepEntry_of h, pageState, rd_domainSleeps _ (pageDomain_lt_of_maySleep h) (by simp only [Hdr.STATE]; omega)
    (by simp [Hdr.STATE]), rd_wr_same]
  rfl

/-- A port that sleeps has its link in L1.2 (R725). -/
theorem link_sleepEntry {p : Nat} {c : Chip} (h : pageMaySleep p c) (hport : isPort p = true) (hup : portUp p c = true) :
    rd (linkFld p) (sleepEntry p c) / 2 ^ 9 % 2 ^ 3 = 4 := by
  obtain ⟨hpage, hoff, hoff', hlo, hwidth⟩ := linkFld_place hport
  have hrange : 0x10 ≤ p ∧ p < 0x20 := by simpa [isPort] using hport
  have hkey : fldKey (linkFld p) ≠ fldKey (Hdr.STATE p) := by simp only [fldKey, Hdr.STATE]; omega
  rw [sleepEntry_of h, rd_domainSleeps _ (pageDomain_lt_of_maySleep h) (by omega) (by omega), rd_wr_ne _ _ hkey, linkSleeps,
    hport, hup, Bool.and_self, if_pos rfl, rd_wr_same, hwidth]
  have hbits := setBits_div_mod (rd (linkFld p) c) 9 3 4
  omega

/-! ### Clusters (R792) -/

/-- The cores of cluster `k`. -/
def clusterCores (k : Nat) : List Nat := (List.range 16).map (16 * k + ·)

theorem mem_clusterCores {k n : Nat} : n ∈ clusterCores k ↔ 16 * k ≤ n ∧ n < 16 * k + 16 := by
  rw [clusterCores, List.mem_map]
  constructor
  · rintro ⟨j, hj, rfl⟩
    have := List.mem_range.mp hj
    omega
  · rintro ⟨hlo, hhi⟩
    exact ⟨n - 16 * k, List.mem_range.mpr (by omega), by omega⟩

/-- Core `n` lets its cluster sleep: ASLEEP or OFF, not waking, and no request waits for it. -/
def coreLetsSleep (n : Nat) (c : Chip) : Prop :=
  (pageState (0x2000 + n) c = 6 ∨ pageState (0x2000 + n) c = 0) ∧ n ∉ c.waking ∧ wakeWaits n c = false

/-- Cluster `k` may sleep. -/
def clusterMaySleep (k : Nat) (c : Chip) : Prop :=
  rd Reg.PWR_CLUSTER_IDLE_US c ≠ 0 ∧ domAwake (336 + k) c = true ∧ wakeWaits (336 + k) c = false ∧
    ∀ n, 16 * k ≤ n → n < 16 * k + 16 → coreLetsSleep n c

theorem clusterGuard_iff (k : Nat) (c : Chip) :
    (rd Reg.PWR_CLUSTER_IDLE_US c == 0 || !domAwake (336 + k) c || wakeWaits (336 + k) c ||
      (clusterCores k).any (fun n => (pageState (corePage n) c != 6 && pageState (corePage n) c != 0) || c.waking.elem n ||
        wakeWaits n c)) = false ↔ clusterMaySleep k c := by
  have hcore : ∀ n, ((pageState (corePage n) c != 6 && pageState (corePage n) c != 0) || c.waking.elem n || wakeWaits n c) = false ↔
      coreLetsSleep n c := by
    intro n
    have hwaking : c.waking.elem n = false ↔ n ∉ c.waking := by rw [← List.elem_iff, Bool.not_eq_true]
    simp only [Bool.or_eq_false_iff, Bool.and_eq_false_imp, bne_iff_ne, bne_eq_false_iff_eq, hwaking, and_assoc,
      ← Decidable.or_iff_not_imp_left, ne_eq, coreLetsSleep, corePage]
  simp only [Bool.or_eq_false_iff, List.any_eq_false, Bool.not_eq_true, hcore, mem_clusterCores, beq_eq_false_iff_ne,
    Bool.not_eq_false', and_assoc, and_imp, clusterMaySleep, ne_eq]

theorem clusterSleep_of_not {k : Nat} {c : Chip} (h : ¬ clusterMaySleep k c) : clusterSleep k c = c :=
  if_pos (Bool.not_eq_false _ ▸ mt (clusterGuard_iff k c).mp h)

theorem clusterSleep_of {k : Nat} {c : Chip} (h : clusterMaySleep k c) :
    clusterSleep k c = (clusterCores k).foldl (fun c n => setAwake n false c) (domainSleeps (336 + k) c) :=
  if_neg (Bool.not_eq_true _ ▸ (clusterGuard_iff k c).mpr h)

theorem entersSleep_clusterSleep {k : Nat} {c : Chip} (hk : k < 21) (h : clusterMaySleep k c) :
    entersSleep (336 + k) c (clusterSleep k c) := by
  rw [clusterSleep_of h]
  refine entersSleep_foldl_setAwake (fun n hn => ?_) (entersSleep_domainSleeps (by omega) c)
  have := mem_clusterCores.mp hn
  omega

theorem domAwake_clusterSleep {k n : Nat} {c : Chip} (h : clusterMaySleep k c) (hn : n ∈ clusterCores k) :
    domAwake n (clusterSleep k c) = false := by
  rw [clusterSleep_of h, domAwake_foldl_setAwake, decide_eq_true hn, Bool.not_true, Bool.and_false]

/-! ### Wayside cores (R796) -/

/-- Wayside core `w` may sleep: it waits in WFI and no enabled interrupt is pending. -/
def waysideMaySleep (w : Fin 24) (c : Chip) : Prop :=
  rd Reg.PWR_WAYSIDE_IDLE_US c ≠ 0 ∧ domAwake (357 + w) c = true ∧ wakeWaits (357 + w) c = false ∧
    (getCore (.wayside w) c).wfi = true ∧ (getCore (.wayside w) c).irqPending &&& (getCore (.wayside w) c).irqEnable = 0

theorem waysideGuard_iff (w : Fin 24) (c : Chip) :
    (rd Reg.PWR_WAYSIDE_IDLE_US c == 0 || !domAwake (357 + w.val) c || wakeWaits (357 + w.val) c || !(getCore (.wayside w) c).wfi ||
      ((getCore (.wayside w) c).irqPending &&& (getCore (.wayside w) c).irqEnable) != 0) = false ↔ waysideMaySleep w c := by
  simp only [Bool.or_eq_false_iff, beq_eq_false_iff_ne, Bool.not_eq_false', bne_eq_false_iff_eq, and_assoc, waysideMaySleep]

theorem waysideSleep_of_not {w : Fin 24} {c : Chip} (h : ¬ waysideMaySleep w c) : waysideSleep w c = c :=
  if_pos (Bool.not_eq_false _ ▸ mt (waysideGuard_iff w c).mp h)

theorem waysideSleep_of {w : Fin 24} {c : Chip} (h : waysideMaySleep w c) : waysideSleep w c = domainSleeps (357 + w) c :=
  if_neg (Bool.not_eq_true _ ▸ (waysideGuard_iff w c).mpr h)

end Sys2Proof.Machine
end

section
/-! Edge faults (R553) and the Milestone edge (R552, R607, R620, R801, R845). -/

namespace Sys2Proof.Machine

/-! ### Edge faults -/

/-- An error of a page other than MST sets its bit in the page's status register and keeps the others. -/
theorem rd_errStatus_raise {p : Nat} (hp : p ≠ 6) (code sev : Nat) (c : Chip) :
    rd (Hdr.ERR_STATUS p) (raise p code sev c) = (rd (Hdr.ERR_STATUS p) c ||| 2 ^ errBit code) % 2 ^ 32 := by
  have hkey : fldKey (Hdr.ERR_STATUS p) ∉ (errFields 6 ++ telFields).map fldKey := by
    simp [fldKey, errFields, telFields, Hdr.ERR_STATUS, Hdr.ERR_COUNT, Hdr.FIRST_CODE, Hdr.FIRST_SEVERITY, Hdr.FIRST_VALID,
      Hdr.FIRST_TIME, Reg.MST_CTR, Reg.MST_TEL_SEQ, Reg.MST_TEL_LOST]
    omega
  rw [← rd_errStatus_latchErr p code sev c]
  unfold raise
  simp only []
  split
  · exact onlyFields_telemetry _ _ _ _ _ _ hkey
  · rfl

/-- The block with an edge fault told: EDGE_FAULT of PWR recorded and counted. -/
def edgeFaultTold (c : Chip) : Chip := bump (Reg.PWR_CTR 3) 1 (raise 2 0x1601 2 c)

theorem errStatus_edgeFaultTold (c : Chip) : (rd (Hdr.ERR_STATUS 2) (edgeFaultTold c)).testBit 0 = true := by
  rw [edgeFaultTold, bump_eq, rd_wr_ne _ _ (by decide), rd_errStatus_raise (by decide), Nat.testBit_mod_two_pow, Nat.testBit_or,
    show errBit 0x1601 = 0 from rfl, Nat.testBit_two_pow_self]
  simp

theorem pwrCtr_edgeFaultTold (c : Chip) : rd (Reg.PWR_CTR 3) (edgeFaultTold c) = (rd (Reg.PWR_CTR 3) c + 1) % 2 ^ 64 := by
  rw [edgeFaultTold, bump_eq, rd_wr_same, onlyFields_raise 2 0x1601 2 c (Reg.PWR_CTR 3) (by decide)]
  rfl

/-- What an edge fault of PLL `i` does to the blocks: the pages of the fabric are fenced; of a fast domain each core is reissued
or fenced. -/
def edgeFaultActs (i : Nat) (c : Chip) : Chip :=
  if i = 0 then fabricPages.foldl (fun c p => fencePage p c) c
  else ((List.range 336).filter fun n => (domainPlls n).elem i).foldl (fun c n =>
    if coreRuns n c then coreReissue (coreFin n) 0 c else fencePage (corePage n) c) c

theorem edgeFault_of_off {i : Nat} {c : Chip} (h : pllOn i c = false) : edgeFault i c = c := by
  rw [edgeFault, h]; rfl

theorem edgeFault_of_on {i : Nat} {c : Chip} (h : pllOn i c = true) :
    edgeFault i c = pllStart i (setPll i false (edgeFaultActs i (edgeFaultTold c))) := by
  rw [edgeFault, h]; rfl

/-- A PLL stopped and started again makes its first attempt, unless an attempt is under way. -/
theorem pllStart_setPll_false (i : Fin 4) (c : Chip) :
    pllStart i (setPll i false c) =
      if mapGet 0 (setPll i false c).pllTries i = 0 then
        { setPll i false c with pllTries := mapPut 0 (setPll i false c).pllTries i 1 }
      else setPll i false c := by
  have hoff : pllOn i (setPll i false c) = false := by rw [pllOn_setPll, if_pos rfl]
  by_cases h : mapGet 0 (setPll i false c).pllTries i = 0
  · rw [pllStart, hoff, h]; rfl
  · rw [pllStart, hoff, if_pos (by simpa using h), if_neg h]

/-! ### Buckets of the Toll (R607, R620) -/

/-- A metered queue's buckets gain. -/
def meterGain (x : TolQ) : TolQ :=
  if x.meter then { x with cTok := bucketGain x.cir x.cbs x.cTok, pTok := bucketGain x.pir x.pbs x.pTok } else x

/-- An enabled shaper's bucket gains. -/
def shaperGain (x : Shaper) : Shaper := if x.en then { x with tok := bucketGain x.rate x.burst x.tok } else x

theorem meterGain_of_off {x : TolQ} (h : x.meter = false) : meterGain x = x := by simp [meterGain, h]
theorem meterGain_tokens {x : TolQ} (h : x.meter = true) :
    (meterGain x).cTok = bucketGain x.cir x.cbs x.cTok ∧ (meterGain x).pTok = bucketGain x.pir x.pbs x.pTok := by
  simp [meterGain, h]

theorem shaperGain_of_off {x : Shaper} (h : x.en = false) : shaperGain x = x := by simp [shaperGain, h]
theorem shaperGain_tok {x : Shaper} (h : x.en = true) : (shaperGain x).tok = bucketGain x.rate x.burst x.tok := by
  simp [shaperGain, h]

/-- A function that keeps the default, mapped over a sparse map, applies to every key. -/
theorem mapGet_map {α : Type} {d : α} {f : α → α} (hd : f d = d) (m : SMap α) (k : Nat) :
    mapGet d (m.map fun e => (e.1, f e.2)) k = f (mapGet d m k) := by
  induction m with
  | nil => exact hd.symm
  | cons e t ih =>
    obtain ⟨a, v⟩ := e
    by_cases h : a = k
    · simp [mapGet, h]
    · simpa [mapGet, h] using ih

theorem mapGet_tolEdge_tolQs (q : Nat) (c : Chip) :
    mapGet TolQ.off (tolEdge c).tolQs q = meterGain (mapGet TolQ.off c.tolQs q) := by
  rw [← mapGet_map (f := meterGain) rfl]
  refine congrArg (mapGet TolQ.off · q) (List.map_congr_left fun e _ => ?_)
  cases h : e.2.meter <;> simp [meterGain, h]

theorem mapGet_tolEdge_tolShp (q : Nat) (c : Chip) :
    mapGet Shaper.off (tolEdge c).tolShp q = shaperGain (mapGet Shaper.off c.tolShp q) := by
  rw [← mapGet_map (f := shaperGain) rfl]
  refine congrArg (mapGet Shaper.off · q) (List.map_congr_left fun e _ => ?_)
  cases h : e.2.en <;> simp [shaperGain, h]

/-! ### Buckets of the stalls (R741) -/

/-- The Mover and the Pail bucket of stall `q`. -/
def stallBuckets (q : Nat) (c : Chip) : Int × Int := (mapGet 0 c.stallMov q, mapGet 0 c.stallPail q)

/-- The two buckets after one gain. -/
def gainedBuckets (q : Nat) (c : Chip) : Int × Int :=
  (bucketGain (stallF q 0xC0 31 0 c) (stallF q 0xC4 23 0 c) (stallBuckets q c).1,
    bucketGain (stallF q 0xC8 31 0 c) (stallF q 0xCC 25 0 c) (stallBuckets q c).2)

/-- Stall `s` gains. -/
def stallGain (c : Chip) (s : Nat) : Chip :=
  { c with stallMov := mapPut 0 c.stallMov s (gainedBuckets s c).1, stallPail := mapPut 0 c.stallPail s (gainedBuckets s c).2 }

theorem stallEdge_eq (c : Chip) :
    stallEdge c = if rd Reg.STL_STALLS_USED c = 0 then c else (liveStalls c).foldl stallGain c := by
  by_cases h : rd Reg.STL_STALLS_USED c = 0
  · simp [stallEdge, h]
  · simp only [stallEdge, h, beq_iff_eq, if_false]; rfl

theorem stallBuckets_stallGain_same (s : Nat) (c : Chip) : stallBuckets s (stallGain c s) = gainedBuckets s c := by
  simp only [stallBuckets, stallGain, mapGet_put_same]

theorem stallBuckets_stallGain_ne {q s : Nat} (c : Chip) (h : q ≠ s) : stallBuckets q (stallGain c s) = stallBuckets q c := by
  simp only [stallBuckets, stallGain, mapGet_put_ne _ _ _ h]

/-- Another stall's gain does not change what a stall's buckets will gain. -/
theorem gainedBuckets_stallGain_ne {q s : Nat} (c : Chip) (h : q ≠ s) : gainedBuckets q (stallGain c s) = gainedBuckets q c := by
  rw [gainedBuckets, stallBuckets_stallGain_ne c h]; rfl

theorem stallBuckets_foldl_of_notMem {q : Nat} {ns : List Nat} (h : q ∉ ns) (c : Chip) :
    stallBuckets q (ns.foldl stallGain c) = stallBuckets q c := by
  induction ns generalizing c with
  | nil => rfl
  | cons s ns ih =>
    rw [List.mem_cons, not_or] at h
    rw [List.foldl_cons, ih h.2, stallBuckets_stallGain_ne c h.1]

theorem stallBuckets_foldl_of_mem {q : Nat} {ns : List Nat} (hnodup : ns.Nodup) (h : q ∈ ns) (c : Chip) :
    stallBuckets q (ns.foldl stallGain c) = gainedBuckets q c := by
  induction ns generalizing c with
  | nil => exact absurd h List.not_mem_nil
  | cons s ns ih =>
    obtain ⟨hs, hrest⟩ := List.nodup_cons.mp hnodup
    rw [List.foldl_cons]
    by_cases hq : q = s
    · subst hq
      rw [stallBuckets_foldl_of_notMem hs, stallBuckets_stallGain_same]
    · rw [ih hrest ((List.mem_cons.mp h).resolve_left hq), gainedBuckets_stallGain_ne c hq]

/-- Each stall that is not FREE gains once. -/
theorem stallBuckets_stallEdge {q : Nat} {c : Chip} (hused : rd Reg.STL_STALLS_USED c ≠ 0) (hq : q < 2048)
    (hlive : stallState q c ≠ 0) : stallBuckets q (stallEdge c) = gainedBuckets q c := by
  have hmem : q ∈ liveStalls c := List.mem_filter.mpr ⟨List.mem_range.mpr hq, by simpa using hlive⟩
  rw [stallEdge_eq, if_neg hused]
  exact stallBuckets_foldl_of_mem (List.nodup_range.filter _) hmem c

/-- The block is the same but for the buckets of the stalls. -/
def stallBucketsOnly (a b : Chip) : Prop := b = { a with stallMov := b.stallMov, stallPail := b.stallPail }

theorem stallBucketsOnly_foldl (ns : List Nat) (c : Chip) : stallBucketsOnly c (ns.foldl stallGain c) := by
  induction ns generalizing c with
  | nil => rfl
  | cons s ns ih =>
    have hrest : stallBucketsOnly (stallGain c s) (ns.foldl stallGain (stallGain c s)) := ih _
    unfold stallBucketsOnly at hrest ⊢
    rw [List.foldl_cons, hrest]
    rfl

theorem stallBucketsOnly_stallEdge (c : Chip) : stallBucketsOnly c (stallEdge c) := by
  rw [stallEdge_eq]
  split
  · rfl
  · exact stallBucketsOnly_foldl _ c

/-! ### The edge -/

/-- A stall's context depends on the memory and on the base of the table of stalls. -/
theorem stallF_congr {a b : Chip} (hmem : a.mem = b.mem) (hbase : rd Reg.STL_STALL_TABLE a = rd Reg.STL_STALL_TABLE b)
    (s off hi lo : Nat) : stallF s off hi lo a = stallF s off hi lo b := by
  simp only [stallF, stallBase, ldF, ld, ldBytes, hmem, hbase]

/-- The block with the Milestone time advanced by 10. -/
def timeAdvances (c : Chip) : Chip := wr Reg.MST_MS_TIME (now c + 10) c

/-- The block with time advanced and every bucket's gain, before the cores go on. -/
def edgeGains (c : Chip) : Chip := stallEdge (tolEdge (timeAdvances c))

/-- A Milestone edge lets the cores whose period is not gated go on after the gains; then what waits for a wake is judged anew. -/
theorem milestoneEdge_eq (c : Chip) :
    milestoneEdge c = wakesJudge ((List.range 336).foldl
      (fun t n => if gated (coreStep n t) (now t / 10) then t else edgeCore (coreFin n) t) (edgeGains c)) := rfl

/-- What an edge's gains leave alone: memory, cores and every register but the Milestone time. -/
theorem edgeGains_frame (c : Chip) :
    (edgeGains c).mem = c.mem ∧ (edgeGains c).cores = c.cores ∧ (edgeGains c).regs = (timeAdvances c).regs ∧
      (edgeGains c).tolQs = (tolEdge c).tolQs ∧ (edgeGains c).tolShp = (tolEdge c).tolShp := by
  have h : edgeGains c = _ := stallBucketsOnly_stallEdge (tolEdge (timeAdvances c))
  rw [h]
  exact ⟨rfl, rfl, rfl, rfl, rfl⟩

theorem rd_timeAdvances {f : Fld} (c : Chip) (h : fldKey f ≠ fldKey Reg.MST_MS_TIME) : rd f (timeAdvances c) = rd f c :=
  rd_wr_ne _ _ h

theorem stallF_timeAdvances (s off hi lo : Nat) (c : Chip) :
    stallF s off hi lo (tolEdge (timeAdvances c)) = stallF s off hi lo c :=
  stallF_congr (a := tolEdge (timeAdvances c)) (b := c) rfl (rd_timeAdvances (f := Reg.STL_STALL_TABLE) c (by decide)) s off hi lo

theorem gainedBuckets_timeAdvances (q : Nat) (c : Chip) :
    gainedBuckets q (tolEdge (timeAdvances c)) = gainedBuckets q c := by
  simp only [gainedBuckets, stallF_timeAdvances]
  rfl

theorem stallBuckets_edgeGains {q : Nat} {c : Chip} (hused : rd Reg.STL_STALLS_USED c ≠ 0) (hq : q < 2048)
    (hlive : stallState q c ≠ 0) : stallBuckets q (edgeGains c) = gainedBuckets q c := by
  have hused' : rd Reg.STL_STALLS_USED (tolEdge (timeAdvances c)) ≠ 0 := fun h =>
    hused ((rd_timeAdvances (f := Reg.STL_STALLS_USED) c (by decide)).symm.trans h)
  have hlive' : stallState q (tolEdge (timeAdvances c)) ≠ 0 := fun h => hlive ((stallF_timeAdvances q 0 2 0 c).symm.trans h)
  rw [edgeGains, stallBuckets_stallEdge hused' hq hlive', gainedBuckets_timeAdvances]

end Sys2Proof.Machine

namespace Sys2Proof.Proofs

open Sys2Proof.Machine

/-- Settles O52: a sleep by what its guard says and what the sleep of a domain leaves alone (`entersSleep`); an edge fault and a
Milestone edge by the block between their parts (`edgeFaultTold`, `edgeGains`). -/
theorem sleepAndEdges : Obligations.SleepAndEdges := by
  unfold Obligations.SleepAndEdges
  intro s page k w i q
  refine ⟨fun h => congrArg (becomes s) (sleepEntry_of_not h), fun h => ?page,
    fun h => congrArg (becomes s) (clusterSleep_of_not h), fun h => ?cluster,
    fun h => congrArg (becomes s) (waysideSleep_of_not h), fun h => ?wayside,
    fun h => congrArg (becomes s) (edgeFault_of_off h), fun h => ?fault, ?edge⟩
  case page =>
    exact ⟨_, rfl, rfl, entersSleep_sleepEntry h, pageState_sleepEntry h, link_sleepEntry h⟩
  case cluster =>
    exact ⟨_, rfl, rfl, entersSleep_clusterSleep k.isLt h, fun n hlo hhi => domAwake_clusterSleep h (mem_clusterCores.mpr ⟨hlo, hhi⟩)⟩
  case wayside =>
    refine ⟨_, rfl, rfl, ?_⟩
    have hsleep : entersSleep (357 + w) s.chip (domainSleeps (357 + w) s.chip) := entersSleep_domainSleeps (by omega) _
    rwa [← waysideSleep_of h] at hsleep
  case fault =>
    refine ⟨edgeFaultTold s.chip, errStatus_edgeFaultTold _, pwrCtr_edgeFaultTold _, raise_mem _ _ _ _, raise_cores _ _ _ _, ?_⟩
    refine congrArg (becomes s) ?_
    rw [edgeFault_of_on h, pllStart_setPll_false, edgeFaultActs]
    simp only [Fin.ext_iff]
    rfl
  case edge =>
    obtain ⟨hmem, hcores, hregs, htol, hshp⟩ := edgeGains_frame s.chip
    refine ⟨edgeGains s.chip, ?_, hmem, hcores, fun g hg => ?_, ⟨fun h => ?_, fun h => ?_⟩, ⟨fun h => ?_, fun h => ?_⟩,
      fun hused hq hlive => ?_, congrArg (becomes s) (milestoneEdge_eq s.chip)⟩
    · rw [rd_congr hregs, timeAdvances, rd_wr_same]; rfl
    · rw [rd_congr hregs, rd_timeAdvances _ (by simpa using hg)]
    · rw [htol, mapGet_tolEdge_tolQs, meterGain_of_off h]
    · rw [htol, mapGet_tolEdge_tolQs]
      exact meterGain_tokens h
    · rw [hshp, mapGet_tolEdge_tolShp, shaperGain_of_off h]
    · rw [hshp, mapGet_tolEdge_tolShp, shaperGain_tok h]; rfl
    · exact Prod.ext_iff.mp (stallBuckets_edgeGains hused hq hlive)

end Sys2Proof.Proofs
end

section
/-! The time base of MST (R845–R849): signed words, the error status of MST, steps of time, and the discipline of its source. -/

namespace Sys2Proof.Machine

/-! ### Signed words -/

theorem toSigned_mod (w v : Nat) : toSigned w (v % 2 ^ w) = toSigned w v := by simp only [toSigned, Nat.mod_mod]

theorem toSigned_toNat {w : Nat} (hw : 0 < w) (b : BitVec w) : toSigned w b.toNat = b.toInt := by
  obtain ⟨n, rfl⟩ := Nat.exists_eq_succ_of_ne_zero (Nat.ne_of_gt hw)
  have hhalf : b.toNat < 2 ^ n ↔ 2 * b.toNat < 2 ^ (n + 1) := by rw [Nat.pow_succ]; omega
  rw [toSigned, Nat.mod_eq_of_lt b.isLt, BitVec.toInt_eq_toNat_cond]
  simp only [Nat.succ_eq_add_one, Nat.add_sub_cancel, hhalf]

theorem ofSigned_eq_toNat (w : Nat) (x : Int) : ofSigned w x = (BitVec.ofInt w x).toNat := (BitVec.toNat_ofInt x).symm

/-- A signed value of `w` bits reads back from its word. -/
theorem toSigned_ofSigned {w : Nat} {x : Int} (hw : 0 < w) (hlo : -2 ^ (w - 1) ≤ x) (hhi : x < 2 ^ (w - 1)) :
    toSigned w (ofSigned w x) = x := by
  rw [ofSigned_eq_toNat, toSigned_toNat hw, BitVec.toInt_ofInt_eq_self hw hlo hhi]

/-! ### The error status of MST -/

/-- An error of a page keeps the status bits that stand. -/
theorem testBit_errStatus_latchErr_of_set {p n : Nat} (code sev : Nat) {c : Chip} (hn : n < 32)
    (h : (rd (Hdr.ERR_STATUS p) c).testBit n = true) : (rd (Hdr.ERR_STATUS p) (latchErr p code sev c).1).testBit n = true := by
  rw [rd_errStatus_latchErr, Nat.testBit_mod_two_pow, Nat.testBit_or, h, decide_eq_true hn]
  rfl

theorem rd_errStatus_telPush (kind src sev : Nat) (body : List Nat) (c : Chip) :
    rd (Hdr.ERR_STATUS 6) (telPush kind src sev body c).1 = rd (Hdr.ERR_STATUS 6) c :=
  onlyFields_telPush kind src sev body c (Hdr.ERR_STATUS 6) (by decide)

/-- A telemetry record keeps the status bits of MST that stand, also where it discards another record. -/
theorem testBit_errStatus_telemetry_of_set {n : Nat} (kind src sev : Nat) (body : List Nat) {c : Chip} (hn : n < 32)
    (h : (rd (Hdr.ERR_STATUS 6) c).testBit n = true) :
    (rd (Hdr.ERR_STATUS 6) (telemetry kind src sev body c)).testBit n = true := by
  rw [← rd_errStatus_telPush kind src sev body] at h
  unfold telemetry telLost
  simp only []
  split
  case isTrue => exact h
  case isFalse =>
    have hlatched := testBit_errStatus_latchErr_of_set 0x1A02 0 hn h
    split
    · rw [rd_errStatus_telPush]; exact hlatched
    · exact hlatched

/-- An error of MST sets its status bit, which the record of the error keeps. -/
theorem testBit_errStatus_raise_mst {code : Nat} (sev : Nat) (c : Chip) (hb : errBit code < 32) :
    (rd (Hdr.ERR_STATUS 6) (raise 6 code sev c)).testBit (errBit code) = true := by
  have hlatched : (rd (Hdr.ERR_STATUS 6) (latchErr 6 code sev c).1).testBit (errBit code) = true := by
    rw [rd_errStatus_latchErr, Nat.testBit_mod_two_pow, Nat.testBit_or, Nat.testBit_two_pow_self, Bool.or_true, decide_eq_true hb]
    rfl
  unfold raise
  simp only []
  split
  · exact testBit_errStatus_telemetry_of_set _ _ _ _ hb hlatched
  · exact hlatched

/-! ### Steps of time (R848) -/

/-- A command that reaches its page has its effect. -/
theorem regAccess_of_reaches {p : Party} {page : Nat} {c : Chip} (h : reaches p page c) (off v : Nat) (f : Chip → Chip) :
    regAccess p page off v f c = f c := by
  obtain ⟨hawake, hguard⟩ := h
  rw [regAccess, if_neg hawake, hguard]
  rfl

theorem timeHeld_iff (c : Chip) :
    timeHeld c = true ↔ ¬ (pageState 0x70 c = 0 ∧ pageState 0x61 c = 0 ∧ pageState 0x78 c = 0) := by
  simp only [timeHeld, Bool.or_eq_true, bne_iff_ne, Decidable.not_and_iff_not_or_not, or_assoc, ne_eq]

theorem stepNs_of_host {p : Party} (hp : isHost p = true) (v : Nat) (c : Chip) : stepNs p v c = refuse 6 0x03 0x110 c := if_pos hp

/-- A step is judged by the signed value of its word. -/
theorem stepNs_word {p : Party} {x : Int} (hp : isHost p = false) (hlo : -2 ^ 63 ≤ x) (hhi : x < 2 ^ 63) (c : Chip) :
    stepNs p (BitVec.ofInt 64 x).toNat c =
      if x = 0 ∨ x % 160 ≠ 0 then refuse 6 0x20 0x110 c
      else if x < 0 ∧ timeHeld c = true then refuse 6 0x21 0x110 c
      else { c with timeStep := some (BitVec.ofInt 64 x).toNat } := by
  have hword : toSigned 64 (BitVec.ofInt 64 x).toNat = x := by
    rw [toSigned_toNat (by decide), BitVec.toInt_ofInt_eq_self (by decide) hlo hhi]
  simp only [stepNs, hp, Bool.false_eq_true, if_false, hword, Nat.mod_eq_of_lt (BitVec.ofInt 64 x).isLt]

section
variable {p : Party} {x : Int} (hp : isHost p = false) (hlo : -2 ^ 63 ≤ x) (hhi : x < 2 ^ 63) (c : Chip)
include hp hlo hhi

theorem stepNs_of_no_multiple (hbad : x = 0 ∨ x % 160 ≠ 0) :
    stepNs p (BitVec.ofInt 64 x).toNat c = refuse 6 0x20 0x110 c := by
  rw [stepNs_word hp hlo hhi, if_pos hbad]

theorem stepNs_of_held (hnz : x ≠ 0) (hmul : x % 160 = 0) (hneg : x < 0)
    (hheld : ¬ (pageState 0x70 c = 0 ∧ pageState 0x61 c = 0 ∧ pageState 0x78 c = 0)) :
    stepNs p (BitVec.ofInt 64 x).toNat c = refuse 6 0x21 0x110 c := by
  rw [stepNs_word hp hlo hhi, if_neg (not_or.mpr ⟨hnz, not_not_intro hmul⟩), if_pos ⟨hneg, (timeHeld_iff c).mpr hheld⟩]

theorem stepNs_of_free (hnz : x ≠ 0) (hmul : x % 160 = 0)
    (hfree : 0 < x ∨ (pageState 0x70 c = 0 ∧ pageState 0x61 c = 0 ∧ pageState 0x78 c = 0)) :
    stepNs p (BitVec.ofInt 64 x).toNat c = { c with timeStep := some (BitVec.ofInt 64 x).toNat } := by
  have hback : ¬ (x < 0 ∧ timeHeld c = true) := fun ⟨hneg, hheld⟩ =>
    hfree.elim (fun hpos => absurd hneg (Int.not_lt.mpr (Int.le_of_lt hpos))) ((timeHeld_iff c).mp hheld)
  rw [stepNs_word hp hlo hhi, if_neg (not_or.mpr ⟨hnz, not_not_intro hmul⟩), if_neg hback]

end

theorem onlyFields_timeRecord (step : Nat) (c : Chip) : onlyFields (errFields 6 ++ telFields) c (timeRecord step c) :=
  onlyFields_telemetry _ _ _ _ _

theorem recordsOnly_timeRecord (step : Nat) (c : Chip) : recordsOnly c (timeRecord step c) := recordsOnly_telemetry _ _ _ _ _

theorem timeStepApply_of_not_due {c : Chip} (h : c.timeStep = none ∨ now c / 10 % 16 ≠ 0) : timeStepApply c = c := by
  unfold timeStepApply
  split
  case h_1 => rfl
  case h_2 x hx => exact if_pos (h.resolve_left (by simp [hx]))

/-- The block with a step of time taken, before its record. -/
def timeStepped (v : Nat) (c : Chip) : Chip := wr Reg.MST_MS_TIME (now c + v) { c with timeStep := none }

theorem timeStepApply_of_due {c : Chip} {v : Nat} (hstep : c.timeStep = some v) (hdue : now c / 10 % 16 = 0) :
    timeStepApply c = timeRecord v (timeStepped v c) := by
  rw [timeStepApply, hstep]
  exact if_neg (not_not_intro hdue)

/-- A step changes the time, and what its record changes. -/
theorem timeRecord_timeStepped_frame (v : Nat) (c : Chip) :
    (timeRecord v (timeStepped v c)).timeStep = none ∧ (timeRecord v (timeStepped v c)).mem = c.mem ∧
      (timeRecord v (timeStepped v c)).cores = c.cores := by
  have hrec := recordsOnly_timeRecord v (timeStepped v c)
  exact ⟨congrArg Chip.timeStep hrec, (recordsOnly_mem hrec).trans rfl, (recordsOnly_cores hrec).trans rfl⟩

theorem now_timeRecord_timeStepped (v : Nat) (c : Chip) : now (timeRecord v (timeStepped v c)) = (now c + v) % 2 ^ 64 := by
  rw [now, onlyFields_timeRecord v _ _ (by decide), timeStepped, rd_wr_same]
  rfl

/-! ### The discipline source (R846, R847) -/

/-- The fields that a change of `TIME_STATE` may change: its record's, and its own. -/
def timeStateFields : List Fld := Reg.MST_TIME_STATE :: (errFields 6 ++ telFields)

theorem recordsOnly_timeState (v : Nat) (c : Chip) : recordsOnly c (timeState v c) :=
  recordsOnly_ite (recordsOnly_refl c) (recordsOnly_trans (recordsOnly_wr _ _ _) (recordsOnly_timeRecord _ _))

theorem onlyFields_timeState (v : Nat) (c : Chip) : onlyFields timeStateFields c (timeState v c) := by
  unfold timeState
  split
  · exact onlyFields_refl _ _
  · exact onlyFields_trans (onlyFields_wr List.mem_cons_self v c)
      (onlyFields_mono (onlyFields_timeRecord _ _) fun f hf => List.mem_cons_of_mem _ hf)

theorem rd_timeState {v : Nat} (hv : v < 4) (c : Chip) : rd Reg.MST_TIME_STATE (timeState v c) = v := by
  unfold timeState
  split
  case isTrue h => exact h
  case isFalse =>
    rw [onlyFields_timeRecord 0 _ _ (by decide), rd_wr_same]
    exact Nat.mod_eq_of_lt hv

/-- A trim cut to 200 ppm. -/
def cutTrim (x : Int) : Int := if x < -13107200 then -13107200 else if 13107200 < x then 13107200 else x

theorem cutTrim_range (x : Int) : -13107200 ≤ cutTrim x ∧ cutTrim x ≤ 13107200 := by
  unfold cutTrim
  omega

/-- The trim kept reads back as the trim asked for, cut. -/
theorem toSigned_trimLimit (trim : Nat) : toSigned 32 (trimLimit trim) = cutTrim (toSigned 32 trim) := by
  obtain ⟨hlo, hhi⟩ := cutTrim_range (toSigned 32 trim)
  rw [trimLimit, toSigned_mod]
  exact toSigned_ofSigned (x := cutTrim (toSigned 32 trim)) (by decide) (by omega) (by omega)

theorem discipline_of_ne {src : Nat} {c : Chip} (h : rd Reg.MST_DISC_SRC c ≠ src) (trim : Nat) (locked : Bool) :
    discipline src trim locked c = c := if_pos h

/-- The state that an event of the selected source leads to: LOCKED comes after ACQUIRING only. -/
def nextTimeState (locked : Bool) (st : Nat) : Nat := if locked = true ∧ (st = 1 ∨ st = 2) then 2 else 1

theorem nextTimeState_lt (locked : Bool) (st : Nat) : nextTimeState locked st < 4 := by
  unfold nextTimeState
  split <;> decide

theorem discipline_of_eq {src : Nat} {c : Chip} (h : rd Reg.MST_DISC_SRC c = src) (trim : Nat) (locked : Bool) :
    discipline src trim locked c =
      timeState (nextTimeState locked (rd Reg.MST_TIME_STATE c)) (wr Reg.MST_FREQ_TRIM (trimLimit trim) c) := by
  simp only [discipline, if_neg (not_not_intro h), nextTimeState, Bool.and_eq_true, Bool.or_eq_true, beq_iff_eq]

theorem recordsOnly_discipline (src trim : Nat) (locked : Bool) (c : Chip) : recordsOnly c (discipline src trim locked c) :=
  recordsOnly_ite (recordsOnly_refl c) (recordsOnly_trans (recordsOnly_wr _ _ _) (recordsOnly_timeState _ _))

theorem onlyFields_discipline (src trim : Nat) (locked : Bool) (c : Chip) :
    onlyFields (Reg.MST_FREQ_TRIM :: timeStateFields) c (discipline src trim locked c) := by
  unfold discipline
  split
  · exact onlyFields_refl _ _
  · exact onlyFields_trans (onlyFields_wr List.mem_cons_self _ c)
      (onlyFields_mono (onlyFields_timeState _ _) fun f hf => List.mem_cons_of_mem _ hf)

theorem rd_timeState_discipline {src : Nat} {c : Chip} (h : rd Reg.MST_DISC_SRC c = src) (trim : Nat) (locked : Bool) :
    rd Reg.MST_TIME_STATE (discipline src trim locked c) = nextTimeState locked (rd Reg.MST_TIME_STATE c) := by
  rw [discipline_of_eq h, rd_timeState (nextTimeState_lt _ _)]

theorem freqTrim_discipline {src : Nat} {c : Chip} (h : rd Reg.MST_DISC_SRC c = src) (trim : Nat) (locked : Bool) :
    toSigned 32 (rd Reg.MST_FREQ_TRIM (discipline src trim locked c)) = cutTrim (toSigned 32 trim) := by
  rw [discipline_of_eq h, onlyFields_timeState _ _ _ (by decide), rd_wr_same, ← toSigned_trimLimit]
  exact toSigned_mod 32 _

/-- The block with a pulse captured, before the discipline of its source. -/
def ppsCaptured (time : Nat) (c : Chip) : Chip := wr Reg.SBI_PPS_SEEN 1 (wr Reg.MST_PPS_CAPTURE time c)

theorem onlyFields_ppsCaptured (time : Nat) (c : Chip) :
    onlyFields [Reg.MST_PPS_CAPTURE, Reg.SBI_PPS_SEEN] c (ppsCaptured time c) :=
  onlyFields_trans (b := wr Reg.MST_PPS_CAPTURE time c) (onlyFields_wr (by simp) _ _) (onlyFields_wr (by simp) _ _)

theorem rd_ppsCapture_ppsEdge (time trim : Nat) (locked : Bool) (c : Chip) :
    rd Reg.MST_PPS_CAPTURE (ppsEdge time trim locked c) = time % 2 ^ 64 := by
  rw [ppsEdge, onlyFields_discipline _ _ _ _ _ (by decide), rd_wr_ne _ _ (by decide), rd_wr_same]
  rfl

theorem rd_ppsSeen_ppsEdge (time trim : Nat) (locked : Bool) (c : Chip) :
    rd Reg.SBI_PPS_SEEN (ppsEdge time trim locked c) = 1 := by
  rw [ppsEdge, onlyFields_discipline _ _ _ _ _ (by decide), rd_wr_same]
  rfl

/-- A pulse disciplines the time where PPS is the selected source. -/
theorem ppsEdge_of_eq {c : Chip} (h : rd Reg.MST_DISC_SRC c = 2) (time trim : Nat) (locked : Bool) :
    rd Reg.MST_TIME_STATE (ppsEdge time trim locked c) = nextTimeState locked (rd Reg.MST_TIME_STATE c) ∧
      toSigned 32 (rd Reg.MST_FREQ_TRIM (ppsEdge time trim locked c)) = cutTrim (toSigned 32 trim) := by
  have hsrc : rd Reg.MST_DISC_SRC (ppsCaptured time c) = 2 := (onlyFields_ppsCaptured time c _ (by decide)).trans h
  have hst : rd Reg.MST_TIME_STATE (ppsCaptured time c) = rd Reg.MST_TIME_STATE c := onlyFields_ppsCaptured time c _ (by decide)
  exact ⟨hst ▸ rd_timeState_discipline hsrc trim locked, freqTrim_discipline hsrc trim locked⟩

theorem ppsEdge_of_ne {c : Chip} (h : rd Reg.MST_DISC_SRC c ≠ 2) (time trim : Nat) (locked : Bool) :
    ppsEdge time trim locked c = ppsCaptured time c := by
  have hsrc : rd Reg.MST_DISC_SRC (ppsCaptured time c) = rd Reg.MST_DISC_SRC c := onlyFields_ppsCaptured time c _ (by decide)
  exact discipline_of_ne (hsrc ▸ h) trim locked

theorem timeSourceLost_of_not {c : Chip}
    (h : rd Reg.MST_DISC_SRC c = 0 ∨ (rd Reg.MST_TIME_STATE c ≠ 1 ∧ rd Reg.MST_TIME_STATE c ≠ 2)) :
    timeSourceLost c = c :=
  if_neg fun ⟨hsrc, hst⟩ => h.elim hsrc fun ⟨hst1, hst2⟩ => hst.elim hst1 hst2

theorem timeSourceLost_of {c : Chip} (hsrc : rd Reg.MST_DISC_SRC c ≠ 0)
    (hst : rd Reg.MST_TIME_STATE c = 1 ∨ rd Reg.MST_TIME_STATE c = 2) : timeSourceLost c = raise 6 0x1A01 0 (timeState 3 c) :=
  if_pos ⟨hsrc, hst⟩

theorem rd_timeState_lost (c : Chip) : rd Reg.MST_TIME_STATE (raise 6 0x1A01 0 (timeState 3 c)) = 3 := by
  rw [onlyFields_raise 6 0x1A01 0 _ _ (by decide), rd_timeState (by decide)]

end Sys2Proof.Machine
end

section
/-! Frames of the management port (R779, R861, R862, R872). -/

namespace Sys2Proof.Machine

theorem frameArrive_of_not_hold {c : Chip} (h : c.boot.hold = false) (f : MgmtFrame) : frameArrive f c = frameTake c f := by
  rw [frameArrive, h]
  rfl

/-- In the hold of a live update a frame waits, or is counted as dropped when 256 wait. -/
theorem frameArrive_of_hold {c : Chip} (h : c.boot.hold = true) (f : MgmtFrame) :
    frameArrive f c = if c.boot.kept.length < 256 then { c with boot := { c.boot with kept := c.boot.kept ++ [f] } }
      else { c with boot := { c.boot with dropped := c.boot.dropped + 1 } } := by
  rw [frameArrive, h]
  rfl

/-- A datagram from `src` is the notice `y` of this job's peer. -/
def isNotice (src : Nat) (m : Option LbyMsg) (c : Chip) (y : LbyMsg) : Prop :=
  m = some y ∧ src = rd Reg.SBI_MGMT_PEER c ∧ y.jobId = rd Reg.LBY_JOB_ID c

theorem mgmtTake_of_notice {src : Nat} {m : Option LbyMsg} {c : Chip} {y : LbyMsg} (h : isNotice src m c y) :
    mgmtTake src m c = lbyNotice y.a0 (bump (Reg.MST_CTR 4) 1 c) := by
  obtain ⟨rfl, hsrc, hjob⟩ := h
  simp [mgmtTake, hsrc, hjob]

/-- The block with a datagram that is no notice counted, before the error that tells of it. -/
def datagramDropped (c : Chip) : Chip := bump (Reg.MST_CTR 5) 1 c

theorem mgmtTake_of_not_notice {src : Nat} {m : Option LbyMsg} {c : Chip} (h : ∀ y, ¬ isNotice src m c y) :
    mgmtTake src m c = raise 0xB0 0x1B06 0 (datagramDropped c) := by
  cases m with
  | none => rfl
  | some y =>
    have hnot : ¬ (src = rd Reg.SBI_MGMT_PEER c ∧ y.jobId = rd Reg.LBY_JOB_ID c) := fun hy => h y ⟨rfl, hy⟩
    refine if_neg ?_
    simpa only [Bool.and_eq_true, beq_iff_eq] using hnot

theorem mstCtr_raise_datagramDropped (c : Chip) :
    rd (Reg.MST_CTR 5) (raise 0xB0 0x1B06 0 (datagramDropped c)) = (rd (Reg.MST_CTR 5) c + 1) % 2 ^ 64 := by
  rw [onlyFields_raise 0xB0 0x1B06 0 _ _ (by decide), datagramDropped, bump_eq, rd_wr_same]
  rfl

theorem errStatus_raise_datagramDropped (c : Chip) :
    (rd (Hdr.ERR_STATUS 0xB0) (raise 0xB0 0x1B06 0 (datagramDropped c))).testBit 5 = true :=
  testBit_errStatus_raise (code := 0x1B06) 0 _ (by decide) (by decide)

theorem recordsOnly_lby {a b : Chip} (h : recordsOnly a b) : b.lby = a.lby := by rw [h]

theorem frameTake_sync_of_ne {c : Chip} (h : rd Reg.MST_DISC_SRC c ≠ 1) (trim err : Nat) (locked : Bool) :
    frameTake c (.sync trim err locked) = c := if_neg h

/-- A PTP Sync of the selected source: its error estimate, then its discipline. -/
theorem frameTake_sync_of_eq {c : Chip} (h : rd Reg.MST_DISC_SRC c = 1) (trim err : Nat) (locked : Bool) :
    frameTake c (.sync trim err locked) = discipline 1 trim locked (wr Reg.MST_TIME_ERR_NS err c) := if_pos h

theorem frameTake_sync_of_eq_regs {c : Chip} (h : rd Reg.MST_DISC_SRC c = 1) (trim err : Nat) (locked : Bool) :
    rd Reg.MST_TIME_STATE (frameTake c (.sync trim err locked)) = nextTimeState locked (rd Reg.MST_TIME_STATE c) ∧
      toSigned 32 (rd Reg.MST_FREQ_TRIM (frameTake c (.sync trim err locked))) = cutTrim (toSigned 32 trim) ∧
      rd Reg.MST_TIME_ERR_NS (frameTake c (.sync trim err locked)) = err % 2 ^ 32 := by
  have hsrc : rd Reg.MST_DISC_SRC (wr Reg.MST_TIME_ERR_NS err c) = 1 := (rd_wr_ne _ _ (by decide)).trans h
  rw [frameTake_sync_of_eq h]
  refine ⟨?_, freqTrim_discipline hsrc trim locked, ?_⟩
  · rw [rd_timeState_discipline hsrc, rd_wr_ne _ _ (by decide)]
  · rw [onlyFields_discipline _ _ _ _ _ (by decide), rd_wr_same]
    rfl

theorem frameTake_sync_mem (c : Chip) (trim err : Nat) (locked : Bool) : (frameTake c (.sync trim err locked)).mem = c.mem :=
  recordsOnly_mem (recordsOnly_ite (recordsOnly_trans (recordsOnly_wr _ _ _) (recordsOnly_discipline _ _ _ _))
    (recordsOnly_refl c))

/-- The block with the management link down and told. -/
def mgmtLinkDropped (c : Chip) : Chip := raise 0xB0 0x1B03 0 (wr Reg.SBI_MGMT_LINK 0 c)

theorem rd_mgmtLink_mgmtLinkDropped (c : Chip) : rd Reg.SBI_MGMT_LINK (mgmtLinkDropped c) = 0 := by
  rw [mgmtLinkDropped, onlyFields_raise 0xB0 0x1B03 0 _ _ (by decide), rd_wr_same]
  rfl

theorem errStatus_mgmtLinkDropped (c : Chip) : (rd (Hdr.ERR_STATUS 0xB0) (mgmtLinkDropped c)).testBit 2 = true :=
  testBit_errStatus_raise (code := 0x1B03) 0 _ (by decide) (by decide)

end Sys2Proof.Machine

namespace Sys2Proof.Proofs

open Sys2Proof.Machine

/-- R848: a write of `STEP_NS` that reaches MST. -/
theorem exec_stepNsWrite_of_reaches {p : Party} {s : State} (h : reaches p 6 s.chip) (v : Nat) :
    exec (.stepNsWrite p v) s = becomes s (stepNs p v s.chip) :=
  congrArg (becomes s) (regAccess_of_reaches h 0x110 v (stepNs p v))

/-- A frame that arrives in the hold of a live update. -/
theorem becomes_frameArrive_of_hold {s : State} (h : s.chip.boot.hold = true) (f : MgmtFrame) :
    becomes s (frameArrive f s.chip) =
      if s.chip.boot.kept.length < 256 then
        becomes s { s.chip with boot := { s.chip.boot with kept := s.chip.boot.kept ++ [f] } }
      else becomes s { s.chip with boot := { s.chip.boot with dropped := s.chip.boot.dropped + 1 } } := by
  rw [frameArrive_of_hold h, apply_ite (becomes s)]

/-- A frame that arrives outside the hold is taken. -/
theorem becomes_frameArrive_of_not_hold {s : State} (h : s.chip.boot.hold = false) (f : MgmtFrame) :
    becomes s (frameArrive f s.chip) = becomes s (frameTake s.chip f) := congrArg (becomes s) (frameArrive_of_not_hold h f)

/-- Settles O57: a step by the signed value of its word (`stepNs_word`), the source's events by what `discipline` writes, frames
by whether the hold keeps them (`frameArrive_of_hold`). -/
theorem timeAndFrames : Obligations.TimeAndFrames := by
  unfold Obligations.TimeAndFrames
  intro s p x v trim err time src locked m data
  refine ⟨fun hr => ⟨fun hp => ?host, fun hp hlo hhi => ?step⟩, fun h => congrArg (becomes s) (timeStepApply_of_not_due h),
    fun hstep hdue => ?apply, ?pps, fun h => congrArg (becomes s) (timeSourceLost_of_not h), fun hsrc hst => ?lost,
    fun h => ⟨becomes_frameArrive_of_hold h (.sync trim err locked), becomes_frameArrive_of_hold h (.echo src data),
      becomes_frameArrive_of_hold h (.datagram src m)⟩,
    fun h => ⟨becomes_frameArrive_of_not_hold h (.echo src data), fun hdisc => ?syncOther, fun hdisc => ?sync,
      fun y hy => ?notice, fun hno => ?dropped⟩, ?linkDown⟩
  case host => rw [exec_stepNsWrite_of_reaches hr, stepNs_of_host hp]
  case step =>
    rw [exec_stepNsWrite_of_reaches hr]
    exact ⟨fun hbad => congrArg (becomes s) (stepNs_of_no_multiple hp hlo hhi _ hbad),
      fun hnz hmul hneg hheld => congrArg (becomes s) (stepNs_of_held hp hlo hhi _ hnz hmul hneg hheld),
      fun hnz hmul hfree => congrArg (becomes s) (stepNs_of_free hp hlo hhi _ hnz hmul hfree)⟩
  case apply =>
    exact ⟨_, congrArg (becomes s) (timeStepApply_of_due hstep hdue), rfl, now_timeRecord_timeStepped v s.chip,
      timeRecord_timeStepped_frame v s.chip⟩
  case pps =>
    refine ⟨_, rfl, rfl, rd_ppsCapture_ppsEdge time trim locked s.chip, rd_ppsSeen_ppsEdge time trim locked s.chip,
      recordsOnly_mem (recordsOnly_discipline 2 trim locked (ppsCaptured time s.chip)), fun h => ppsEdge_of_eq h time trim locked,
      fun h => ?_⟩
    have hsame : ∀ g, rd g (ppsEdge time trim locked s.chip) = rd g (ppsCaptured time s.chip) :=
      fun g => congrArg (rd g) (ppsEdge_of_ne h time trim locked)
    exact ⟨(hsame _).trans (onlyFields_ppsCaptured time s.chip _ (by decide)),
      (hsame _).trans (onlyFields_ppsCaptured time s.chip _ (by decide))⟩
  case lost =>
    exact ⟨_, congrArg (becomes s) (timeSourceLost_of hsrc hst), rfl, rd_timeState_lost s.chip,
      testBit_errStatus_raise_mst (code := 0x1A01) 0 _ (by decide),
      (raise_mem _ _ _ _).trans (recordsOnly_mem (recordsOnly_timeState 3 s.chip))⟩
  case syncOther =>
    exact (becomes_frameArrive_of_not_hold h _).trans (congrArg (becomes s) (frameTake_sync_of_ne hdisc trim err locked))
  case sync =>
    obtain ⟨hstate, htrim, herr⟩ := frameTake_sync_of_eq_regs hdisc trim err locked
    exact ⟨_, becomes_frameArrive_of_not_hold h _, rfl, hstate, htrim, herr, frameTake_sync_mem _ _ _ _⟩
  case notice => exact (becomes_frameArrive_of_not_hold h _).trans (congrArg (becomes s) (mgmtTake_of_notice hy))
  case dropped =>
    exact ⟨_, (becomes_frameArrive_of_not_hold h _).trans (congrArg (becomes s) (mgmtTake_of_not_notice hno)), rfl,
      mstCtr_raise_datagramDropped s.chip, errStatus_raise_datagramDropped s.chip, raise_mem _ _ _ (datagramDropped s.chip),
      recordsOnly_lby (recordsOnly_raise _ _ _ (datagramDropped s.chip))⟩
  case linkDown =>
    exact ⟨_, rfl, rfl, rd_mgmtLink_mgmtLinkDropped s.chip, errStatus_mgmtLinkDropped s.chip, raise_mem _ _ _ _⟩

end Sys2Proof.Proofs
end
